-- ==== Sys2Proof/Word.lean ====
section
/-! DEFINITION. The word types of the S2 (R4, R11). -/

namespace Sys2Proof

/-- A 64-bit register, queue entry, address or slot word. -/
abbrev Word := BitVec 64

/-- One byte of any memory. -/
abbrev Byte := BitVec 8

/-- A cause code of R8. -/
abbrev Cause := BitVec 8

end Sys2Proof
end

