-- ==== Sys2Proof/Machine/Bits.lean ====
section
/-! DEFINITION. Bit fields, extensions and byte order (R4, R69). -/

namespace Sys2Proof.Machine

/-- The `n` bits of `x` from bit `lo` upward, as a number: Bits(x, lo + n - 1, lo) of R69. -/
def bits (x : Word) (lo n : Nat) : Nat := x.toNat / 2 ^ lo % 2 ^ n

/-- A number as a 64-bit word, modulo 2^64. -/
def toWord (n : Nat) : Word := BitVec.ofNat 64 n

/-- An integer as a 64-bit word, modulo 2^64. -/
def wordI (n : Int) : Word := BitVec.ofInt 64 n

/-- The low `n` bits of a number read as two's complement. -/
def signed (x n : Nat) : Int := if x % 2 ^ n < 2 ^ (n - 1) then (x % 2 ^ n : Nat) else (x % 2 ^ n : Nat) - (2 ^ n : Nat)

/-- SignExtend of R69: the low `n` bits as a 64-bit two's complement word. -/
def signExtend (x n : Nat) : Word := wordI (signed x n)

/-- A truth value as a word. -/
def boolWord (b : Bool) : Word := if b then 1 else 0

/-- The `n` little-endian bytes of a number (R4). -/
def toBytes (x : Nat) : Nat → List Byte
  | 0 => []
  | n + 1 => BitVec.ofNat 8 x :: toBytes (x / 256) n

/-- The number that little-endian bytes hold (R4). -/
def ofBytes : List Byte → Nat
  | [] => 0
  | b :: l => b.toNat + 256 * ofBytes l

/-- Replaces the `n` bits from `lo` upward by the low bits of `v`. -/
def setBits (x : Word) (lo n : Nat) (v : Nat) : Word :=
  toWord (x.toNat - bits x lo n * 2 ^ lo + v % 2 ^ n * 2 ^ lo)

/-- The `n` numbers from `a` upward. -/
def range (a : Nat) : Nat → List Nat
  | 0 => []
  | n + 1 => a :: range (a + 1) n

/-- The truth of each bit of a mask below `n`, as the list of set positions from `k` upward. -/
def setBitsOf (x : Nat) (k : Nat) : Nat → List Nat
  | 0 => []
  | n + 1 => if x % 2 = 1 then k :: setBitsOf (x / 2) (k + 1) n else setBitsOf (x / 2) (k + 1) n

/-- The number of ones among the low `n` bits. -/
def popcount (x : Nat) (n : Nat) : Nat := (setBitsOf x 0 n).length

/-- Sat of R69. -/
def satI (x lo hi : Int) : Int := if x < lo then lo else if hi < x then hi else x

/-- The `n`-th element of a list of words, or 0. -/
def nth (l : List Word) (n : Nat) : Word := l.getD n 0

/-- Chops a list into pieces of `n` elements, at most `k` of them. -/
def pieces {α : Type} (n : Nat) : Nat → List α → List (List α)
  | 0, _ => []
  | k + 1, l => if l.isEmpty then [] else l.take n :: pieces n k (l.drop n)

/-- A choice that the spec leaves open: `want` where it is allowed, otherwise the first allowed of some others. -/
def pick (want : Nat) (others : List Nat) (ok : Nat → Bool) : Option Nat := if ok want then some want else others.find? ok

end Sys2Proof.Machine
end

