-- ==== Sys2Proof/Machine/Aes.lean ====
section
/-! DEFINITION. AES-256 decryption and key unwrapping, by which memory keys are delivered (R392: FIPS 197, NIST SP 800-38F KW). -/

namespace Sys2Proof.Machine

/-! ### The field of AES -/

/-- Multiplication by x. -/
def xtime (a : Byte) : Byte := if a.getLsbD 7 then (a <<< 1) ^^^ 0x1B else a <<< 1

/-- The product of two field elements. -/
def gmul (a b : Byte) : Byte :=
  ((range 0 8).foldl (fun (r : Byte × Byte) i => (if b.getLsbD i then r.1 ^^^ r.2 else r.1, xtime r.2)) (0, a)).1

/-- The inverse of a field element, 0 for 0: its power 254. -/
def ginv (a : Byte) : Byte := ((range 0 7).foldl (fun (r : Byte × Byte) _ => let q := gmul r.2 r.2; (gmul r.1 q, q)) (1, a)).1

/-! ### The cipher -/

/-- The substitution and its inverse. -/
def aesSub (b : Byte) : Byte :=
  let x := ginv b
  x ^^^ x.rotateLeft 1 ^^^ x.rotateLeft 2 ^^^ x.rotateLeft 3 ^^^ x.rotateLeft 4 ^^^ 0x63

def aesUnsub (b : Byte) : Byte := ginv (b.rotateLeft 1 ^^^ b.rotateLeft 3 ^^^ b.rotateLeft 6 ^^^ 0x05)

/-- Bytes added pairwise. -/
def xorBytes (a b : List Byte) : List Byte := List.zipWith (· ^^^ ·) a b

/-- A word of the key schedule from the eight before it; `i` is its number. -/
def aesNextWord (i : Nat) (prev : List (List Byte)) : List Byte :=
  let t := prev.getLastD []
  let t :=
    if i % 8 = 0 then
      match t.map aesSub with
      | a :: l => xorBytes (l ++ [a]) [(range 0 (i / 8 - 1)).foldl (fun r _ => xtime r) 1, 0, 0, 0]
      | [] => []
    else if i % 8 = 4 then t.map aesSub
    else t
  xorBytes (prev.headD []) t

/-- The sixty words of the key schedule: the last eight, and those before them. -/
def aesSchedule (key : List Byte) : List (List Byte) :=
  let start := (range 0 8).map fun n => (key.drop (4 * n)).take 4
  let r := (range 8 52).foldl
    (fun (r : List (List Byte) × List (List Byte)) i => (r.1 ++ [aesNextWord i r.2], r.2.drop 1 ++ [aesNextWord i r.2])) (start, start)
  r.1

/-- The key of a round. -/
def aesRoundKey (ks : List (List Byte)) (n : Nat) : List Byte := ((ks.drop (4 * n)).take 4).flatten

/-- The rows shifted back, and the bytes substituted back. -/
def aesUnshift (b : List Byte) : List Byte := (range 0 16).map fun n => aesUnsub (b.getD ((n + 16 - 4 * (n % 4)) % 16) 0)

/-- The columns mixed back. -/
def aesUnmix (b : List Byte) : List Byte :=
  (range 0 16).map fun n =>
    (range 0 4).foldl (fun r j => r ^^^ gmul (b.getD (n / 4 * 4 + j) 0) ([0x0E, 0x0B, 0x0D, 0x09].getD ((j + 4 - n % 4) % 4) 0)) 0

/-- AES-256 decrypts a block. -/
def aesDecrypt (ks : List (List Byte)) (b : List Byte) : List Byte :=
  let b := (range 1 13).reverse.foldl (fun b n => aesUnmix (xorBytes (aesUnshift b) (aesRoundKey ks n))) (xorBytes b (aesRoundKey ks 14))
  xorBytes (aesUnshift b) (aesRoundKey ks 0)

/-! ### Key unwrapping (SP 800-38F, KW) -/

/-- One step of the unwrapping, with step number `t`: the check value and the semiblocks. -/
def unwrapStep (ks : List (List Byte)) (r : List Byte × List (List Byte)) (t : Nat) : List Byte × List (List Byte) :=
  let i := (t - 1) % r.2.length
  let b := aesDecrypt ks (xorBytes r.1 (toBytes t 8).reverse ++ r.2.getD i [])
  (b.take 8, r.2.set i (b.drop 8))

/-- The key that a text wraps under a wrapping key; none when the check value is wrong, or the text is no wrapping. -/
def unwrapKey (kek text : List Byte) : Option (List Byte) :=
  let n := text.length / 8 - 1
  if kek.length ≠ 32 || text.length % 8 ≠ 0 || n < 2 then none
  else
    let semi := (range 0 n).map fun i => (text.drop (8 + 8 * i)).take 8
    let r := (range 1 (6 * n)).reverse.foldl (unwrapStep (aesSchedule kek)) (text.take 8, semi)
    if r.1 = List.replicate 8 0xA6 then some r.2.flatten else none

end Sys2Proof.Machine
end

