-- ==== Sys2Proof/Config.lean ====
section
/-! DEFINITION. What the S2 fixes for each die, and the values the spec leaves open as constants without a body. -/

namespace Sys2Proof.Config

/-- LSP_LAT of a die: 6 on the draft die, 4 on the verify dies (R2, R93). -/
def lspLat (die : Nat) : Nat := if die = 0 then 6 else 4

/-- NCORE of a die (R93). -/
def ncore (die : Nat) : Nat := if die = 0 then 32 else 80

/-- SPHALF of a die: a scratchpad half is 2^SPHALF MiB (R93, R146). -/
def sphalf (die : Nat) : Nat := if die = 0 then 2 else 0

/-- The size in bytes of a scratchpad half (R146). -/
def halfBytes (die : Nat) : Nat := 2 ^ (20 + sphalf die)

/-- The HBM stacks of a verify die (R157). -/
def hbmStacks : Nat := 6

/-- Bytes of HBM of a verify die (R157). -/
def hbmBytes : Nat := 288000000000

/-- The default landing offsets LDEF of CSP, DSP, MEM, PEER and HOST (R230). -/
def ldefCsp : Nat := 24
def ldefDsp : Nat := 96
def ldefMem : Nat := 400
def ldefPeer : Nat := 6000
def ldefHost : Nat := 3000

/-- Die-time cycles in 64 microseconds at 1.5 GHz (R344, R437). -/
def cycles64us : Nat := 96000

/-- The number of modules of a link (R370). -/
def linkModules (link : Nat) : Nat := if link = 2 then 16 else 8

/-- How many die-time cycles the transfer of a `ctxsv` or `ctxld` takes, by serial number (R99, R100, R140, log 48). -/
opaque transferCycles : Nat → Nat

/-- The number of ports on which a flush marker goes to a node, less one, modulo 8, by serial number and node (R447, log 51). -/
opaque flushPorts : Nat → Nat

/-- Whether the host fails to answer the read of a doorbell's patch list, by serial number (R341, log 53). -/
opaque listReadFails : Nat → Bool

/-- The choices by which a mover takes the next block of an element (R249, R297), a core keeps a translation (R159), and a die's routing
table sends the traffic of a core to a 64-byte line over the two-hop path (R302), by serial number, or by core and line (log 49). -/
opaque blockChoice : Nat → Nat
opaque tlbKeeps : Nat → Bool
opaque twoHopLine : Nat → Nat → Bool

/-- The depth of a page-directory port queue, which no rule gives (log 7). -/
opaque kvPortDepth : Nat

/-- The address value and, when true, the MEM space that an aborted flush reports for the stores it covered, by serial number (R304,
log 15). -/
opaque abortAddr : Nat → Word
opaque abortInMem : Nat → Bool

/-- What FADDR and, with SPACE and WR, FINFO hold after a landing fault of a word that names no address, by serial number (R233,
log 19). -/
opaque faultAddr : Nat → Word
opaque faultPlace : Nat → BitVec 4

/-- The choices among equals that the spec leaves open, by serial number: a context number (R337), an entry of the SAVEPOOL list (R359),
an entry of a directory stack (R434). A choice that is not allowed gives way to the first that is (log 21). -/
opaque ctxNumber : Nat → Nat
opaque saveArea : Nat → Nat
opaque kvEntry : Nat → Nat

/-- How many sequence numbers a collective takes of another node and that node of this one, by serial number (R446, R452, log 23). -/
opaque collPackets : Nat → Nat

/-- How many numbers of another node's requests that have still to come stand before those of a collective (log 23), and by how much the RX that
node returns has moved on while it holds requests whose fate is unknown (R446), by serial number. -/
opaque collGap : Nat → Nat
opaque peerRx : Nat → Nat

/-- The bytes of a directory ring record that the spec gives no value, by serial number and place (R433, log 22). -/
opaque ringByte : Nat → Nat → Byte

/-- What the spec gives no value in the MP's own records, by serial number: the GID, HSEQ, CAUSE and TASK of a completion record that no
doorbell asked for (R385, R397), and in the error log the codes of a reset's reason and of a journal outcome (R394, log 25). -/
opaque recordValue : Nat → BitVec 32
opaque resetReason : Nat → BitVec 6
opaque journalCode : Nat → BitVec 2

/-- The key that an RSA-OAEP-3072 text holds for the encryption key with a public half, none when it does not decrypt (R385, R390, log 8). -/
opaque oaepDecrypt : List Byte → List Byte → Option (List Byte)

/-- The cluster that CAUSE.CL names for a notification that no cluster raises, by serial number (R94, R378, R437, log 19). -/
opaque noticeCluster : Nat → BitVec 2

/-- What a firmware image or signed record carries, whose layout no rule gives (R389, log 8): the signed bytes, the public keys and signatures for
RSA and SLH-DSA, and the security version. -/
opaque signedBody : List Byte → List Byte
opaque rsaKey : List Byte → List Byte
opaque rsaSignature : List Byte → List Byte
opaque slhKey : List Byte → List Byte
opaque slhSignature : List Byte → List Byte
opaque securityVersion : List Byte → Nat

/-- Whether a signature verifies over bytes under a public key: RSASSA-PSS with RSA-3072 and SHA-384, and SLH-DSA-SHA2-192s (R389, log 8). -/
opaque rsaVerifies : List Byte → List Byte → List Byte → Bool
opaque slhVerifies : List Byte → List Byte → List Byte → Bool

/-- The SHA-384 of Dexhovik's two root public keys, as the boot ROM of the MP holds them (R389, log 8). -/
opaque rootRsa : List Byte
opaque rootSlh : List Byte

/-- Whether an engine credits bytes together with those that it still owes the same barrier (R282, log 63), by serial number. -/
opaque joinsCredit : Nat → Bool

/-- The bytes of an attestation report over the nonce and the reported state, signed under the two identity signing keys with given public
halves (R391, log 8). -/
opaque attestReport : List Byte → List Byte → List Byte → List Word → List Byte

/-- What a byte of a line reads as whose key has been cleared: the line may not have been written back, or is read under another key (R392,
log 61), by serial number and PA. -/
opaque clearedByte : Nat → Nat → Byte

/-- What a byte of a line of HBM reads as whose die has lost its LLC: the line may not have been written back (R380, log 62), by serial number and
PA. -/
opaque lostByte : Nat → Nat → Byte

/-- The key the MP loads into slot 0 at a boot, by boot count (R392, log 8). -/
opaque bootKey : Nat → List Byte

/-- What a decode fill finds in a source line that holds an uncorrectable error, and in a view whose source lies in that view itself (R122, R125,
R397, log 60), by serial number and PA. -/
opaque sourceByte : Nat → Nat → Byte

/-- The capacity of a die's scheduler memory, in graph dwords, which no rule gives (R334, log 7). -/
opaque schedulerMemory : Nat → Nat

end Sys2Proof.Config
end

