-- ==== Sys2Proof/Machine/Map.lean ====
section
/-! DEFINITION. Finite maps keyed by numbers, and sparse byte memories, as plain data in one canonical form. -/

namespace Sys2Proof

/-- A finite map: pairs with strictly rising keys. -/
structure FMap (α : Type) where
  items : List (Nat × α)
  deriving DecidableEq, Repr

namespace FMap

variable {α : Type}

/-- The map with no key. -/
def empty : FMap α := ⟨[]⟩

/-- The value of the first pair with key `k`. -/
def lookup (k : Nat) : List (Nat × α) → Option α
  | [] => none
  | (j, v) :: l => if j = k then some v else lookup k l

/-- The value at a key, if there is one. -/
def find? (m : FMap α) (k : Nat) : Option α := lookup k m.items

/-- The value at a key, or `d`. -/
def getD (m : FMap α) (k : Nat) (d : α) : α := (m.find? k).getD d

/-- The pairs without those of key `k`. -/
def dropKey (k : Nat) : List (Nat × α) → List (Nat × α)
  | [] => []
  | (j, v) :: l => if j = k then dropKey k l else (j, v) :: dropKey k l

/-- Puts a pair before the first larger key. -/
def putKey (k : Nat) (v : α) : List (Nat × α) → List (Nat × α)
  | [] => [(k, v)]
  | (j, w) :: l => if k < j then (k, v) :: (j, w) :: l else (j, w) :: putKey k v l

/-- The map without key `k`. -/
def erase (m : FMap α) (k : Nat) : FMap α := ⟨dropKey k m.items⟩

/-- The map with value `v` at key `k`. -/
def insert (m : FMap α) (k : Nat) (v : α) : FMap α := ⟨putKey k v (dropKey k m.items)⟩

/-- Lists a key that is not listed yet. -/
def note (m : FMap α) (k : Nat) (v : α) : FMap α := if (m.find? k).isSome then m else m.insert k v

/-- The value at `k`, if any, replaced by its image. -/
def modify (m : FMap α) (k : Nat) (f : α → α) : FMap α :=
  match m.find? k with
  | none => m
  | some v => m.insert k (f v)

/-- The keys in rising order. -/
def keys (m : FMap α) : List Nat := m.items.map (·.1)

/-- The values in the order of their keys. -/
def vals (m : FMap α) : List α := m.items.map (·.2)

/-- The pairs that satisfy a test. -/
def filter (m : FMap α) (p : Nat → α → Bool) : FMap α := ⟨m.items.filter fun e => p e.1 e.2⟩

/-- Every value replaced by its image. -/
def map (m : FMap α) (f : α → α) : FMap α := ⟨m.items.map fun e => (e.1, f e.2)⟩

/-- The canonical form: keys strictly rising. -/
def sorted : List (Nat × α) → Bool
  | [] => true
  | [_] => true
  | (j, _) :: (k, w) :: l => decide (j < k) && sorted ((k, w) :: l)

end FMap

/-- A byte memory: the listed cells, every unlisted address reading 0. -/
abbrev Mem := FMap Byte

namespace Mem

/-- What an address reads as. -/
def read (m : Mem) (a : Nat) : Byte := m.getD a 0

/-- Writes one byte, keeping the canonical form: a byte equal to what an unlisted address reads as is not listed. -/
def write (m : Mem) (a : Nat) (b : Byte) : Mem := if b = 0 then m.erase a else m.insert a b

/-- The `n` bytes from address `a`. -/
def readBytes (m : Mem) (a : Nat) : Nat → List Byte
  | 0 => []
  | n + 1 => m.read a :: readBytes m (a + 1) n

/-- Writes bytes from address `a` upward. -/
def writeBytes (m : Mem) (a : Nat) : List Byte → Mem
  | [] => m
  | b :: bs => writeBytes (m.write a b) (a + 1) bs

/-- The canonical form of a memory: addresses strictly rising, no listed byte equal to what an unlisted one reads as. -/
def wf (m : Mem) : Bool := FMap.sorted m.items && m.items.all fun c => decide (c.2 ≠ 0)

end Mem

/-- A set of numbers in rising order. -/
structure NSet where
  elems : List Nat
  deriving DecidableEq, Repr

namespace NSet

/-- The set with no element. -/
def empty : NSet := ⟨[]⟩

/-- Membership. -/
def has (s : NSet) (k : Nat) : Bool := s.elems.contains k

/-- Puts an element in its place, once. -/
def put (k : Nat) : List Nat → List Nat
  | [] => [k]
  | j :: l => if k < j then k :: j :: l else if k = j then j :: l else j :: put k l

/-- The set with `k`. -/
def add (s : NSet) (k : Nat) : NSet := ⟨put k s.elems⟩

/-- The set without `k`. -/
def del (s : NSet) (k : Nat) : NSet := ⟨s.elems.filter (· ≠ k)⟩

/-- The set without the elements that satisfy a test. -/
def delIf (s : NSet) (p : Nat → Bool) : NSet := ⟨s.elems.filter fun k => !p k⟩

/-- The set with every number of a list. -/
def addAll (s : NSet) (l : List Nat) : NSet := l.foldl NSet.add s

end NSet

end Sys2Proof
end

