-- ==== Sys2Proof/Syntax.lean ====
section
/-! DEFINITION. The instruction set: every slot word of R57 to R61 and every further step of the opcode table, one constructor each. -/

namespace Sys2Proof

/-- The four issue-slot clusters of a core (R11). -/
inductive Cluster where
  | c | v | m | x
  deriving DecidableEq, Repr

/-- The sync bit, guard negation and guard predicate of a slot word (R39, R40). -/
structure Hdr where
  sync : Bool
  neg : Bool
  pred : BitVec 3
  deriving DecidableEq, Repr

/-- Payload format D (R46). -/
structure FmtD where
  d1 : BitVec 6
  d2 : BitVec 6
  deriving DecidableEq, Repr

/-- Payload format S1 (R46). -/
structure FmtS1 where
  sa : BitVec 4
  deriving DecidableEq, Repr

/-- Payload format S2 (R46). -/
structure FmtS2 where
  sa : BitVec 4
  sb : BitVec 4
  deriving DecidableEq, Repr

/-- Payload format R1 (R46). -/
structure FmtR1 where
  d1 : BitVec 6
  d2 : BitVec 6
  sa : BitVec 4
  deriving DecidableEq, Repr

/-- Payload format RR (R46). -/
structure FmtRR where
  d1 : BitVec 6
  d2 : BitVec 6
  sa : BitVec 4
  sb : BitVec 4
  fn : BitVec 8
  deriving DecidableEq, Repr

/-- Payload format RI (R46). -/
structure FmtRI where
  d1 : BitVec 6
  d2 : BitVec 6
  sa : BitVec 4
  fn : BitVec 4
  imm : BitVec 32
  deriving DecidableEq, Repr

/-- Payload format LI (R46). -/
structure FmtLI where
  d1 : BitVec 6
  d2 : BitVec 6
  imm : BitVec 32
  deriving DecidableEq, Repr

/-- Payload format Q (R46). -/
structure FmtQ where
  d1 : BitVec 6
  d2 : BitVec 6
  qs : BitVec 4
  deriving DecidableEq, Repr

/-- Payload format CR (R46). -/
structure FmtCR where
  d1 : BitVec 6
  d2 : BitVec 6
  sa : BitVec 4
  crn : BitVec 12
  deriving DecidableEq, Repr

/-- Payload format BR (R46). -/
structure FmtBR where
  d1 : BitVec 6
  off : BitVec 24
  deriving DecidableEq, Repr

/-- Payload format LP (R46). -/
structure FmtLP where
  lc : BitVec 1
  sa : BitVec 4
  cnt : BitVec 16
  off : BitVec 24
  deriving DecidableEq, Repr

/-- Payload format PL (R46). -/
structure FmtPL where
  pd : BitVec 3
  pa : BitVec 3
  pb : BitVec 3
  na : BitVec 1
  nb : BitVec 1
  deriving DecidableEq, Repr

/-- Payload format PW (R46). -/
structure FmtPW where
  sa : BitVec 4
  mask : BitVec 7
  deriving DecidableEq, Repr

/-- Payload format TR (R46). -/
structure FmtTR where
  code : BitVec 16
  deriving DecidableEq, Repr

/-- Payload format FK (R46). -/
structure FmtFK where
  v : BitVec 1
  m : BitVec 1
  x : BitVec 1
  offv : BitVec 16
  offm : BitVec 16
  offx : BitVec 16
  deriving DecidableEq, Repr

/-- Payload format V3 (R50). -/
structure FmtV3 where
  vd : BitVec 15
  va : BitVec 15
  vb : BitVec 15
  ty : BitVec 2
  rm : BitVec 3
  sub : BitVec 2
  deriving DecidableEq, Repr

/-- Payload format VR (R50). -/
structure FmtVR where
  d1 : BitVec 6
  d2 : BitVec 6
  va : BitVec 15
  sa : BitVec 4
  ty : BitVec 2
  rm : BitVec 3
  sub : BitVec 2
  deriving DecidableEq, Repr

/-- Payload format VS (R50). -/
structure FmtVS where
  vd : BitVec 15
  va : BitVec 15
  sa : BitVec 4
  sb : BitVec 4
  ty : BitVec 2
  rm : BitVec 3
  sub : BitVec 2
  deriving DecidableEq, Repr

/-- Payload format VCV (R50). -/
structure FmtVCV where
  vd : BitVec 15
  va : BitVec 15
  fmtd : BitVec 5
  fmts : BitVec 5
  ty : BitVec 2
  rm : BitVec 3
  sub : BitVec 2
  deriving DecidableEq, Repr

/-- Payload format MB (R53). -/
structure FmtMB where
  wb : BitVec 1
  z : BitVec 1
  acc : BitVec 8
  h : BitVec 1
  sa : BitVec 4
  dr : BitVec 1
  dacc : BitVec 8
  dt : BitVec 15
  df : BitVec 2
  deriving DecidableEq, Repr

/-- Payload format MD (R53). -/
structure FmtMD where
  dacc : BitVec 8
  dt : BitVec 15
  df : BitVec 2
  deriving DecidableEq, Repr

/-- Payload format MW (R53). -/
structure FmtMW where
  wb : BitVec 1
  col : BitVec 7
  half : BitVec 2
  sa : BitVec 4
  deriving DecidableEq, Repr

/-- Payload format MC (R53). -/
structure FmtMC where
  aw : BitVec 2
  bw : BitVec 2
  sp : BitVec 1
  dens : BitVec 2
  bss : BitVec 2
  deriving DecidableEq, Repr

/-- Payload format MA (R53). -/
structure FmtMA where
  acc : BitVec 8
  cnt : BitVec 8
  deriving DecidableEq, Repr

/-- Payload format MX (R53). -/
structure FmtMX where
  d1 : BitVec 6
  d2 : BitVec 6
  sa : BitVec 4
  acc : BitVec 8
  deriving DecidableEq, Repr

/-- Payload format LD (R54). -/
structure FmtLD where
  d1 : BitVec 6
  d2 : BitVec 6
  sa : BitVec 4
  sb : BitVec 4
  land : BitVec 20
  sz : BitVec 2
  sx : BitVec 1
  ord : BitVec 2
  sc : BitVec 3
  deriving DecidableEq, Repr

/-- Payload format ST (R54). -/
structure FmtST where
  sa : BitVec 4
  sb : BitVec 4
  sz : BitVec 2
  ord : BitVec 2
  sc : BitVec 3
  deriving DecidableEq, Repr

/-- Payload format LDV (R54). -/
structure FmtLDV where
  vd : BitVec 15
  sa : BitVec 4
  sb : BitVec 4
  land : BitVec 20
  ord : BitVec 2
  sc : BitVec 3
  deriving DecidableEq, Repr

/-- Payload format STV (R54). -/
structure FmtSTV where
  vs : BitVec 15
  sa : BitVec 4
  ord : BitVec 2
  sc : BitVec 3
  deriving DecidableEq, Repr

/-- Payload format DR (R54). -/
structure FmtDR where
  mask : BitVec 6
  deriving DecidableEq, Repr

/-- Payload format FN (R54). -/
structure FmtFN where
  pre : BitVec 6
  suc : BitVec 6
  sc : BitVec 3
  deriving DecidableEq, Repr

/-- Payload format CP (R54). -/
structure FmtCP where
  mq : BitVec 2
  p1 : BitVec 1
  w1 : BitVec 2
  p2 : BitVec 1
  w2 : BitVec 2
  sa : BitVec 4
  sb : BitVec 4
  off : BitVec 24
  deriving DecidableEq, Repr

/-- Payload format EC (R54). -/
structure FmtEC where
  eng : BitVec 4
  eq : BitVec 2
  p1 : BitVec 1
  w1 : BitVec 2
  p2 : BitVec 1
  w2 : BitVec 2
  sa : BitVec 4
  sb : BitVec 4
  off : BitVec 24
  deriving DecidableEq, Repr

/-- Payload format QF (R54). -/
structure FmtQF where
  mqm : BitVec 4
  deriving DecidableEq, Repr

/-- Payload format AM (R54). -/
structure FmtAM where
  d1 : BitVec 6
  d2 : BitVec 6
  sa : BitVec 4
  sb : BitVec 4
  land : BitVec 20
  ord : BitVec 2
  sc : BitVec 3
  aop : BitVec 4
  w : BitVec 1
  sp : BitVec 2
  deriving DecidableEq, Repr

/-- The answer to a request from outside the package, or the cause it is refused with (R231, R443). -/
structure Reply where
  data : List Byte
  cause : Cause
  deriving DecidableEq, Repr

/-- What a training run of a link finds: the modules that fail and the two latencies measured (R374). -/
structure Training where
  failed : List Nat
  latUp : BitVec 16
  latDown : BitVec 16
  deriving DecidableEq, Repr

/-- The code streams and data section of one kernel image (R333, R163). -/
structure KernelImage where
  c : List Word
  v : List Word
  m : List Word
  x : List Word
  data : List Byte
  deriving DecidableEq, Repr

/-- A graph record as dwords, its images by handle and its initial parameter block (R332, R333). -/
structure GraphImage where
  dwords : List Word
  images : List (Nat × KernelImage)
  pbinit : List Byte
  deriving DecidableEq, Repr

/-- What the boot steps of one die find: the physical cores that fail their self-test, each with the core that takes its place, and the HBM
stacks that do not train at 9.6 Gb/s (R387). -/
structure DieBoot where
  cores : List (Nat × Nat)
  slow : List Nat
  deriving DecidableEq, Repr

/-- What the return of a die finds: the die, its boot steps, and by link the lanes that fail (module, and whether upward) and the training run (R379). -/
structure DieReturn where
  die : Nat
  boot : DieBoot
  lanes : List (List (Nat × Bool))
  training : List Training
  deriving DecidableEq, Repr

/-- What a boot finds: what else each journal step needs of the hardware, the step in which power is lost, what the steps of each die find, by link the
lanes that fail (module, and whether upward), CAPB of the links and ZONE_LAT (R386 to R388, R368). -/
structure BootOutcome where
  ok : List Bool
  cut : Option Nat
  dies : List DieBoot
  lanes : List (List (Nat × Bool))
  capb : List (BitVec 3)
  zone : List (BitVec 16)
  deriving DecidableEq, Repr

/-- What another rank of a collective contributes: whether its header equals ours, and its source bytes (R452, R453). -/
structure RankInput where
  same : Bool
  data : List Byte
  deriving DecidableEq, Repr

/-- A request that arrives from another package (R443, R445, R446): a store of bytes, or a load of `len` bytes. `prior` is the request
of its package to its 64-byte line that came before it, when that can still be under way (log 58). -/
structure PeerRequest where
  sseq : BitVec 32
  prior : Option (BitVec 32)
  va : Word
  isStore : Bool
  len : Nat
  data : List Byte
  deriving DecidableEq, Repr

/-- The markers of a flush of another package: the sequence number of the first, and the ports from which they come (R446, R447). -/
structure PeerMarkers where
  sseq : BitVec 32
  ports : Nat
  deriving DecidableEq, Repr

/-- One constructor per row of the opcode table, in its order. -/
inductive Instr where
  | nop (h : Hdr)
  | add (h : Hdr) (f : FmtRR)
  | sub (h : Hdr) (f : FmtRR)
  | andW (h : Hdr) (f : FmtRR)
  | orW (h : Hdr) (f : FmtRR)
  | xorW (h : Hdr) (f : FmtRR)
  | andn (h : Hdr) (f : FmtRR)
  | shl (h : Hdr) (f : FmtRR)
  | shr (h : Hdr) (f : FmtRR)
  | sra (h : Hdr) (f : FmtRR)
  | rot (h : Hdr) (f : FmtRR)
  | cmp (h : Hdr) (f : FmtRR)
  | sel (h : Hdr) (f : FmtRR)
  | mov (h : Hdr) (f : FmtR1)
  | clz (h : Hdr) (f : FmtR1)
  | popc (h : Hdr) (f : FmtR1)
  | addi (h : Hdr) (f : FmtRI)
  | andi (h : Hdr) (f : FmtRI)
  | ori (h : Hdr) (f : FmtRI)
  | xori (h : Hdr) (f : FmtRI)
  | shli (h : Hdr) (f : FmtRI)
  | shri (h : Hdr) (f : FmtRI)
  | srai (h : Hdr) (f : FmtRI)
  | roti (h : Hdr) (f : FmtRI)
  | cmpi (h : Hdr) (f : FmtRI)
  | li (h : Hdr) (f : FmtLI)
  | lih (h : Hdr) (f : FmtRI)
  | ext (h : Hdr) (f : FmtRI)
  | pand (h : Hdr) (f : FmtPL)
  | por (h : Hdr) (f : FmtPL)
  | pxor (h : Hdr) (f : FmtPL)
  | prd (h : Hdr) (f : FmtD)
  | pwr (h : Hdr) (f : FmtPW)
  | br (h : Hdr) (f : FmtBR)
  | jal (h : Hdr) (f : FmtBR)
  | jr (h : Hdr) (f : FmtS2)
  | ret (h : Hdr)
  | loop (h : Hdr) (f : FmtLP)
  | loopi (h : Hdr) (f : FmtLP)
  | lend (h : Hdr) (f : FmtLP)
  | qcnt (h : Hdr) (f : FmtQ)
  | crr (h : Hdr) (f : FmtCR)
  | join (h : Hdr)
  | trap (h : Hdr) (f : FmtTR)
  | halt (h : Hdr)
  | mul (h : Hdr) (f : FmtRR)
  | mulh (h : Hdr) (f : FmtRR)
  | mulhu (h : Hdr) (f : FmtRR)
  | div (h : Hdr) (f : FmtRR)
  | divu (h : Hdr) (f : FmtRR)
  | rem (h : Hdr) (f : FmtRR)
  | remu (h : Hdr) (f : FmtRR)
  | muli (h : Hdr) (f : FmtRI)
  | fork (h : Hdr) (f : FmtFK)
  | crw (h : Hdr) (f : FmtCR)
  | crrp (h : Hdr) (f : FmtCR)
  | eret (h : Hdr)
  | ctxsv (h : Hdr) (f : FmtS2)
  | ctxld (h : Hdr) (f : FmtS2)
  | yield (h : Hdr)
  | exit (h : Hdr)
  | launch (h : Hdr) (f : FmtRR)
  | wchild (h : Hdr) (f : FmtRR)
  | semSig (h : Hdr) (f : FmtS2)
  | semWait (h : Hdr) (f : FmtRI)
  | semInit (h : Hdr) (f : FmtS2)
  | semRd (h : Hdr) (f : FmtRR)
  | dgstRd (h : Hdr) (f : FmtRR)
  | dgstClr (h : Hdr)
  | mbxSend (h : Hdr) (f : FmtS2)
  | mbxRecv (h : Hdr) (f : FmtRR)
  | mbxCnt (h : Hdr) (f : FmtRR)
  | deskew (h : Hdr) (f : FmtRI)
  | zlat (h : Hdr) (f : FmtRR)
  | propPush (h : Hdr) (f : FmtS2)
  | propPop (h : Hdr) (f : FmtRR)
  | hznRd (h : Hdr) (f : FmtRR)
  | hznWr (h : Hdr) (f : FmtS2)
  | lnkSt (h : Hdr) (f : FmtRR)
  | lnkRate (h : Hdr) (f : FmtS2)
  | vadd (h : Hdr) (f : FmtV3)
  | vsub (h : Hdr) (f : FmtV3)
  | vmul (h : Hdr) (f : FmtV3)
  | vfma (h : Hdr) (f : FmtV3)
  | vfms (h : Hdr) (f : FmtV3)
  | vfnma (h : Hdr) (f : FmtV3)
  | vmax (h : Hdr) (f : FmtV3)
  | vmin (h : Hdr) (f : FmtV3)
  | vabs (h : Hdr) (f : FmtV3)
  | vneg (h : Hdr) (f : FmtV3)
  | vdiv (h : Hdr) (f : FmtV3)
  | vsqrt (h : Hdr) (f : FmtV3)
  | vexp2 (h : Hdr) (f : FmtV3)
  | vexp (h : Hdr) (f : FmtV3)
  | vscale (h : Hdr) (f : FmtV3)
  | viadd (h : Hdr) (f : FmtV3)
  | visub (h : Hdr) (f : FmtV3)
  | vimul (h : Hdr) (f : FmtV3)
  | vimax (h : Hdr) (f : FmtV3)
  | vimin (h : Hdr) (f : FmtV3)
  | vand (h : Hdr) (f : FmtV3)
  | vor (h : Hdr) (f : FmtV3)
  | vxor (h : Hdr) (f : FmtV3)
  | vshl (h : Hdr) (f : FmtV3)
  | vshr (h : Hdr) (f : FmtV3)
  | vsra (h : Hdr) (f : FmtV3)
  | vcmp (h : Hdr) (f : FmtV3)
  | vicmp (h : Hdr) (f : FmtV3)
  | vsel (h : Hdr) (f : FmtV3)
  | viota (h : Hdr) (f : FmtV3)
  | vpopc (h : Hdr) (f : FmtVR)
  | vcvt (h : Hdr) (f : FmtVCV)
  | vpack (h : Hdr) (f : FmtV3)
  | vunpack (h : Hdr) (f : FmtV3)
  | vperm (h : Hdr) (f : FmtV3)
  | vrot (h : Hdr) (f : FmtVS)
  | vbcast (h : Hdr) (f : FmtVS)
  | vmov (h : Hdr) (f : FmtV3)
  | vclr (h : Hdr) (f : FmtV3)
  | vins (h : Hdr) (f : FmtVS)
  | vext (h : Hdr) (f : FmtVR)
  | vrmax (h : Hdr) (f : FmtVR)
  | vrmin (h : Hdr) (f : FmtVR)
  | vrsum (h : Hdr) (f : FmtVR)
  | vrargmax (h : Hdr) (f : FmtVR)
  | mbeat (h : Hdr) (f : FmtMB)
  | mshift (h : Hdr) (f : FmtMB)
  | mdrain (h : Hdr) (f : FmtMD)
  | mdrainc (h : Hdr) (f : FmtMD)
  | mwload (h : Hdr) (f : FmtMW)
  | mbscale (h : Hdr) (f : FmtMW)
  | mcfg (h : Hdr) (f : FmtMC)
  | mseed (h : Hdr) (f : FmtS1)
  | mclr (h : Hdr) (f : FmtMA)
  | mexp (h : Hdr) (f : FmtMX)
  | mexpw (h : Hdr) (f : FmtMX)
  | msat (h : Hdr) (f : FmtD)
  | mstat (h : Hdr) (f : FmtD)
  | mwait (h : Hdr)
  | ldl (h : Hdr) (f : FmtLD)
  | stl (h : Hdr) (f : FmtST)
  | ldlV (h : Hdr) (f : FmtLDV)
  | stlV (h : Hdr) (f : FmtSTV)
  | ldc (h : Hdr) (f : FmtLD)
  | stc (h : Hdr) (f : FmtST)
  | ldcV (h : Hdr) (f : FmtLDV)
  | stcV (h : Hdr) (f : FmtSTV)
  | ldd (h : Hdr) (f : FmtLD)
  | std (h : Hdr) (f : FmtST)
  | lddV (h : Hdr) (f : FmtLDV)
  | stdV (h : Hdr) (f : FmtSTV)
  | ldm (h : Hdr) (f : FmtLD)
  | stm (h : Hdr) (f : FmtST)
  | ldmV (h : Hdr) (f : FmtLDV)
  | stmV (h : Hdr) (f : FmtSTV)
  | ldn (h : Hdr) (f : FmtLD)
  | stn (h : Hdr) (f : FmtST)
  | ldnV (h : Hdr) (f : FmtLDV)
  | stnV (h : Hdr) (f : FmtSTV)
  | ldh (h : Hdr) (f : FmtLD)
  | sth (h : Hdr) (f : FmtST)
  | ldhV (h : Hdr) (f : FmtLDV)
  | sthV (h : Hdr) (f : FmtSTV)
  | drain (h : Hdr) (f : FmtDR)
  | fence (h : Hdr) (f : FmtFN)
  | cpy (h : Hdr) (f : FmtCP)
  | ecmd (h : Hdr) (f : FmtEC)
  | qfence (h : Hdr) (f : FmtQF)
  | salloc (h : Hdr) (f : FmtS2)
  | pfm (h : Hdr) (f : FmtS1)
  | mqcnt (h : Hdr) (f : FmtQ)
  | barInit (h : Hdr) (f : FmtS2)
  | barArr (h : Hdr) (f : FmtRR)
  | barExp (h : Hdr) (f : FmtS2)
  | barCred (h : Hdr) (f : FmtS2)
  | barWait (h : Hdr) (f : FmtRR)
  | barTest (h : Hdr) (f : FmtRR)
  | barBrk (h : Hdr) (f : FmtS1)
  | mcast (h : Hdr) (f : FmtRR)
  | amo (h : Hdr) (f : FmtAM)
  | amocas (h : Hdr) (f : FmtAM)
  | ared (h : Hdr) (f : FmtAM)
  | amof (h : Hdr) (f : FmtAM)
  | aredf (h : Hdr) (f : FmtAM)
  | amotOpen (h : Hdr) (f : FmtS2)
  | amotSkip (h : Hdr) (f : FmtS2)
  | drainT (h : Hdr) (f : FmtS1)
  | pseq (h : Hdr) (f : FmtRR)
  | pflush (h : Hdr) (f : FmtS1)
  | rdig (h : Hdr) (f : FmtRR)
  | rcmp (h : Hdr) (f : FmtRR)
  | deliveryVisible (ctx : Nat)
  | landingDataArrival (req : Nat) (r : Reply)
  | queueDeadlock (ctx : Nat)
  | joinRendezvous (ctx : Nat)
  | taskComplete (ctx : Nat)
  | gateLift (ctx : Nat)
  | deferredStoreFault (req : Nat) (cause : Cause)
  | asyncCauseOffer (ctx : Nat)
  | homeAccessApply (req : Nat)
  | egressBufferDrain (req : Nat)
  | flushMarkerGather (ctx die : Nat)
  | flushCompletion (ctx : Nat)
  | moverCommandStart (ctx q : Nat)
  | copy (cmd : Nat)
  | gather (cmd : Nat)
  | i2c (cmd : Nat)
  | fill (cmd : Nat)
  | qfenceCommand (cmd : Nat)
  | mcastCommand (cmd : Nat)
  | commandComplete (cmd : Nat)
  | barrierEventApply (req : Nat)
  | engineCredit (cmd : Nat)
  | routerMerge (req other : Nat)
  | atomicHomeApply (req : Nat)
  | ticketRequestArrival (req : Nat)
  | retryResend (req : Nat)
  | gapTimerExpiry (win : Nat)
  | preemptionRequest (ctx : Nat)
  | contextSave (ctx : Nat)
  | contextResume (ctx : Nat)
  | doorbell (die : Nat) (rec : List Byte)
  | launchAdmit (launch : Nat)
  | schedulingStep (die : Nat)
  | instanceStart (ctx : Nat)
  | instanceEnd (ctx : Nat)
  | gangResume (gang : Nat)
  | turnChange (die pcore : Nat)
  | powerThrottle (gang cycles : Nat)
  | twinRunEnd (run : Nat)
  | containmentOffer
  | xinvWrite (ctx : Nat) (v : Word)
  | escWrite (ctx : Nat) (v : Word)
  | decodeRegionEnable (die n : Nat) (v : Word)
  | decodeRegionDisable (die n : Nat) (v : Word)
  | decodeFill (die n vec seg : Nat)
  | heddleWrite (die l : Nat) (v : Word)
  | savepoolWrite (die : Nat) (v : Word)
  | hsliceWrite (die : Nat) (v : Word)
  | atpoolWrite (die : Nat) (v : Word)
  | lnkCtlWrite (link : Nat) (v : Word)
  | fabNodeWrite (v : Word)
  | peerEntWrite (v : Word)
  | replCtlWrite (v : Word)
  | registerWrite (ctx : Nat) (crn : BitVec 12) (v : Word)
  | deskewEpoch
  | flitReplay (link : Nat)
  | laneFail (link module : Nat) (up : Bool)
  | retrain (link step : Nat) (t : Training)
  | replayWindowStepDown (link step : Nat)
  | dieReset (die reason : Nat)
  | quiesce (die other : Nat)
  | dieRejoin (r : DieReturn)
  | completionRecord (die : Nat)
  | cmplHeadWrite (die off : Nat) (v : Word)
  | flushReadComplete (die : Nat)
  | ctxOpen (id : Nat) (policy : BitVec 2) (xroot : Word) (kek : List Byte)
  | ctxClose (id : Nat)
  | upload (id : Nat) (g : GraphImage)
  | free (gid : Nat)
  | keyLoad (id slot : Nat) (wrapped : List Byte)
  | keyClear (id slot : Nat)
  | resetDie (die : Nat)
  | retirePage (pa : Nat)
  | fwStage (image : List Byte) (dies : Bool)
  | fwSwitch
  | attest (nonce : List Byte) (dst : Nat)
  | logRead (a b dst : Nat)
  | journalClear (step : Nat)
  | handlerLoad (die : Nat) (image : List Word)
  | packagePowerUp (b : BootOutcome)
  | errorLogAppend
  | timeLogEntry (die : Nat)
  | memoryError (die unit loc : Nat) (corrected : Bool)
  | lauter (cmd : Nat)
  | lauterMaskPoll (cmd : Nat)
  | lauterForward (cmd : Nat)
  | mailboxPlace (req : Nat)
  | kvopRegister (cmd : Nat)
  | kvopOpen (cmd : Nat)
  | kvopSeal (cmd : Nat)
  | kvopFork (cmd : Nat)
  | kvopRelease (cmd : Nat)
  | kvopResolve (cmd : Nat)
  | kvopTrunc (cmd : Nat)
  | kvopTagrd (cmd : Nat)
  | kvopDone (cmd : Nat)
  | kvopRebuild (cmd : Nat)
  | kvFaultReport (die n vec seg : Nat) (cause : Cause)
  | rebuildInject (handle : Nat)
  | coll (cmd : Nat) (ranks : List RankInput)
  | peerRequestApply (node : Nat) (r : PeerRequest)
  | fabricFlushMarker (node : Nat) (m : PeerMarkers)
  | nodeUnreachable (node : Nat)
  | replicaPairArrival (step : BitVec 32) (digest : BitVec 128)
  | llcSliceRetire (die slice : Nat)
  | hostAccessTimeout (req : Nat)
  deriving DecidableEq, Repr

end Sys2Proof
end

