-- ==== Sys2Proof/Machine/State.lean ====
section
/-! DEFINITION. The state of the S2 as plain data, and the machine right after reset. -/

namespace Sys2Proof.Machine

/-- Why the machine would stop. The S2 has no undefined behaviour (R7): every fault of the spec is a trap, a landing fault, a fault
record or a containment offer, and each of these is a next state. So no step of this model stops with a fault. -/
inductive Fault where
  deriving DecidableEq, Repr

/-- Why an instruction has no meaning. -/
inductive Refusal where
  /-- An instruction the model gives no meaning; raised by `exec` alone, and safe: nothing is claimed of it. -/
  | notModelled (mnemonic : String)
  deriving DecidableEq, Repr

/-- The run states of a cluster, in the order of their codes in CSTAT.STATE (R15, R16). -/
inductive RunState where
  | idle | run | qwait | swait | joined | halted | istall
  deriving DecidableEq, Repr

/-- The six address spaces in the order of their codes (R225, R233, R252). -/
inductive Space where
  | lsp | csp | dsp | mem | peer | host
  deriving DecidableEq, Repr

/-- Four like things, one for each cluster in the order C, V, M, X, or one for each half in the order A0, A1, B0, B1. -/
structure Quad (α : Type) where
  q0 : α
  q1 : α
  q2 : α
  q3 : α
  deriving DecidableEq, Repr

/-- A hardware loop counter (R11, R86). -/
structure LoopState where
  count : BitVec 32
  start : Word
  stop : Word
  deriving DecidableEq, Repr

/-- What one cluster holds besides its queues and pending landings (R11). Register files are keyed by file × 8 + entry,
an unlisted entry holding 0. Bit j of `preds` is pj. `lastAccess` is the core-time cycle in which the last LSP or MRF access
issued by the cluster performs (R30). -/
structure ClusterState where
  pc : Word
  run : RunState
  qblk : BitVec 4
  qdir : Bool
  preds : BitVec 8
  lc0 : LoopState
  lc1 : LoopState
  ret : List Word
  files : FMap Word
  lastAccess : Nat
  deriving DecidableEq, Repr

/-- An occupied entry of a queue: reserved while `value` is absent, then visible from cycle `seen` on (R29, R30). -/
structure QEntry where
  id : Nat
  value : Option Word
  seen : Nat
  deriving DecidableEq, Repr

/-- How the bytes of a landing become its value (R226, R228, R318). -/
inductive LandForm where
  | value                             -- the value is given when the landing arrives
  | scalar (size : Nat) (sx : Bool)   -- a loaded scalar of `size` bytes
  | vector                            -- 128 lanes of two bytes
  deriving DecidableEq, Repr

/-- A pending delivery or landing (R24, R37): where it goes, from which core-time cycle on it is pending (the one after its issue), when it becomes
visible, and its value once that has arrived.
`q1`, `q2` name the queue entries it reserved. `elems` are the MRF elements it writes, in order. `cause` is the landing fault it
takes (R34), with the FADDR and FINFO it writes; `uninit` is what UNINIT_ADDR records of it, and `ufaddr` that byte's address (R149). `put` is what it
writes into the scratchpad in the cycle before it (R405). `access` is the cycle in which the writer's last LSP or MRF access
before it performs (R30). `lbuf` says that it holds a landing-buffer entry (R141), `sem` that a refused `sem.sig` is taken at it (R350). -/
structure Landing where
  id : Nat
  cl : Cluster
  since : Nat
  due : Nat
  access : Nat
  d1 : BitVec 6
  d2 : BitVec 6
  v1 : Word
  v2 : Word
  q1 : Nat
  q2 : Nat
  pmask : BitVec 8
  pval : BitVec 8
  operand : Option (BitVec 15)
  elems : List Nat
  vals : List (BitVec 16)
  form : LandForm
  buf : Mem
  missing : Nat
  cause : Cause
  faddr : Word
  finfo : Word
  uninit : Option Word
  ufaddr : Word
  put : Option (Nat × List Byte)
  lbuf : Bool
  acquire : Bool
  peer : Bool
  sem : Bool
  discarded : Bool
  deriving DecidableEq, Repr

/-- What a drain, a fence or a release waits for (R235, R236, R305): the loads and stores of the named spaces issued before
serial number `seq`, at scope `sc`, the commands pushed before number `cmds`, the flush bits when `flush`, the nodes
written to when `nodes` (R447), and when `reads` the buffered stores whose bytes a load took (R308). A release covers in `passes` what acquires of
that scope or wider have learnt of (R309). -/
structure Gate where
  seq : Nat
  loads : List Space
  stores : List Space
  sc : Nat
  cmds : Nat
  flush : Bool
  nodes : Bool
  reads : Bool
  passes : Option Nat
  deriving DecidableEq, Repr

/-- What holds a core besides its own gates: R140 and `drain.t` (R329), `rcmp` (R459), `pflush` (R449), `dgst.rd` (R351). -/
inductive Hold where
  | gate (g : Gate)
  | ticket (seq addr : Nat) (sp : Space)       -- `drain.t` on a window, for the requests before `seq`
  | peerFlush (node : Nat)              -- `pflush`
  | deskew                              -- until the deskew epoch has been captured
  | link (link : Nat)                   -- until a link has retrained
  | transfer (upTo : Nat)               -- `ctxsv` and `ctxld`: until the die time at which the transfer ends
  | write (crn : BitVec 12) (v : Word)  -- a `crw` of XINV, or of DRC that enables or disables: until the operation has ended
  deriving DecidableEq, Repr

/-- An effect of an issued word that the words of its own cycle do not see (R92, R152). -/
inductive Staged where
  | store (off : Nat) (bytes : List Byte)     -- an LSP store performs at the end of its cycle
  | message (seq off : Nat) (bytes : List Byte)   -- a network-port write of `mbx.recv` performs after those of the core port (R153)
  | clear (line n : Nat)                      -- `salloc` clears line valid bits as such a store
  | reg (crn : BitVec 12) (v : Word)          -- a `crw` is seen from the next cycle on
  deriving DecidableEq, Repr

/-- A cause with what it writes: SW and TAG for a raised cause, LND, FADDR and FINFO for a landing (R94, R233). -/
structure TrapInfo where
  cause : Cause
  cl : Cluster
  sw : Bool
  tag : BitVec 8
  lnd : Bool
  faddr : Word
  finfo : Word
  deriving DecidableEq, Repr

/-- What examining the word of a cluster came to (R17, R33, R234). -/
inductive Verdict where
  | none | issued | waiting | trapped | gated
  deriving DecidableEq, Repr

/-- Where a context stands between its start and its end (R35, R102, R167, R171, R337). -/
inductive Status where
  | placed      -- on its core, steps 1 to 7 of its start still to come
  | loaded      -- steps 1 to 7 done; its gang has not finished them
  | live        -- on its core
  | halted      -- halted, its save under way
  | saved       -- in its save area, or resident while another logical core has the turn
  | stopped     -- its handler offered a cause to the task level
  | ending      -- after `exit`: waits for its accesses and commands
  | gone        -- ended; its instance is to be cleared
  | left        -- its instance has ended, and its regions keep their bytes for the rest of its gang
  deriving DecidableEq, Repr

/-- Where a context stands in its current cycle: nothing to do, at the boundary before the cycle, or issuing. -/
inductive Phase where
  | rest | boundary | issue
  deriving DecidableEq, Repr

/-- The context's own state of C and clock while its handler runs (R166). -/
structure Suspended where
  c : ClusterState
  time : Nat
  landings : List Landing
  deriving DecidableEq, Repr

/-- The registers a handler leaves to the next one on its physical core (R166). -/
structure HandlerBank where
  files : FMap Word
  preds : BitVec 8
  lc0 : LoopState
  lc1 : LoopState
  ret : List Word
  deriving DecidableEq, Repr

/-- A row of accumulators: 128 entries (an unlisted one is 0) and its exponent word (R129, R199). -/
structure AccRow where
  entries : FMap Word
  nan : Bool
  val : Bool
  x : Int
  deriving DecidableEq, Repr

/-- A pass in the reduction tree (R199). -/
structure Pass where
  sums : List Int
  xp : Int
  poison : Bool
  acc : Nat
  z : Bool
  deriving DecidableEq, Repr

/-- The matrix array (R199): weight bytes by buffer × 49,152 + column × 384 + byte, scales by buffer × 128 + column,
accumulator rows (an unlisted row is cleared), the tree from stage 1 to 6, CFG, SEED and ACC_SAT. -/
structure MatrixArray where
  weights : Mem
  scales : Mem
  acc : FMap AccRow
  tree : List (Option Pass)
  aw : BitVec 2
  bw : BitVec 2
  sp : BitVec 1
  dens : BitVec 2
  bss : BitVec 2
  seed : Word
  sat : Bool
  deriving DecidableEq, Repr

/-- The MRF: elements by tile × 16,384 + row × 128 + column, and the rows whose valid bit is set, by tile × 128 + row (R142). -/
structure Mrf where
  elems : FMap (BitVec 16)
  valid : NSet
  deriving DecidableEq, Repr

/-- The counters of a context (R91, R161, R331). -/
structure Counters where
  freeze : Word
  late : Word
  uninit : Word
  uninitAddr : Word
  pwin : Word
  retry : Word
  deriving DecidableEq, Repr

/-- Who a context is (R333, R337, R360): its die, logical core, context number, launch, task, instance indices, host context,
gang, depth, privilege, NOPRE, AU, policies, the pool entries it reserves (R346), and its loop indices. -/
structure Identity where
  die : Nat
  lcore : Nat
  num : Nat
  launch : Nat
  task : Nat
  gid : Nat
  host : Nat
  run : Nat
  depth : Nat
  sys : Bool
  nopre : Bool
  au : Bool
  pol : BitVec 8
  lres : Nat
  index : List Nat
  deriving DecidableEq, Repr

/-- A ticket window (R323 to R326): its next ticket, the requests buffered by ticket, the context that opened it with the space and
address value it named, whether it is broken, the die time at which its gap timer last started, and whether it has answered RETRY
since NEXT last advanced. -/
structure Window where
  nextT : BitVec 32
  buffer : FMap Nat
  owner : Nat
  space : Space
  addr : Nat
  broken : Bool
  timer : Nat
  retried : Bool
  deriving DecidableEq, Repr

/-- What each logical core holds (R146, R147, R233, R271, R323, R397, R407): scratchpad bytes by local offset, valid lines and lines that
hold an uncorrectable error by offset / 64, tagged granules by offset / 16, windows by offset / 4, mailboxes of senders and messages, and the fault registers. -/
structure CoreState where
  bytes : Mem
  lines : NSet
  bad : NSet
  tags : NSet
  windows : FMap Window
  mail : FMap (List (Word × List Byte))
  faddr : Word
  finfo : Word
  deriving DecidableEq, Repr

/-- A record of a save area (R169): its offset, kind, cluster, delivery code and position or operand, whether its data has arrived, its
cause and value, and the bytes of its slot when it takes one. `land` is the landing that it is a record of, `hold` the gate or hold. -/
structure Saved where
  d : Nat
  kind : Nat
  cl : Nat
  code : Nat
  pos : Nat
  arr : Bool
  cause : Nat
  value : Word
  data : Option (List Byte)
  land : Option Nat
  hold : Option Hold
  deriving DecidableEq, Repr

/-- What a deferred fault is of: a store, atomic or event; a ticketed request or skip (R329); a flush that was cut off (R304). -/
inductive Deferral where
  | store | window | flush
  deriving DecidableEq, Repr

/-- A fault that is still to be taken (R232): the serial number of the store, what it is of, and what it writes. -/
structure Deferred where
  seq : Nat
  kind : Deferral
  info : TrapInfo
  deriving DecidableEq, Repr

/-- A flush under way (R303, R447): whether its markers have been sent, the serial number at which they were, that of the oldest store it
covers, the destinations whose completion has not returned, and the paths between dies on which markers go. -/
structure Flush where
  sent : Bool
  seq : Nat
  first : Nat
  wait : List Nat
  paths : List Nat
  deriving DecidableEq, Repr

/-- A translation that a core caches (R159): the root it was walked from, the physical page of a 4 KiB piece of the address space, W, and the
key slot of the leaf. -/
structure Leaf where
  root : Word
  page : Nat
  w : Bool
  slot : Nat
  deriving DecidableEq, Repr

/-- A context: everything that is saved with it, and what its core holds for it (R11, R161, R166, R337). `semFault` is a refused
`sem.sig` still to be taken (R350); `moves` says that its regions go to another physical core (R339, R363); `records` are the
records in the save area of a saved context, with their slots; `flushBits` and `peerNodes` hold by path (R303) and by node (R447) the serial number of the
oldest write since the last flush there; `took` are the buffered stores whose bytes its reads took, `heard` those that stood in its cluster's buffer
at one of its reads, and `learnt` those that did at an acquire, each with scope × 2 of the widest such acquire, plus one for an atomic (R308, R309); `fenced` says that a fence at die scope or wider has gone before (R299); `tlb` is its core's translation cache, by
4 KiB page (R159); `away` says that its regions have left their place on the core, which another context uses (R171). -/
structure Ctx where
  who : Identity
  status : Status
  phase : Phase
  -- clusters, queues and landings
  cls : Quad ClusterState
  epc : Quad Word
  entry : Quad Word
  code : Quad (FMap Word)
  forkset : BitVec 3
  queues : FMap (List QEntry)
  freed : List Nat
  landings : List Landing
  time : Nat
  susp : Option Suspended
  deadlock : Nat
  -- this cycle
  verdict : Verdict
  bundle : Bool
  issuedCls : List Cluster
  issuedPcs : Quad Word
  xPort : List Nat
  claims : Nat
  staged : List Staged
  traps : List TrapInfo
  async : List TrapInfo
  ends : Bool
  yields : Bool
  -- control registers
  coreCtl : Word
  cause : Word
  ctr : Counters
  ctxArea : Word
  traceBase : Word
  traced : Nat
  xroot : Word
  rgn : Quad Word
  -- files and array
  mrf : Mrf
  array : MatrixArray
  -- memory traffic
  holds : List Hold
  cmdHolds : List Gate
  flushBits : FMap Nat
  flushing : Option Flush
  took : NSet
  heard : NSet
  learnt : FMap Nat
  fenced : Bool
  tlb : FMap Leaf
  deferred : List Deferred
  peerNodes : FMap Nat
  pushes : Nat
  launches : Nat
  digest : BitVec 128
  saveSlot : Option Nat
  semFault : Option TrapInfo
  moves : Bool
  records : List (Saved × Option Nat)
  away : Bool
  deriving DecidableEq, Repr

/-- What an access or event does at its home. -/
inductive Action where
  | load (n : Nat)                                                        -- R226
  | store (bytes : List Byte)                                             -- R227
  | line (bytes : List Byte)                                              -- a line of `mcast` (R285)
  | amo (aop : Nat) (data : Word) (w8 : Bool)                             -- R318
  | cas (old new : Word) (w8 : Bool)                                      -- R319
  | ticket (aop : Nat) (bf16 : Bool) (t : BitVec 32) (v : BitVec 32)      -- R322
  | winOpen (first : BitVec 32) (close : Bool)                            -- R327
  | winSkip (t : BitVec 32)                                               -- R328
  | barInit (expa : Nat) (ph free : Bool)                                 -- R276
  | barArr (n : Nat)                                                      -- R277
  | barExp (b : Nat)                                                      -- R278
  | barCred (c : Nat)                                                     -- R278
  | barWait (p : Bool)                                                    -- R279
  | barTest                                                               -- R280
  | barBrk                                                                -- R281
  | mcCredit (bytes : Nat) (arrive : Bool)                                -- credits and arrival of `mcast` (R285)
  | mail (box : Nat) (msg : List Byte)                                    -- R408
  deriving DecidableEq, Repr

/-- How far a packet has come: on its way, in the cluster egress buffer (R299), parked at its home, answered, or answered with
RETRY (R326). -/
inductive Stage where
  | sent | egress | parked | answered | retry
  deriving DecidableEq, Repr

/-- An access or event under way (R296, R299, R302). Its key is its serial number, so keys rise in issue order. `addr` is the
address value of R55. `land` is the landing it answers, `chunk` the place of its bytes there. `merged` are the requests it
carries besides its own, in the order they are to be applied (R320). `faddr` is the lowest byte that met a fault or an invalid line,
`sseq` the sequence number of a request to another package (R446). `served` says that the egress buffer may serve it, `took` are the
buffered stores its bytes came from. -/
structure Packet where
  ctx : Nat
  lcore : Nat
  die : Nat
  cl : Cluster
  space : Space
  addr : Nat
  act : Action
  ord : Nat
  sc : Nat
  land : Option Nat
  chunk : Nat
  stage : Stage
  twoHop : Bool
  data : List Byte
  cause : Cause
  uninit : Option Word
  faddr : Nat
  sseq : BitVec 32
  merged : List Nat
  served : Bool
  took : List Nat
  after : List Nat
  sentAt : Nat
  deriving DecidableEq, Repr

/-- The units that run engine commands (R54, R67). -/
inductive EngineUnit where
  | mover | coll | lauter | kv
  deriving DecidableEq, Repr

/-- One element of a mover command: where its bytes come from, or the bytes themselves, and where they go (R253 to R255, R286). -/
structure Elem where
  src : Option (Space × Nat)
  bytes : List Byte
  len : Nat
  dst : List (Space × Nat)
  deriving DecidableEq, Repr

/-- An element under way (R249): the source blocks still to be read, by place in the element and length, the bytes read, whether its
destinations have been examined, and the destination blocks still to be written, by destination, place and length. -/
structure Work where
  elem : Elem
  toRead : List (Nat × Nat)
  buf : Mem
  toWrite : List (Nat × Nat × Nat)
  writing : Bool
  deriving DecidableEq, Repr

/-- An engine command in a queue (R65, R246): the context that pushed it, its unit, die and queue, its four words and its shape
record, OFF24 of its word, its key (T, s), the die time from which it is visible, the fences it stands behind, whether it
runs, whether it has done its work, the bytes and arrivals still to credit, and a word of its unit's own progress: of a mover command the
number of its next element, with that element under way. -/
structure Cmd where
  ctx : Nat
  unit : EngineUnit
  die : Nat
  lcore : Nat
  q : Nat
  words : Quad Word
  shape : Quad Word
  off : BitVec 24
  t : Nat
  pushed : Nat
  visible : Nat
  behind : List Gate
  running : Bool
  finished : Bool
  credits : List (Nat × Nat × Bool)
  note : Nat
  notes : List Word
  work : Option Work
  deriving DecidableEq, Repr

/-- A queued `sem.wait`: the context, the landing that takes the status, and the count it needs (R350). -/
structure SemWait where
  ctx : Nat
  land : Nat
  n : Nat
  deriving DecidableEq, Repr

/-- A counted semaphore (R350). -/
structure Sem where
  count : BitVec 32
  broken : Bool
  waits : List SemWait
  deriving DecidableEq, Repr

/-- The registers of one decode region (R117): DRV, DRS, DRK, DRC. -/
structure DecodeRegion where
  drv : Word
  drs : Word
  drk : Word
  drc : Word
  deriving DecidableEq, Repr

/-- A completion record under way to the host (R383). -/
structure Completion where
  hseq : BitVec 32
  gid : BitVec 16
  status : BitVec 8
  cause : Cause
  task : BitVec 16
  time : Nat
  extra : Word
  deriving DecidableEq, Repr

/-- A window of BAR0: counters, completion ring and the records not yet written or not yet performed (R381 to R384). -/
structure HostWindow where
  seqSeen : BitVec 32
  seqDone : BitVec 32
  cmplBase : Word
  cmplLog2 : BitVec 4
  cmplHead : BitVec 32
  dseq : BitVec 32
  held : List Completion
  posted : Nat
  deriving DecidableEq, Repr

/-- A doorbell parsed and not yet admitted (R341, R342), with its place in the order of all doorbells. -/
structure Pending where
  hseq : BitVec 32
  gid : Nat
  pb : Mem
  order : Nat
  deriving DecidableEq, Repr

/-- A graph in scheduler memory (R332, R385, R429): the host context it belongs to, its record, and DEPTH_TAB at its upload. -/
structure Graph where
  host : Nat
  image : GraphImage
  depthTab : Word
  deriving DecidableEq, Repr

/-- The life of a task of a launch, or of a device-side child (R342, R346). -/
inductive RunPhase where
  | blocked | ready | done | failed | cancelled
  deriving DecidableEq, Repr

/-- One run of a task's index space (R336, R346, R353): its launch and task, the parent context and handle of a child, its
argument and depth, when its die found it ready, its base core once chosen, the instances started, those ended with their digests,
its twin run with the digest of run 0, the retries of the task and, by step, of its gangs, the cause that ended it, whether its
parent has reaped it, and the page a rebuild works for. -/
structure Run where
  launch : Nat
  task : Nat
  die : Nat
  parent : Option Nat
  handle : Nat
  arg : Word
  depth : Nat
  phase : RunPhase
  readyAt : Nat
  lbase : Option Nat
  started : List (List Nat)
  ended : List (List Nat × BitVec 128)
  twin : Nat
  digest0 : BitVec 128
  retries : Nat
  restarts : List (List Nat)
  cause : Cause
  reaped : Bool
  injected : Option Nat
  deriving DecidableEq, Repr

/-- A gang placed on its cores (R336, R344, R358): its runs, its contexts, its base priority, when it started and whether it
is saved. -/
structure Gang where
  launch : Nat
  runs : List Nat
  ctxs : List Nat
  prio : Nat
  startedAt : Nat
  saved : Bool
  readyAt : Nat
  throttle : Nat
  deriving DecidableEq, Repr

/-- A graph launch (R341, R342): the die of its doorbell, its host context, graph, sequence number, parameter block, runs,
retries, and the status and cause it ends with. -/
structure Launch where
  die : Nat
  host : Nat
  gid : Nat
  hseq : BitVec 32
  order : Nat
  pb : Mem
  runs : List Nat
  retries : Nat
  finished : Bool
  status : BitVec 8
  cause : Cause
  task : BitVec 16
  deriving DecidableEq, Repr

/-- A pending `wchild` (R349): its context, its landing, and the runs of the children it names. -/
structure ChildWait where
  ctx : Nat
  land : Nat
  kids : List Nat
  deriving DecidableEq, Repr

/-- A heddle table entry (R339). -/
structure Heddle where
  pcore : BitVec 7
  cfgerr : Bool
  deriving DecidableEq, Repr

/-- What a die holds besides its cores, with its running firmware (R396). `aborted` are the doorbells whose launches a reset has ended, by HSEQ and GID (R380); `fenced` are
the resetting dies it has fenced off (R379). `used` are the context numbers assigned since its reset (R337); `reserved` are the cores that a head of effective
priority `reservedFor` holds back (R344). -/
structure Die where
  time : Nat
  graphs : FMap Graph
  pendings : List Pending
  sems : FMap Sem
  heddle : FMap Heddle
  hslice : BitVec 32
  savepool : Word
  areas : FMap Nat
  atpool : Word
  regions : FMap DecodeRegion
  segments : FMap (List Byte)
  win : HostWindow
  handler : FMap Word
  handlerImage : List Word
  banks : FMap HandlerBank
  used : NSet
  memWindows : FMap Window
  lastGid : FMap Nat
  turns : FMap Nat
  turnStart : FMap Nat
  resetting : Bool
  aborted : List (BitVec 32 × Nat)
  fenced : NSet
  reserved : List Nat
  reservedFor : Nat
  slices : NSet
  logged : Nat
  firmware : List Byte
  deriving DecidableEq, Repr

/-- One direction of a module of a link (R373, R376): 0 full, 1 narrow, 2 retired; spares left; lanes retired since boot. -/
structure LaneState where
  state : Nat
  spares : Nat
  retired : Nat
  deriving DecidableEq, Repr

/-- A retrain that has been asked for (R374): its step, none for the one at which the link then runs, whether it is a step-down, and whether it
may raise the rate, as that of `lnk.rate` alone does (R371). -/
structure Retrain where
  step : Option Nat
  down : Bool
  rises : Bool
  deriving DecidableEq, Repr

/-- A link (R370 to R376): rate step, LNK_CTL, DOWN, the retrains asked for and not yet ended, whose first has moved the lines of the link
away, TRAIN, lane states by module, replays, the replays of the current window with the die time of DD at which it started, and the serial
number at which lines last moved away from it or back (R302). -/
structure Link where
  rate : Nat
  cap : BitVec 3
  capb : BitVec 3
  owner : BitVec 24
  rlim : BitVec 8
  cfgerr : Bool
  down : Bool
  want : List Retrain
  train : Bool
  up : FMap LaneState
  dn : FMap LaneState
  replay : Word
  window : Nat
  windowStart : Nat
  movedAt : Nat
  deriving DecidableEq, Repr

/-- A host context (R385). -/
structure HostCtx where
  policy : BitVec 2
  xroot : Word
  kek : List Byte
  deriving DecidableEq, Repr

/-- A loaded memory key slot: its owner, 0 for the system, and its key (R392). -/
structure KeySlot where
  owner : Nat
  key : List Byte
  deriving DecidableEq, Repr

/-- A report on its way to the error log (R393, R394). -/
structure Report where
  time : Nat
  cause : Cause
  die : Nat
  kind : Nat
  loc : BitVec 32
  deriving DecidableEq, Repr

/-- A cause on offer above the core level: the context, the level it starts at, and what is known of it (R356, R357). -/
structure Offer where
  ctx : Nat
  run : Nat
  launch : Nat
  cause : Cause
  sw : Bool
  notice : Bool
  deriving DecidableEq, Repr

/-- The outcome of a journal step (R386). -/
inductive Journal where
  | none | started | done | failed
  deriving DecidableEq, Repr

/-- The two slots of flash for one kind of firmware (R387, R396): their images, whether the second is in use, and whether the other one
holds an image that has been staged. -/
structure FwSlots where
  a : List Byte
  b : List Byte
  useB : Bool
  staged : Bool
  deriving DecidableEq, Repr

/-- How far the last boot has come, as the admin window shows it (R386, R387). -/
inductive BootStatus where
  | up | noFirmware | noIdentity | off
  deriving DecidableEq, Repr

/-- The identity record (R390): the public keys of the package for RSA and SLH-DSA signatures and for encryption, and the signed record. -/
structure IdentityRecord where
  rsa : List Byte
  slh : List Byte
  enc : List Byte
  signed : List Byte
  deriving DecidableEq, Repr

/-- What flash keeps of the alternative forms of boot steps 3, 4 and 6 (R387): by die × 128 + physical core the core that stands in for one that
failed, the slow HBM stacks (die × 8 + stack), which train at 8.0 Gb/s, and the links whose overdrive training is skipped. -/
structure Fallback where
  cores : FMap Nat
  slow : NSet
  links : NSet
  deriving DecidableEq, Repr

/-- The firmware of the MP and of the dies, the signed records, and the outcome of the boot (R387, R389, R390, R396). -/
structure Firmware where
  mp : FwSlots
  dies : FwSlots
  minimum : Nat
  status : BootStatus
  identity : IdentityRecord
  config : List Byte
  calibration : List Byte
  fallback : Fallback
  deriving DecidableEq, Repr

/-- A record of a sequence slot (R398, R399). -/
structure SeqSlot where
  horizon : Word
  seqt : Word
  deriving DecidableEq, Repr

/-- The states of a directory entry that is not FREE (R434). -/
inductive KvPhase where
  | tail | shared | priv | quar | rebuild
  deriving DecidableEq, Repr

/-- An entry of the KV page directory that is not FREE (R430): its storage as PA and NPG in one word, its tag slots, the cause of its
last fault, while an injection of its rebuild task is still to succeed the die time of the next try (R437), and while its TYPE 1 record waits at a
network port the status of that (R434). -/
structure KvEntry where
  phase : KvPhase
  storage : Word
  parent : Nat
  pos0 : BitVec 32
  len : Nat
  ref : Nat
  ownseq : Nat
  prior : KvPhase
  tag : FMap (BitVec 32)
  cause : Cause
  injectAt : Option Nat
  owed : Option Cause
  deriving DecidableEq, Repr

/-- What REGISTER sets for a die (R432, R433): the ring, the rebuild task, the semaphore, who registered, and the records since. -/
structure KvRing where
  addr : Nat
  log2 : Nat
  task : Nat
  sem : Nat
  semv : Bool
  launch : Nat
  ctx : Nat
  run : Nat
  depth : Nat
  rseq : Nat
  deriving DecidableEq, Repr

/-- A report that the fill path of a KV region is to make: die, region, segment and cause (R125, R431). -/
structure KvReport where
  die : Nat
  region : Nat
  seg : Nat
  cause : Cause
  deriving DecidableEq, Repr

/-- An answer to a request of another package (R443, R446): its cause, or the bytes of a load, and this package's RX for the node. -/
structure PeerReply where
  node : Nat
  sseq : BitVec 32
  cause : Cause
  data : List Byte
  rx : BitVec 32
  deriving DecidableEq, Repr

/-- What the package holds for the fabric (R442 to R460): besides the registers and sequence counters, by node the SSEQ of the requests applied
ahead of RX, the nodes that hold requests whose fate is unknown here, and the requests held behind an earlier one to their line by their SSEQ; the answers that the latest arrival from another
package brought about, oldest first; the step digest, the pair that has come from the partner, the `rcmp` that waits (its context,
landing, step and digest), and whether the outputs of the replicated graph are refused. -/
structure Fabric where
  node : Word
  peerSel : Word
  ents : FMap Word
  tx : FMap (BitVec 32)
  rx : FMap (BitVec 32)
  ack : FMap (BitVec 32)
  early : FMap NSet
  lost : NSet
  held : FMap (FMap PeerRequest)
  replies : List PeerReply
  replCtl : Word
  digest : BitVec 128
  pair : Option (BitVec 32 × BitVec 128)
  waiting : Option (Nat × Nat × BitVec 32 × BitVec 128)
  refusing : Bool
  deriving DecidableEq, Repr

/-- One entry of the order in which asynchronous steps come about (R10, log 2): an event, or the next die-time cycle. -/
inductive Agenda where
  | event (i : Instr)
  | cycle
  deriving DecidableEq, Repr

/-- The machine. Contexts are keyed by die × 2^24 + context number, cores by die × 128 + logical core, displaced regions by 2^28 + their context's key, HBM bytes by PA, with the
key slot under which each 64-byte line was last written, 0 unlisted (R158), and in `dirty` the lines that the LLC may hold newer than HBM (R380), host memory by I/O virtual address, the memory of other packages by PEER address value. `calib` is the ZONE_LAT of the signed
calibration record (R368). `agenda`, `slots`, `focus` and `serial` are the model's own. -/
structure State where
  agenda : List Agenda
  slots : List (Nat × Cluster)
  focus : Nat × Cluster
  serial : Nat
  ctxs : FMap Ctx
  cores : FMap CoreState
  dies : FMap Die
  net : FMap Packet
  cmds : FMap Cmd
  hbm : Mem
  sealed : FMap Nat
  dirty : NSet
  hostMem : Mem
  peerMem : Mem
  poison : NSet
  retired : NSet
  errors : FMap (Nat × Nat)
  runs : FMap Run
  gangs : FMap Gang
  launches : FMap Launch
  childWaits : List ChildWait
  offers : List Offer
  reports : List Report
  links : FMap Link
  zone : FMap (BitVec 16)
  zoneCopy : FMap (BitVec 16)
  calib : FMap (BitVec 16)
  resetSince : Bool
  deskewing : List (Nat × Nat)
  hostCtxs : FMap HostCtx
  keys : FMap KeySlot
  log : List (List Byte)
  logFull : Bool
  logLost : Nat
  journal : FMap Journal
  fw : Firmware
  admin : HostWindow
  adminSeq : BitVec 32
  boots : Nat
  seqs : FMap SeqSlot
  pq : List (List Byte)
  depthTab : Word
  qzero : Word
  kvGeom : Word
  kv : FMap KvEntry
  rings : FMap KvRing
  kvReports : List KvReport
  fab : Fabric
  deriving DecidableEq, Repr

/-- A loop counter that does not run. -/
def LoopState.zero : LoopState := ⟨0, 0, 0⟩

/-- A cluster at the start of an instance, C being released (R337). -/
def ClusterState.start (r : RunState) (pc : Word) : ClusterState :=
  ⟨pc, r, 0, false, 0, .zero, .zero, [], .empty, 0⟩

/-- Four equal things. -/
def Quad.all {α : Type} (a : α) : Quad α := ⟨a, a, a, a⟩

/-- The array as R200 resets it. -/
def MatrixArray.reset : MatrixArray :=
  ⟨.empty, .empty, .empty, [none, none, none, none, none, none], 0, 0, 0, 0, 0, 0, false⟩

/-- A cleared accumulator row: every entry and the whole exponent word 0 (R129). -/
def AccRow.cleared : AccRow := ⟨.empty, false, false, 0⟩

/-- A context at the start of an instance, but for what its descriptor and launch give it (R337). -/
def Ctx.start (who : Identity) (entry : Quad Word) (code : Quad (FMap Word)) : Ctx where
  who := who
  status := .placed
  phase := .rest
  cls := ⟨.start .run entry.q0, .start .idle 0, .start .idle 0, .start .idle 0⟩
  epc := .all 0
  entry := entry
  code := code
  forkset := 0
  queues := .empty
  freed := []
  landings := []
  time := 0
  susp := none
  deadlock := 0
  verdict := .none
  bundle := false
  issuedCls := []
  issuedPcs := .all 0
  xPort := []
  claims := 0
  staged := []
  traps := []
  async := []
  ends := false
  yields := false
  coreCtl := 0
  cause := 0
  ctr := ⟨0, 0, 0, 0, 0, 0⟩
  ctxArea := 0
  traceBase := 0
  traced := 0
  xroot := 0
  rgn := .all 0
  mrf := ⟨.empty, .empty⟩
  array := .reset
  holds := []
  cmdHolds := []
  flushBits := .empty
  flushing := none
  took := .empty
  heard := .empty
  learnt := .empty
  fenced := false
  tlb := .empty
  deferred := []
  peerNodes := .empty
  pushes := 0
  launches := 0
  digest := 0
  saveSlot := none
  semFault := none
  moves := false
  records := []
  away := false

/-- A logical core whose scratchpad nothing has written (log 4). -/
def CoreState.blank : CoreState := ⟨.empty, .empty, .empty, .empty, .empty, .empty, 0, 0⟩

/-- The window of a die or of the MP after a package power-up (R382, log 4). -/
def HostWindow.reset : HostWindow := ⟨0, 0, 0, 0, 0, 0, [], 0⟩

/-- ATPOOL at its reset value (R331). -/
def atpoolReset : Word := 0x4010A0408020

/-- A die after its reset: every field the value its rule gives, or the one log 4 names. -/
def Die.reset : Die where
  time := 0
  graphs := .empty
  pendings := []
  sems := .empty
  heddle := .empty
  hslice := 96000
  savepool := 0
  areas := .empty
  atpool := atpoolReset
  regions := .empty
  segments := .empty
  win := .reset
  handler := .empty
  handlerImage := []
  banks := .empty
  used := .empty
  memWindows := .empty
  lastGid := .empty
  turns := .empty
  turnStart := .empty
  resetting := false
  aborted := []
  fenced := .empty
  reserved := []
  reservedFor := 0
  slices := .empty
  logged := 0
  firmware := []

/-- A link at boot: rate step 0, every module full (R371, R373, R375, log 6). -/
def Link.reset : Link := ⟨0, 4, 4, 0, 64, false, false, [], false, .empty, .empty, 0, 0, 0, 0⟩

/-- The firmware of a package whose boot has ended (R386, R387, log 8). -/
def Firmware.reset : Firmware :=
  ⟨⟨[], [], false, false⟩, ⟨[], [], false, false⟩, 0, .up, ⟨[], [], [], []⟩, [], [], ⟨.empty, .empty, .empty⟩⟩

/-- The journal of a boot whose nine steps all ended DONE (R386, log 6). -/
def journalDone : FMap Journal :=
  ⟨[(1, .done), (2, .done), (3, .done), (4, .done), (5, .done), (6, .done), (7, .done), (8, .done), (9, .done)]⟩

/-- The fabric registers at reset (R442, R446, R456, log 4). -/
def Fabric.reset : Fabric := ⟨0, 0, .empty, .empty, .empty, .empty, .empty, .empty, .empty, [], 0, 0, none, none, false⟩

/-- The machine right after a package power-up: no graph, no launch, no context. -/
def State.reset : State where
  agenda := []
  slots := []
  focus := (0, .c)
  serial := 0
  ctxs := .empty
  cores := .empty
  dies := ⟨[(0, .reset), (1, .reset), (2, .reset)]⟩
  net := .empty
  cmds := .empty
  hbm := .empty
  sealed := .empty
  dirty := .empty
  hostMem := .empty
  peerMem := .empty
  poison := .empty
  retired := .empty
  errors := .empty
  runs := .empty
  gangs := .empty
  launches := .empty
  childWaits := []
  offers := []
  reports := []
  links := ⟨[(0, .reset), (1, .reset), (2, .reset)]⟩
  zone := .empty
  zoneCopy := .empty
  calib := .empty
  resetSince := false
  deskewing := []
  hostCtxs := .empty
  keys := ⟨[(0, ⟨0, Config.bootKey 0⟩)]⟩
  log := []
  logFull := false
  logLost := 0
  journal := journalDone
  fw := .reset
  admin := .reset
  adminSeq := 0
  boots := 0
  seqs := .empty
  pq := []
  depthTab := 0xFEDCBA9876543210
  qzero := 0
  kvGeom := 0
  kv := .empty
  rings := .empty
  kvReports := []
  fab := .reset

end Sys2Proof.Machine
end

