-- ==== Sys2Proof/WellFormed.lean ====
section
/-! DEFINITION. Which decoded words are legal in which cluster: the encoding checks of R64. -/

namespace Sys2Proof

namespace Legal

/-- The number of inbound queues of a cluster (R43). -/
def inbound : Cluster → Nat
  | .x => 1
  | _ => 3

/-- The number of outbound queues of a cluster (R44). -/
def outbound : Cluster → Nat
  | .c => 3
  | .x => 3
  | _ => 2

/-- A source code names an entry or an inbound queue of the cluster (R43). -/
def src (cl : Cluster) (s : BitVec 4) : Bool := s.toNat < 8 || s.toNat - 8 < inbound cl

/-- Two source codes are legal and do not pop one queue (R20, R64). -/
def src2 (cl : Cluster) (a b : BitVec 4) : Bool := src cl a && src cl b && !(8 ≤ a.toNat && a == b)

/-- A delivery code names a file, a predicate or an outbound queue of the cluster, or nothing (R44). -/
def dst (cl : Cluster) (d : BitVec 6) : Bool :=
  d == 63 || d.toNat / 8 < 2 || d.toNat / 8 == 6 || (d.toNat / 8 < 6 && cl == .c) ||
    (d.toNat / 8 == 7 && d.toNat % 8 < outbound cl)

/-- Two legal delivery codes. -/
def dst2 (cl : Cluster) (a b : BitVec 6) : Bool := dst cl a && dst cl b

/-- The tile of an MRF operand code (R45). -/
def tile (f : BitVec 15) : Nat := f.toNat / 512

/-- An MRF field that names a tile, an even one for a 32-bit element (R45). -/
def tileField (w32 : Bool) (f : BitVec 15) : Bool := tile f < 48 && (!w32 || tile f % 2 == 0)

/-- A broadcast code with direction and index zero (R45). -/
def bcast (f : BitVec 15) : Bool := 48 ≤ tile f && tile f < 56 && f.toNat % 512 == 0

/-- A field that is read and may be a broadcast where `b` says so (R45, R174). -/
def readField (w32 b : Bool) (f : BitVec 15) : Bool := tileField w32 f || (b && bcast f)

/-- The condition codes of R49. -/
def cond (n : Nat) : Bool := n ≤ 10

/-- The CRNs that some die assigns (R91, R117, R161, R233, R331, R339, R360, R368, R375, R381, R428, R442). -/
def crn (c : BitVec 12) : Bool :=
  let n := c.toNat
  n ≤ 0x006 || (0x008 ≤ n && n ≤ 0x00D) || (0x010 ≤ n && n ≤ 0x013) || (0x040 ≤ n && n ≤ 0x04C) ||
    (0x050 ≤ n && n ≤ 0x051) || (0x060 ≤ n && n ≤ 0x061) || (0x070 ≤ n && n ≤ 0x074) || (0x080 ≤ n && n ≤ 0x082) ||
    (0x084 ≤ n && n ≤ 0x086) || (0x088 ≤ n && n ≤ 0x089) || (0x090 ≤ n && n ≤ 0x092) || n == 0x094 || n == 0x0A0 ||
    (0x0A2 ≤ n && n ≤ 0x0A4) || (0x100 ≤ n && n ≤ 0x13F) || (0x200 ≤ n && n ≤ 0x24F)

/-- The 13 formats of the vector conversions (R115). -/
def cvtFmt (f : BitVec 5) : Bool := (4 ≤ f.toNat && f.toNat ≤ 13) || (19 ≤ f.toNat && f.toNat ≤ 21)

/-- A conversion side of 32 bits (R115). -/
def cvt32 (f : BitVec 5) : Bool := f == 7 || f == 21

/-- The element width is 32 bits: type code 0 of the F, I and Width classes (R173). -/
def w32 (ty : BitVec 2) : Bool := ty == 0

/-- A legal type code of the F and I classes (R51). -/
def tyFI (ty : BitVec 2) : Bool := ty != 3

/-- A legal type code of the Width class (R173). -/
def tyW (ty : BitVec 2) : Bool := ty == 0 || ty == 1

/-- A rounding mode (R51). -/
def rmAny (rm : BitVec 3) : Bool := rm.toNat ≤ 3

/-- The three-operand lane forms with a written VD and read VA and VB (R174, R176). -/
def v3ab (f : FmtV3) : Bool :=
  tileField (w32 f.ty) f.vd && readField (w32 f.ty) false f.va && readField (w32 f.ty) true f.vb

/-- The lane forms with a written VD and a read VA (R174, R176). -/
def v3a (f : FmtV3) : Bool := tileField (w32 f.ty) f.vd && readField (w32 f.ty) true f.va && f.vb == 0

/-- The groups of vpack and vunpack (R192). -/
def packGroup (ty sub : BitVec 2) : Bool :=
  match ty.toNat with
  | 0 => true
  | 1 => sub.toNat ≤ 1
  | 2 => sub.toNat ≤ 1
  | _ => sub == 0

/-- A reduction of lanes to a scalar (R173, R176, R198). -/
def reduce (f : FmtVR) (rm : Bool) : Bool :=
  dst2 .v f.d1 f.d2 && f.sa == 0 && tyFI f.ty && f.sub.toNat ≤ 1 && readField (w32 f.ty) true f.va &&
    (if rm && f.sub == 0 then rmAny f.rm else f.rm == 0)

/-- The drain operand of a matrix word (R53, R209). -/
def drain (dt : BitVec 15) (df : BitVec 2) : Bool :=
  match df.toNat with
  | 0 => tileField true dt
  | 1 => tileField false dt
  | 2 => tile dt % 4 == 0 && tile dt ≤ 40
  | _ => false

/-- Order and scope: a scope needs an order, and scopes are 0 to 4 (R56). -/
def ordSc (ord : BitVec 2) (sc : BitVec 3) : Bool := sc.toNat ≤ 4 && !(sc != 0 && ord == 0)

/-- A load word outside LSP (R56). -/
def load (f : FmtLD) : Bool :=
  dst2 .x f.d1 f.d2 && src2 .x f.sa f.sb && !(f.sx == 1 && f.sz == 3) && (f.ord == 0 || f.ord == 1) && ordSc f.ord f.sc

/-- A store word outside LSP (R56). -/
def store (f : FmtST) : Bool := src2 .x f.sa f.sb && (f.ord == 0 || f.ord == 2) && ordSc f.ord f.sc

/-- A vector load outside LSP (R56, R228). -/
def loadV (f : FmtLDV) : Bool :=
  tileField false f.vd && src2 .x f.sa f.sb && (f.ord == 0 || f.ord == 1) && ordSc f.ord f.sc

/-- A vector store outside LSP (R56, R228). -/
def storeV (f : FmtSTV) : Bool := tileField false f.vs && src .x f.sa && (f.ord == 0 || f.ord == 2) && ordSc f.ord f.sc

/-- The patch fields of cpy and ecmd (R54). -/
def patch (p1 p2 : BitVec 1) (w1 w2 : BitVec 2) (sa sb : BitVec 4) : Bool :=
  src2 .x sa sb && (p1 == 1 || (w1 == 0 && sa == 0)) && (p2 == 1 || (w2 == 0 && sb == 0)) &&
    !(p1 == 1 && p2 == 1 && w1 == w2)

/-- The parts of an atomic word that its operation does not decide (R54, R315). -/
def atomic (f : FmtAM) : Bool :=
  dst2 .x f.d1 f.d2 && f.sp != 3 && f.sa.toNat < 8 && f.sb.toNat < 8 && ordSc f.ord f.sc

/-- An atomic that returns nothing (R47, R315). -/
def reduction (f : FmtAM) : Bool := f.d1 == 63 && f.d2 == 63 && f.land == 0 && (f.ord == 0 || f.ord == 2)

/-- A C word of format RR with one source (R46, R347, R376, R405). -/
def oneSrcC (f : FmtRR) : Bool := dst2 .c f.d1 f.d2 && src .c f.sa && f.sb == 0

end Legal

open Legal

/-- A slot word is legal in a cluster: none of the points of R64 holds. A further step of the opcode table is no word. -/
def wellFormed (cl : Cluster) : Instr → Bool
  -- the common set
  | .nop _ | .ret _ | .halt _ => true
  | .join h => !h.sync
  | .add _ f | .sub _ f | .andW _ f | .orW _ f | .xorW _ f | .andn _ f | .shl _ f | .shr _ f | .sra _ f | .rot _ f =>
    dst2 cl f.d1 f.d2 && src2 cl f.sa f.sb && f.fn == 0
  | .cmp _ f => dst2 cl f.d1 f.d2 && src2 cl f.sa f.sb && cond f.fn.toNat
  | .sel _ f => dst2 cl f.d1 f.d2 && src2 cl f.sa f.sb && f.fn.toNat < 8
  | .mov _ f | .clz _ f | .popc _ f => dst2 cl f.d1 f.d2 && src cl f.sa
  | .addi _ f | .andi _ f | .ori _ f | .xori _ f | .lih _ f => dst2 cl f.d1 f.d2 && src cl f.sa && f.fn == 0
  | .shli _ f | .shri _ f | .srai _ f | .roti _ f =>
    dst2 cl f.d1 f.d2 && src cl f.sa && f.fn == 0 && f.imm.toNat < 64
  | .cmpi _ f => dst2 cl f.d1 f.d2 && src cl f.sa && cond f.fn.toNat
  | .ext _ f =>
    dst2 cl f.d1 f.d2 && src cl f.sa && f.fn.toNat ≤ 1 && f.imm.toNat / 64 % 4 == 0 && f.imm.toNat < 2 ^ 14
  | .li _ f => dst2 cl f.d1 f.d2
  | .pand _ _ | .por _ _ | .pxor _ _ => true
  | .prd _ f => dst2 cl f.d1 f.d2
  | .pwr _ f => src cl f.sa
  | .br _ f => f.d1 == 0
  | .jal _ f => dst cl f.d1
  | .jr _ f => src2 cl f.sa f.sb
  | .loop _ f => src cl f.sa && f.cnt == 0
  | .loopi _ f => f.sa == 0
  | .lend _ f => f.sa == 0 && f.cnt == 0
  | .qcnt _ f =>
    dst2 cl f.d1 f.d2 && (if f.qs.toNat < 8 then decide (f.qs.toNat < outbound cl) else decide (f.qs.toNat - 8 < inbound cl))
  | .crr _ f => dst2 cl f.d1 f.d2 && f.sa == 0 && crn f.crn
  | .trap _ f => 1 ≤ f.code.toNat % 256 && f.code.toNat % 256 ≤ 0x18 && f.code.toNat % 256 != 0x16
  -- C
  | .mul _ f | .mulh _ f | .mulhu _ f | .div _ f | .divu _ f | .rem _ f | .remu _ f =>
    cl == .c && dst2 cl f.d1 f.d2 && src2 cl f.sa f.sb && f.fn == 0
  | .muli _ f => cl == .c && dst2 cl f.d1 f.d2 && src cl f.sa && f.fn == 0
  | .fork h f =>
    cl == .c && !h.sync && !(f.v == 0 && f.m == 0 && f.x == 0) && (f.v == 1 || f.offv == 0) && (f.m == 1 || f.offm == 0) &&
      (f.x == 1 || f.offx == 0)
  | .crw _ f => cl == .c && dst2 cl f.d1 f.d2 && src cl f.sa && crn f.crn
  | .crrp _ f => cl == .c && dst2 cl f.d1 f.d2 && f.sa == 0 && crn f.crn
  | .eret _ | .yield _ | .exit _ | .dgstClr _ => cl == .c
  | .ctxsv _ f | .ctxld _ f | .semSig _ f | .semInit _ f | .mbxSend _ f | .hznWr _ f | .lnkRate _ f =>
    cl == .c && src2 cl f.sa f.sb
  | .propPush _ f => cl == .c && src cl f.sa && f.sb == 0
  | .launch _ f | .mbxRecv _ f => cl == .c && dst2 cl f.d1 f.d2 && src2 cl f.sa f.sb && f.fn == 0
  | .wchild _ f => cl == .c && dst2 cl f.d1 f.d2 && src2 cl f.sa f.sb
  | .semWait _ f => cl == .c && dst2 cl f.d1 f.d2 && src cl f.sa && f.imm != 0
  | .semRd _ f | .dgstRd _ f | .mbxCnt _ f | .zlat _ f => cl == .c && oneSrcC f && f.fn == 0
  | .deskew _ f => cl == .c && dst2 cl f.d1 f.d2 && f.sa == 0 && f.fn == 0 && f.imm == 0
  | .propPop _ f => cl == .c && oneSrcC f && f.fn.toNat % 4 == 0
  | .hznRd _ f => cl == .c && oneSrcC f && f.fn.toNat % 4 ≤ 1
  | .lnkSt _ f => cl == .c && oneSrcC f && f.fn.toNat ≤ 2
  -- V
  | .vadd _ f | .vsub _ f | .vmul _ f | .vfma _ f | .vfms _ f | .vfnma _ f | .vdiv _ f | .vscale _ f =>
    cl == .v && tyFI f.ty && v3ab f && rmAny f.rm && f.sub == 0
  | .vmax _ f | .vmin _ f | .vsel _ f => cl == .v && tyFI f.ty && v3ab f && f.rm == 0 && f.sub == 0
  | .vabs _ f | .vneg _ f => cl == .v && tyFI f.ty && v3a f && f.rm == 0 && f.sub == 0
  | .vsqrt _ f | .vexp2 _ f | .vexp _ f => cl == .v && tyFI f.ty && v3a f && rmAny f.rm && f.sub == 0
  | .viadd _ f | .visub _ f | .vimax _ f | .vimin _ f => cl == .v && tyFI f.ty && v3ab f && f.rm == 0 && f.sub.toNat ≤ 1
  | .vimul _ f => cl == .v && tyFI f.ty && v3ab f && f.rm == 0 && f.sub.toNat ≤ 2
  | .vand _ f | .vor _ f | .vxor _ f | .vshl _ f | .vshr _ f | .vsra _ f =>
    cl == .v && tyFI f.ty && v3ab f && f.rm == 0 && f.sub == 0
  | .vcmp _ f => cl == .v && tyFI f.ty && v3ab f && f.sub == 0
  | .vicmp _ f => cl == .v && tyFI f.ty && v3ab f && f.rm.toNat ≤ 5 && f.sub.toNat ≤ 1
  | .viota _ f =>
    cl == .v && tyFI f.ty && tileField (w32 f.ty) f.vd && f.va == 0 && readField (w32 f.ty) true f.vb && f.rm == 0 && f.sub == 0
  | .vpopc _ f =>
    cl == .v && dst2 cl f.d1 f.d2 && f.sa == 0 && tyW f.ty && readField (w32 f.ty) true f.va && f.rm == 0 && f.sub == 0
  | .vcvt _ f =>
    cl == .v && f.ty == 0 && f.sub == 0 && rmAny f.rm && cvtFmt f.fmtd && cvtFmt f.fmts && tileField (cvt32 f.fmtd) f.vd &&
      readField (cvt32 f.fmts) true f.va
  | .vpack _ f =>
    cl == .v && tileField false f.vd && tileField false f.vb && readField true true f.va && f.rm == 0 && packGroup f.ty f.sub
  | .vunpack _ f =>
    cl == .v && tileField true f.vd && readField false false f.va && readField false true f.vb && f.rm == 0 && packGroup f.ty f.sub
  | .vperm _ f => cl == .v && tyW f.ty && v3ab f && f.rm == 0 && f.sub == 0
  | .vrot _ f | .vbcast _ f =>
    cl == .v && tyW f.ty && tileField (w32 f.ty) f.vd && readField (w32 f.ty) true f.va && src cl f.sa && f.sb == 0 && f.rm == 0 &&
      f.sub == 0
  | .vmov _ f => cl == .v && tyW f.ty && v3a f && f.rm == 0 && f.sub == 0
  | .vclr _ f => cl == .v && tyW f.ty && tileField (w32 f.ty) f.vd && f.va == 0 && f.vb == 0 && f.rm == 0 && f.sub == 0
  | .vins _ f => cl == .v && tyW f.ty && tileField (w32 f.ty) f.vd && f.va == 0 && src2 cl f.sa f.sb && f.rm == 0 && f.sub == 0
  | .vext _ f =>
    cl == .v && dst2 cl f.d1 f.d2 && src cl f.sa && tyW f.ty && readField (w32 f.ty) true f.va && f.rm == 0 && f.sub.toNat ≤ 1
  | .vrmax _ f | .vrmin _ f | .vrargmax _ f => cl == .v && reduce f false
  | .vrsum _ f => cl == .v && reduce f true
  -- M
  | .mbeat _ f =>
    cl == .m && src cl f.sa && (if f.dr == 1 then drain f.dt f.df else f.dacc == 0 && f.dt == 0 && f.df == 0)
  | .mshift _ f =>
    cl == .m && f.wb == 0 && f.z == 0 && f.acc == 0 && f.h == 0 && f.sa == 0 &&
      (if f.dr == 1 then drain f.dt f.df else f.dacc == 0 && f.dt == 0 && f.df == 0)
  | .mdrain _ f | .mdrainc _ f => cl == .m && drain f.dt f.df
  | .mwload _ f => cl == .m && src cl f.sa
  | .mbscale _ f => cl == .m && src cl f.sa && f.col == 0
  | .mcfg _ f => cl == .m && f.dens == 0 && f.bss.toNat ≤ 1
  | .mseed _ f => cl == .m && src cl f.sa
  | .mclr _ f => cl == .m && f.acc.toNat + f.cnt.toNat ≤ 255
  | .mexp _ f => cl == .m && dst2 cl f.d1 f.d2 && f.sa == 0
  | .mexpw _ f => cl == .m && dst2 cl f.d1 f.d2 && src cl f.sa
  | .msat _ f | .mstat _ f => cl == .m && dst2 cl f.d1 f.d2
  | .mwait _ => cl == .m
  -- X
  | .ldl _ f => cl == .x && load f && f.ord == 0 && f.sc == 0 && f.land == 0
  | .stl _ f => cl == .x && store f && f.ord == 0 && f.sc == 0
  | .ldlV _ f => cl == .x && loadV f && f.ord == 0 && f.sc == 0 && f.land == 0
  | .stlV _ f => cl == .x && storeV f && f.ord == 0 && f.sc == 0
  | .ldc _ f | .ldd _ f | .ldm _ f | .ldn _ f | .ldh _ f => cl == .x && load f
  | .stc _ f | .std _ f | .stm _ f | .stn _ f | .sth _ f => cl == .x && store f
  | .ldcV _ f | .lddV _ f | .ldmV _ f | .ldnV _ f | .ldhV _ f => cl == .x && loadV f
  | .stcV _ f | .stdV _ f | .stmV _ f | .stnV _ f | .sthV _ f => cl == .x && storeV f
  | .drain _ f => cl == .x && f.mask != 0
  | .fence _ f => cl == .x && f.pre != 0 && f.suc != 0 && f.sc.toNat ≤ 4
  | .cpy _ f => cl == .x && patch f.p1 f.p2 f.w1 f.w2 f.sa f.sb
  | .ecmd _ f =>
    cl == .x && patch f.p1 f.p2 f.w1 f.w2 f.sa f.sb &&
      (f.eng == 0 || (f.eng == 1 && f.eq == 0) || (f.eng == 2 && f.eq.toNat ≤ 1))
  | .qfence _ f => cl == .x && f.mqm != 0
  | .salloc _ f | .barInit _ f | .barExp _ f | .barCred _ f | .amotOpen _ f | .amotSkip _ f => cl == .x && src2 cl f.sa f.sb
  | .pfm _ f | .barBrk _ f | .drainT _ f | .pflush _ f => cl == .x && src cl f.sa
  | .mqcnt _ f => cl == .x && dst2 cl f.d1 f.d2 && f.qs.toNat < 4
  | .barArr _ f => cl == .x && dst2 cl f.d1 f.d2 && src2 cl f.sa f.sb && f.fn == 0
  | .barWait _ f => cl == .x && dst2 cl f.d1 f.d2 && src2 cl f.sa f.sb
  | .barTest _ f | .rdig _ f => cl == .x && dst2 cl f.d1 f.d2 && src cl f.sa && f.sb == 0 && f.fn == 0
  | .mcast _ f => cl == .x && f.d1 == 63 && f.d2 == 63 && src2 cl f.sa f.sb && f.fn.toNat ≤ 2
  | .amo _ f => cl == .x && atomic f && f.aop.toNat ≤ 10
  | .amocas _ f => cl == .x && atomic f && f.aop == 0
  | .ared _ f => cl == .x && atomic f && reduction f && f.aop.toNat ≤ 10 && f.aop != 8
  | .amof _ f => cl == .x && atomic f && f.aop.toNat ≤ 2
  | .aredf _ f => cl == .x && atomic f && reduction f && f.aop.toNat ≤ 2
  | .pseq _ f => cl == .x && dst2 cl f.d1 f.d2 && src cl f.sa && f.sb == 0 && f.fn.toNat ≤ 2
  | .rcmp _ f => cl == .x && dst2 cl f.d1 f.d2 && src cl f.sa && f.sb == 0
  -- the steps that are no slot word
  | .deliveryVisible _ | .landingDataArrival _ _ | .queueDeadlock _ | .joinRendezvous _ | .taskComplete _
  | .gateLift _ | .deferredStoreFault _ _ | .asyncCauseOffer _ | .homeAccessApply _ | .egressBufferDrain _
  | .flushMarkerGather _ _ | .flushCompletion _ | .moverCommandStart _ _ | .copy _ | .gather _ | .i2c _ | .fill _
  | .qfenceCommand _ | .mcastCommand _ | .commandComplete _ | .barrierEventApply _ | .engineCredit _
  | .routerMerge _ _ | .atomicHomeApply _ | .ticketRequestArrival _ | .retryResend _ | .gapTimerExpiry _
  | .preemptionRequest _ | .contextSave _ | .contextResume _ | .doorbell _ _ | .launchAdmit _ | .schedulingStep _
  | .instanceStart _ | .instanceEnd _ | .gangResume _ | .turnChange _ _ | .powerThrottle _ _ | .twinRunEnd _
  | .containmentOffer | .xinvWrite _ _ | .escWrite _ _ | .decodeRegionEnable _ _ _ | .decodeRegionDisable _ _ _
  | .decodeFill _ _ _ _ | .heddleWrite _ _ _ | .savepoolWrite _ _ | .hsliceWrite _ _ | .atpoolWrite _ _
  | .lnkCtlWrite _ _ | .fabNodeWrite _ | .peerEntWrite _ | .replCtlWrite _ | .registerWrite _ _ _ | .deskewEpoch
  | .flitReplay _ | .laneFail _ _ _ | .retrain _ _ _ | .replayWindowStepDown _ _ | .dieReset _ _ | .quiesce _ _
  | .dieRejoin _ | .completionRecord _ | .cmplHeadWrite _ _ _ | .flushReadComplete _ | .ctxOpen _ _ _ _ | .ctxClose _
  | .upload _ _ | .free _ | .keyLoad _ _ _ | .keyClear _ _ | .resetDie _ | .retirePage _ | .fwStage _ _ | .fwSwitch
  | .attest _ _ | .logRead _ _ _ | .journalClear _ | .handlerLoad _ _ | .packagePowerUp _ | .errorLogAppend
  | .timeLogEntry _ | .memoryError _ _ _ _ | .lauter _ | .lauterMaskPoll _ | .lauterForward _ | .mailboxPlace _
  | .kvopRegister _ | .kvopOpen _ | .kvopSeal _ | .kvopFork _ | .kvopRelease _ | .kvopResolve _ | .kvopTrunc _
  | .kvopTagrd _ | .kvopDone _ | .kvopRebuild _ | .kvFaultReport _ _ _ _ _ | .rebuildInject _ | .coll _ _
  | .peerRequestApply _ _ | .fabricFlushMarker _ _ | .nodeUnreachable _ | .replicaPairArrival _ _
  | .llcSliceRetire _ _ | .hostAccessTimeout _ => false

end Sys2Proof
end

