-- ==== Sys2Proof/Machine/Ops.lean ====
section
/-! DEFINITION. The named operations over the state: clusters, files, queues, landings, scratchpads and MRF; taking an exception
and returning from one. -/

namespace Sys2Proof.Machine

/-! ### Keys and parts of the state -/

/-- The key of a context (R337). -/
def ctxKey (die num : Nat) : Nat := die * 2 ^ 24 + num

/-- The key of a logical core. -/
def coreKey (die lcore : Nat) : Nat := die * 128 + lcore

/-- The key under which the regions of a context stand while another context uses their place (R171). -/
def awayKey (k : Nat) : Nat := 2 ^ 28 + k

/-- The key of the core a context runs on. -/
def Ctx.core (c : Ctx) : Nat := coreKey c.who.die c.who.lcore

/-- The key of a context itself. -/
def Ctx.key (c : Ctx) : Nat := ctxKey c.who.die c.who.num

/-- The key under which the regions of a context stand. -/
def Ctx.seat (c : Ctx) : Nat := if c.away then awayKey c.key else c.core

/-- A context by key. -/
def State.ctx? (s : State) (k : Nat) : Option Ctx := s.ctxs.find? k

/-- Replaces a context. -/
def State.setCtx (s : State) (k : Nat) (c : Ctx) : State := { s with ctxs := s.ctxs.insert k c }

/-- Changes a context that exists. -/
def State.modCtx (s : State) (k : Nat) (f : Ctx → Ctx) : State :=
  match s.ctx? k with
  | none => s
  | some c => s.setCtx k (f c)

/-- What a logical core holds. -/
def State.core (s : State) (k : Nat) : CoreState := s.cores.getD k .blank

/-- Replaces what a logical core holds. -/
def State.setCore (s : State) (k : Nat) (c : CoreState) : State := { s with cores := s.cores.insert k c }

/-- Changes what a logical core holds. -/
def State.modCore (s : State) (k : Nat) (f : CoreState → CoreState) : State := s.setCore k (f (s.core k))

/-- A die. -/
def State.die (s : State) (d : Nat) : Die := s.dies.getD d .reset

/-- Replaces a die. -/
def State.setDie (s : State) (d : Nat) (v : Die) : State := { s with dies := s.dies.insert d v }

/-- Changes a die. -/
def State.modDie (s : State) (d : Nat) (f : Die → Die) : State := s.setDie d (f (s.die d))

/-- The next serial number. -/
def State.bump (s : State) : State := { s with serial := s.serial + 1 }

/-- A cluster's place in the order C, V, M, X. -/
def clIndex : Cluster → Nat
  | .c => 0
  | .v => 1
  | .m => 2
  | .x => 3

/-- The four clusters in order. -/
def allClusters : List Cluster := [.c, .v, .m, .x]

/-- One of four things, by cluster. -/
def Quad.get {α : Type} (q : Quad α) : Cluster → α
  | .c => q.q0
  | .v => q.q1
  | .m => q.q2
  | .x => q.q3

/-- Replaces one of four things, by cluster. -/
def Quad.set {α : Type} (q : Quad α) (cl : Cluster) (a : α) : Quad α :=
  match cl with
  | .c => { q with q0 := a }
  | .v => { q with q1 := a }
  | .m => { q with q2 := a }
  | .x => { q with q3 := a }

/-- One of four things, by number. -/
def Quad.nth {α : Type} (q : Quad α) : Nat → α
  | 0 => q.q0
  | 1 => q.q1
  | 2 => q.q2
  | _ => q.q3

/-- Replaces one of four things, by number. -/
def Quad.setNth {α : Type} (q : Quad α) (n : Nat) (a : α) : Quad α :=
  match n with
  | 0 => { q with q0 := a }
  | 1 => { q with q1 := a }
  | 2 => { q with q2 := a }
  | _ => { q with q3 := a }

/-- A cluster of a context; C is the handler's while the handler runs (R166). -/
def Ctx.cl (c : Ctx) (k : Cluster) : ClusterState := c.cls.get k

/-- Replaces a cluster of a context. -/
def Ctx.setCl (c : Ctx) (k : Cluster) (x : ClusterState) : Ctx := { c with cls := c.cls.set k x }

/-- The trap handler runs (R166). -/
def Ctx.inHandler (c : Ctx) : Bool := c.susp.isSome

/-- The context's own core time, which stands still while its handler runs (R38). -/
def Ctx.coreTime (c : Ctx) : Nat :=
  match c.susp with
  | none => c.time
  | some u => u.time

/-- Priv() of R69 (R165). -/
def Ctx.priv (c : Ctx) : Bool := c.inHandler || c.who.sys

/-- CORE_CTL.WMODE (R160). -/
def Ctx.wmode (c : Ctx) : Nat := bits c.coreCtl 0 2

/-- CORE_CTL.UMODE (R160). -/
def Ctx.umode (c : Ctx) : Nat := bits c.coreCtl 2 2

/-- CORE_CTL.CHK (R160). -/
def Ctx.chk (c : Ctx) : Bool := bits c.coreCtl 4 1 = 1

/-- CORE_CTL.TRACE (R160). -/
def Ctx.trace (c : Ctx) : Bool := bits c.coreCtl 5 1 = 1

/-- The physical core that a logical core of a die maps to (R339). -/
def Die.pcore (d : Die) (l : Nat) : Nat :=
  match d.heddle.find? l with
  | none => l
  | some h => h.pcore.toNat

/-- Adds one to a saturating 64-bit counter (R150, R248). -/
def satInc (w : Word) : Word := if w.toNat + 1 < 2 ^ 64 then w + 1 else w

/-! ### Input files, predicates and queues -/

/-- An entry of an input file, by file number and entry (R12, R43). -/
def ClusterState.file (x : ClusterState) (f e : Nat) : Word := x.files.getD (f * 8 + e) 0

/-- Writes an entry of an input file. -/
def ClusterState.setFile (x : ClusterState) (f e : Nat) (v : Word) : ClusterState :=
  { x with files := x.files.insert (f * 8 + e) v }

/-- PredRead of R69: p0 is true (R13). -/
def ClusterState.pred (x : ClusterState) (j : Nat) : Bool := j = 0 || x.preds.getLsbD j

/-- Sets the predicates that `mask` selects to the bits of `v`; p0 is never written (R13). -/
def ClusterState.setPreds (x : ClusterState) (mask v : BitVec 8) : ClusterState :=
  { x with preds := (x.preds &&& ~~~(mask &&& 0xFE)) ||| (v &&& mask &&& 0xFE) }

/-- The queue behind an outbound entry of a cluster, numbered as the save area orders the queues (R44, R169). -/
def outQueue : Cluster → Nat → Nat
  | .c, e => e
  | .v, e => if e = 0 then 3 else 6
  | .m, e => if e = 0 then 4 else 7
  | .x, e => if e = 0 then 5 else if e = 1 then 8 else 9

/-- The queue behind an inbound code of a cluster (R43). -/
def inQueue : Cluster → Nat → Nat
  | .c, i => 3 + i
  | .v, i => if i = 0 then 0 else if i = 1 then 7 else 8
  | .m, i => if i = 0 then 1 else if i = 1 then 6 else 9
  | .x, _ => 2

/-- The entries of a queue, oldest first. -/
def Ctx.queue (c : Ctx) (q : Nat) : List QEntry := c.queues.getD q []

/-- Replaces the entries of a queue. -/
def Ctx.setQueue (c : Ctx) (q : Nat) (l : List QEntry) : Ctx := { c with queues := c.queues.insert q l }

/-- The free entries of a queue in this cycle: an entry popped in the cycle counts from the next one (R29, R88). -/
def Ctx.space (c : Ctx) (q : Nat) : Nat := 8 - ((c.queue q).length + c.freed.count q)

/-- An entry is visible to the reader in this cycle (R30). -/
def Ctx.seen (c : Ctx) (e : QEntry) : Bool := e.value.isSome && decide (e.seen ≤ c.coreTime)

/-- The entries that successive pops could take in this cycle (R88). -/
def Ctx.visible (c : Ctx) (q : Nat) : Nat := ((c.queue q).takeWhile c.seen).length

/-- The value at the head of a queue, which a pop takes. -/
def Ctx.head (c : Ctx) (q : Nat) : Word :=
  match c.queue q with
  | [] => 0
  | e :: _ => e.value.getD 0

/-- Pop of R69: removes the head entry. -/
def Ctx.pop (c : Ctx) (q : Nat) : Ctx := { c.setQueue q ((c.queue q).drop 1) with freed := q :: c.freed }

/-! ### Scratchpads and the MRF -/

/-- What a byte of a scratchpad reads as: zero in an invalid line (R148). -/
def CoreState.get (m : CoreState) (o : Nat) : Byte := if m.lines.has (o / 64) then m.bytes.read o else 0

/-- The `n` bytes from an offset. -/
def CoreState.getBytes (m : CoreState) (o : Nat) : Nat → List Byte
  | 0 => []
  | n + 1 => m.get o :: CoreState.getBytes m (o + 1) n

/-- Writes one byte: an invalid line is first set to zero and then valid (R148). -/
def CoreState.put (m : CoreState) (o : Nat) (b : Byte) : CoreState :=
  if m.lines.has (o / 64) then { m with bytes := m.bytes.write o b }
  else
    { m with
      bytes := Mem.write (m.bytes.filter fun a _ => a / 64 != o / 64) o b
      lines := m.lines.add (o / 64)
      bad := m.bad.del (o / 64) }

/-- Bytes one after the other from an offset upward. -/
def CoreState.puts (m : CoreState) (o : Nat) : List Byte → CoreState
  | [] => m
  | b :: l => CoreState.puts (m.put o b) (o + 1) l

/-- The lines that a write covers whole hold no error any more (R397). -/
def CoreState.heal (m : CoreState) (o n : Nat) : CoreState :=
  { m with bad := m.bad.delIf fun l => decide (o ≤ 64 * l) && decide (64 * l + 64 ≤ o + n) }

/-- Writes bytes from an offset upward. -/
def CoreState.putBytes (m : CoreState) (o : Nat) (l : List Byte) : CoreState := (m.puts o l).heal o l.length

/-- The first byte of an access that lies in a line which holds an uncorrectable error (R397). -/
def CoreState.badByte (m : CoreState) (o n : Nat) : Option Nat :=
  (range o n).find? fun a => m.bad.has (a / 64) && m.lines.has (a / 64)

/-- Clears the valid bits of `n` lines (R147, R239). -/
def CoreState.clearLines (m : CoreState) (line n : Nat) : CoreState :=
  { m with lines := m.lines.delIf fun l => decide (line ≤ l) && decide (l < line + n) }

/-- The first invalid line among the bytes of an access, if any. -/
def CoreState.invalidLine (m : CoreState) (o n : Nat) : Option Nat :=
  (range (o / 64) ((o + n + 63) / 64 - o / 64)).find? fun l => !m.lines.has l

/-- A byte range touches a tagged granule (R272). -/
def CoreState.tagged (m : CoreState) (o n : Nat) : Bool :=
  (range (o / 16) ((o + n + 15) / 16 - o / 16)).any m.tags.has

/-- An MRF element as an operand reads it: zero in an invalid row (R143). -/
def Mrf.get (m : Mrf) (e : Nat) : BitVec 16 := if m.valid.has (e / 128) then m.elems.getD e 0 else 0

/-- MrfPut of R69 for one element: an invalid row is first set to zero and then valid (R143). -/
def Mrf.put (m : Mrf) (e : Nat) (v : BitVec 16) : Mrf :=
  if m.valid.has (e / 128) then { m with elems := m.elems.insert e v }
  else ⟨(m.elems.filter fun k _ => k / 128 != e / 128).insert e v, m.valid.add (e / 128)⟩

/-- Writes elements in order (R154). -/
def Mrf.puts (m : Mrf) : List Nat → List (BitVec 16) → Mrf
  | e :: es, v :: vs => Mrf.puts (m.put e v) es vs
  | _, _ => m

/-- The half that a local offset lies in (R146). -/
def halfOf (o : Nat) : Nat := o / 2 ^ 22

/-- The region of a half: its first offset and its length in bytes (R161). -/
def Ctx.region (c : Ctx) (h : Nat) : Nat × Nat :=
  let r := c.rgn.nth h
  (h * 2 ^ 22 + bits r 6 16 * 64, bits r 32 16 * 64)

/-- The bytes at the end of the B1 region that hold the array at a halt (R224). -/
def spillBytes : Nat := 0x5B000

/-- The part of a region that accesses may reach: the B1 region of a task that uses the array ends before its spill area (R224). -/
def Ctx.reach (c : Ctx) (h : Nat) : Nat × Nat :=
  let (b, n) := c.region h
  (b, if c.who.au && h = 3 then n - spillBytes else n)

/-- The `n` bytes from a local offset lie in the part of one half's region that accesses may reach (R147, R224). -/
def Ctx.owns (c : Ctx) (o n : Nat) : Bool :=
  let (b, len) := c.reach (halfOf o)
  decide (b ≤ o) && decide (o + n ≤ b + len)

/-- Records an uninitialised read (R150). -/
def Ctx.recordUninit (c : Ctx) (addr : Word) : Ctx :=
  { c with ctr := { c.ctr with
      uninit := satInc c.ctr.uninit
      uninitAddr := if c.ctr.uninit = 0 then addr else c.ctr.uninitAddr } }

/-- UNINIT_ADDR for a space code and an address (R150). -/
def uninitWord (space addr : Nat) : Word := toWord (space * 2 ^ 61 + addr % 2 ^ 33)

/-! ### Pending landings -/

/-- A delivery code names something that is written: not "no delivery" and not p0 (R13, R44). -/
def writes (d : BitVec 6) : Bool := d != 63 && d != 48

/-- A landing that is pending for a word examined now: it issued in an earlier cycle and becomes visible in a later one (R25). -/
def Ctx.isPending (c : Ctx) (l : Landing) : Bool := decide (l.since ≤ c.time) && decide (c.time < l.due) && !l.discarded

/-- A landing writes entry `d` (a delivery code of files 0 to 6) of its cluster. -/
def Landing.hits (l : Landing) (cl : Cluster) (d : BitVec 6) : Bool :=
  decide (l.cl = cl) && (decide (l.d1 = d) || decide (l.d2 = d) ||
    (decide (d.toNat / 8 = 6) && l.pmask.getLsbD (d.toNat % 8)))

/-- An entry of a cluster is pending (R25). -/
def Ctx.pendingEntry (c : Ctx) (cl : Cluster) (d : BitVec 6) : Bool :=
  c.landings.any fun l => c.isPending l && l.hits cl d

/-- A predicate is pending; p0 never is (R13, R25). -/
def Ctx.pendingPred (c : Ctx) (cl : Cluster) (j : Nat) : Bool := j != 0 && c.pendingEntry cl (BitVec.ofNat 6 (48 + j))

/-- An MRF element is pending (R145). -/
def Ctx.pendingElem (c : Ctx) (e : Nat) : Bool := c.landings.any fun l => c.isPending l && l.elems.contains e

/-- The write port that a delivery code uses: its file, or one queue (R12, R27). -/
def port (d : BitVec 6) : Nat := if d.toNat / 8 = 7 then d.toNat else d.toNat / 8

/-- A landing uses a write port of its cluster. -/
def Landing.uses (l : Landing) (cl : Cluster) (p : Nat) : Bool :=
  decide (l.cl = cl) && ((writes l.d1 && port l.d1 = p) || (writes l.d2 && port l.d2 = p) || (p = 6 && l.pmask != 0))

/-- A port of a cluster is already scheduled for a cycle (R27). -/
def Ctx.scheduled (c : Ctx) (cl : Cluster) (p cycle : Nat) : Bool :=
  c.landings.any fun l => decide (l.due = cycle) && l.uses cl p && !l.discarded

/-- The landing-buffer entries allotted to a context (R141), with those that words before this one would take in a cycle that it stops (log 57). -/
def Ctx.lndcnt (c : Ctx) : Nat :=
  c.claims + (c.landings.filter (·.lbuf)).length +
    (match c.susp with
     | none => 0
     | some u => (u.landings.filter (·.lbuf)).length)

/-- A delivery with nothing set but its place in time. -/
def Landing.blank (id : Nat) (cl : Cluster) (t due access : Nat) : Landing where
  id := id
  cl := cl
  since := t + 1
  due := due
  access := access
  d1 := 63
  d2 := 63
  v1 := 0
  v2 := 0
  q1 := 0
  q2 := 0
  pmask := 0
  pval := 0
  operand := none
  elems := []
  vals := []
  form := .value
  buf := .empty
  missing := 0
  cause := 0
  faddr := 0
  finfo := 0
  uninit := none
  ufaddr := 0
  put := none
  lbuf := false
  acquire := false
  peer := false
  sem := false
  discarded := false

/-- Reserves a queue entry for a delivery code that names a queue (R29). -/
def Ctx.reserve (c : Ctx) (cl : Cluster) (d : BitVec 6) (id : Nat) : Ctx :=
  if d.toNat / 8 = 7 && d != 63 then
    let q := outQueue cl (d.toNat % 8)
    c.setQueue q (c.queue q ++ [⟨id, none, 0⟩])
  else c

/-- Schedules a landing and reserves the queue entries of its deliveries; its id serves D1, the next one D2 (R24, R29). -/
def Ctx.schedule (c : Ctx) (l : Landing) : Ctx :=
  let c := (c.reserve l.cl l.d1 l.id).reserve l.cl l.d2 (l.id + 1)
  { c with landings := c.landings ++ [{ l with q1 := l.id, q2 := l.id + 1 }] }

/-- Deliver of R69 for both delivery codes of a word: the values become visible `lat` cycles after this one. -/
def State.deliver2 (s : State) (d1 d2 : BitVec 6) (v1 v2 : Word) (lat : Nat) : State :=
  match s.ctx? s.focus.1 with
  | none => s
  | some c =>
    if d1 = 63 && d2 = 63 then s
    else
      let cl := s.focus.2
      let l := Landing.blank s.serial cl c.time (c.time + lat) (c.cl cl).lastAccess
      { s.setCtx s.focus.1 (c.schedule { l with d1 := d1, d2 := d2, v1 := v1, v2 := v2 }) with serial := s.serial + 2 }

/-- Delivers one value to both delivery codes. -/
def State.deliver (s : State) (d1 d2 : BitVec 6) (v : Word) (lat : Nat) : State := s.deliver2 d1 d2 v v lat

/-- Schedules a write of predicates with latency 1 (R83, R84). -/
def State.deliverPreds (s : State) (mask v : BitVec 8) : State :=
  match s.ctx? s.focus.1 with
  | none => s
  | some c =>
    if mask &&& 0xFE = 0 then s
    else
      let cl := s.focus.2
      let l := Landing.blank s.serial cl c.time (c.time + 1) (c.cl cl).lastAccess
      { s.setCtx s.focus.1 (c.schedule { l with pmask := mask &&& 0xFE, pval := v }) with serial := s.serial + 2 }

/-- An LSP or MRF access of a cluster performs in a cycle (R30). -/
def Ctx.touch (c : Ctx) (cl : Cluster) (t : Nat) : Ctx :=
  c.setCl cl { c.cl cl with lastAccess := max (c.cl cl).lastAccess t }

/-- Schedules a write of MRF elements, and notes the access for the queue rule (R30, R145). -/
def State.deliverElems (s : State) (operand : BitVec 15) (elems : List Nat) (vals : List (BitVec 16)) (lat : Nat) : State :=
  match s.ctx? s.focus.1 with
  | none => s
  | some c =>
    let cl := s.focus.2
    let x := c.cl cl
    let l := Landing.blank s.serial cl c.time (c.time + lat) x.lastAccess
    let c := c.schedule { l with operand := some operand, elems := elems, vals := vals }
    { s.setCtx s.focus.1 (c.setCl cl { x with lastAccess := max x.lastAccess (c.time + lat) }) with serial := s.serial + 2 }

/-- Writes one delivery at its visibility: a file entry, a predicate, or the reserved entry of a queue (R13, R24, R29, R30). -/
def Ctx.land1 (c : Ctx) (cl : Cluster) (d : BitVec 6) (v : Word) (qid seen : Nat) : Ctx :=
  let f := d.toNat / 8
  let e := d.toNat % 8
  if d = 63 then c
  else if f < 6 then c.setCl cl ((c.cl cl).setFile f e v)
  else if f = 6 then
    c.setCl cl ((c.cl cl).setPreds (BitVec.ofNat 8 (2 ^ e)) (if v = 0 then 0 else BitVec.ofNat 8 (2 ^ e)))
  else
    let q := outQueue cl e
    c.setQueue q ((c.queue q).map fun x => if x.id = qid then { x with value := some v, seen := seen } else x)

/-- Everything a landing writes when it becomes visible (R24). In a handler an entry of a context's queue is visible at once. -/
def Ctx.land (c : Ctx) (l : Landing) : Ctx :=
  let seen := if c.inHandler then 0 else max l.due l.access + 1
  let c := (c.land1 l.cl l.d1 l.v1 l.q1 seen).land1 l.cl l.d2 l.v2 l.q2 seen
  let c := if l.pmask = 0 then c else c.setCl l.cl ((c.cl l.cl).setPreds l.pmask l.pval)
  { c with mrf := c.mrf.puts l.elems l.vals }

/-- Changes the landing with a given id, the context's or its handler's. -/
def Ctx.modLanding (c : Ctx) (id : Nat) (f : Landing → Landing) : Ctx :=
  let g := fun l : Landing => if l.id = id then f l else l
  { c with
    landings := c.landings.map g
    susp := c.susp.map fun u => { u with landings := u.landings.map g } }

/-- Gives a landing its value. -/
def Landing.arrive (l : Landing) (v1 v2 : Word) : Landing := { l with v1 := v1, v2 := v2, missing := 0 }

/-- Gives a landing a fault to take (R34). -/
def Landing.fail (l : Landing) (cause : Cause) (faddr finfo : Word) : Landing :=
  if l.cause = 0 then { l with missing := 0, cause := cause, faddr := faddr, finfo := finfo } else l

/-- One piece of a landing's data has arrived with a fault: the fault of the lowest byte stays (R231, R233). -/
def Landing.failPiece (l : Landing) (cause : Cause) (faddr finfo : Word) : Landing :=
  let l := { l with missing := l.missing - 1 }
  if l.cause = 0 || faddr.ult l.faddr then { l with cause := cause, faddr := faddr, finfo := finfo } else l

/-- A landing reads an invalid line: the lowest byte that does is kept (R149, R150). -/
def Landing.noteUninit (l : Landing) (w ufaddr finfo : Word) : Landing :=
  if l.uninit.isNone || ufaddr.ult l.ufaddr then { l with uninit := some w, ufaddr := ufaddr, finfo := finfo } else l

/-! ### Causes and traps -/

def causeIllegalOp : Cause := 0x01
def causePrivilege : Cause := 0x02
def causePendingRead : Cause := 0x03
def causeQueueDeadlock : Cause := 0x04
def causeWritePort : Cause := 0x05
def causeMisalign : Cause := 0x06
def causeSpaceFault : Cause := 0x07
def causeXlateFault : Cause := 0x08
def causeUninitRead : Cause := 0x09
def causeBankConflict : Cause := 0x0A
def causeBarrierOverflow : Cause := 0x0B
def causeBarrierClobber : Cause := 0x0C
def causeTicketGap : Cause := 0x0D
def causeLandingLimit : Cause := 0x0E
def causeRemoteAbort : Cause := 0x0F
def causeLinkDegraded : Cause := 0x10
def causeZoneDrift : Cause := 0x11
def causeNonfiniteKv : Cause := 0x12
def causeKvUe : Cause := 0x13
def causeDigestMismatch : Cause := 0x14
def causeEccUe : Cause := 0x15
def causePreempt : Cause := 0x16
def causeBroken : Cause := 0x17
def causeDivideByZero : Cause := 0x18

/-- A cause raised at issue by a cluster (R33). -/
def TrapInfo.issue (cause : Cause) (cl : Cluster) : TrapInfo := ⟨cause, cl, false, 0, false, 0, 0⟩

/-- A cause raised by a landing, a deferred store fault or a command (R34, R232, R250). -/
def TrapInfo.landing (cause : Cause) (cl : Cluster) (faddr finfo : Word) : TrapInfo := ⟨cause, cl, false, 0, true, faddr, finfo⟩

/-- The value of CAUSE for a trap (R94). -/
def TrapInfo.word (i : TrapInfo) : Word :=
  toWord (i.cause.toNat + (if i.lnd then 0x100 else 0) + (if i.sw then 0x200 else 0) + clIndex i.cl * 0x400 +
    i.tag.toNat * 0x10000)

/-- FINFO of an access of a space (R233). -/
def finfoOf (space : Nat) (wr : Bool) : Word := toWord (space + (if wr then 8 else 0))

/-- NonFatal of R355: raised by `trap`, a gap timer's TICKET_GAP (FINFO.WR clear), LINK_DEGRADED, ZONE_DRIFT, or a notification of
NONFINITE_KV or KV_UE. -/
def TrapInfo.nonFatal (i : TrapInfo) : Bool :=
  i.sw || i.cause == causeLinkDegraded || i.cause == causeZoneDrift ||
    (i.cause == causeTicketGap && bits i.finfo 3 1 == 0) ||
    (!i.lnd && (i.cause == causeNonfiniteKv || i.cause == causeKvUe))

/-- Adds a report for the error log; die 3 is the MP, whose time is DD's (R393). -/
def State.report (s : State) (die kind : Nat) (cause : Cause) (loc : Nat) : State :=
  { s with reports := s.reports ++ [⟨(s.die (if die = 3 then 0 else die)).time, cause, die, kind, BitVec.ofNat 32 loc⟩] }

/-- The LOC of a containment entry: context number, level and action (R394). -/
def containLoc (num level action : Nat) : Nat := num % 2 ^ 24 + level * 2 ^ 24 + action * 2 ^ 27

/-- Offers a cause of a context to the task level (R167, R357): the context stops until containment has acted. -/
def State.offerTask (s : State) (k : Nat) (i : TrapInfo) : State :=
  match s.ctx? k with
  | none => s
  | some c =>
    { s.setCtx k { c with status := .stopped, phase := .rest } with
      offers := s.offers ++ [⟨k, c.who.run, c.who.launch, i.cause, i.sw, i.nonFatal⟩] }

/-- The registers of the handler bank of a cluster state. -/
def ClusterState.bank (x : ClusterState) : HandlerBank := ⟨x.files, x.preds, x.lc0, x.lc1, x.ret⟩

/-- An all-zero handler bank (R166). -/
def HandlerBank.zero : HandlerBank := ⟨.empty, 0, .zero, .zero, []⟩

/-- Ends the handler of a context: the context's own C, clock and landings return, and the bank keeps the handler's registers when
the handler ended through `eret`, ESC or a fault of its own (R166, R167). Deliveries of the handler that are still under way are
made first (log 12). -/
def State.leaveHandler (s : State) (k : Nat) (keep : Bool) : State :=
  match s.ctx? k with
  | none => s
  | some c =>
    match c.susp with
    | none => s
    | some u =>
      let h := (c.landings.filter fun l => l.missing == 0 && l.cause == 0).foldl Ctx.land c
      let s := s.setCtx k { h with cls := { h.cls with q0 := u.c }, time := u.time, landings := u.landings, susp := none }
      if keep then
        let d := s.die c.who.die
        s.setDie c.who.die { d with banks := d.banks.insert (d.pcore c.who.lcore) (h.cls.q0).bank }
      else s

/-- Every cluster re-examines the word at its EPC, and CAUSE is cleared (R98). -/
def Ctx.resume (c : Ctx) : Ctx :=
  { c with
    cls := ⟨{ c.cls.q0 with pc := c.epc.q0 }, { c.cls.q1 with pc := c.epc.q1 }, { c.cls.q2 with pc := c.epc.q2 },
            { c.cls.q3 with pc := c.epc.q3 }⟩
    cause := 0 }

/-- `eret`: leaves the handler and resumes the context (R98). -/
def State.eret (s : State) (k : Nat) : State := (s.leaveHandler k true).modCtx k Ctx.resume

/-- C enters the handler at PC 0xE000 on the handler bank of its physical core (R166). -/
def State.enterHandler (s : State) (k : Nat) : State :=
  match s.ctx? k with
  | none => s
  | some c =>
    let d := s.die c.who.die
    let b := d.banks.getD (d.pcore c.who.lcore) .zero
    let x : ClusterState := ⟨0xE000, .run, 0, false, b.preds, b.lc0, b.lc1, b.ret, b.files, 0⟩
    s.setCtx k { c with
      susp := some ⟨c.cls.q0, c.time, c.landings⟩
      cls := { c.cls with q0 := x }
      time := 0
      landings := [] }

/-- CAUSE and the four EPCs of a trap (R33, R166), with nothing of the cycle left. -/
def Ctx.saveTrap (c : Ctx) (i : TrapInfo) : Ctx :=
  { c with
    cause := i.word
    epc := ⟨c.cls.q0.pc, c.cls.q1.pc, c.cls.q2.pc, c.cls.q3.pc⟩
    verdict := .trapped }

/-- FADDR and FINFO are written by a trap taken with CAUSE.LND = 1 (R233). -/
def State.faultRegs (s : State) (core : Nat) (i : TrapInfo) : State :=
  if i.lnd then s.modCore core fun m => { m with faddr := i.faddr, finfo := i.finfo } else s

/-- The policies of the slot-cluster and core levels let a non-fatal cause be ignored (R166, R356). -/
def Ctx.ignores (c : Ctx) (i : TrapInfo) : Bool :=
  i.nonFatal && (c.who.pol.toNat % 4 == 0 || c.who.pol.toNat / 4 % 4 == 0)

/-- A cause that software has written, as the machine reports it: a reserved code counts as an uncorrectable error (R8, log 18). -/
def reportable (n : Nat) : Nat := if n ≤ 0x18 then n else causeEccUe.toNat

/-- Taking an exception (R166): CAUSE, the EPCs and, for a landing, FADDR and FINFO are written. A non-fatal cause that a level
ignores resumes the context at once. A fault inside the handler ends it and is offered to the task level (R167), where DIGEST_MISMATCH
starts (R356, R460). Otherwise C enters the handler. Each offer is logged with what became of it (R357, log 32). -/
def State.takeTrap (s : State) (k : Nat) (i : TrapInfo) : State :=
  match s.ctx? k with
  | none => s
  | some c =>
    if c.inHandler then
      let s := s.faultRegs c.core i
      let s := (s.leaveHandler k true).modCtx k fun c => { c with verdict := .trapped }
      let s := s.report c.who.die 6 (BitVec.ofNat 8 (reportable (bits c.cause 0 8))) (containLoc c.who.num 1 3)
      (s.report c.who.die 6 i.cause (containLoc c.who.num 1 3)).offerTask k i
    else
      let s := (s.setCtx k (c.saveTrap i)).faultRegs c.core i
      if i.cause == causeDigestMismatch && !i.sw then s.offerTask k i
      else if c.ignores i then
        (s.modCtx k Ctx.resume).report c.who.die 6 i.cause
          (containLoc c.who.num (if c.who.pol.toNat % 4 == 0 then 0 else 1) 0)
      else (s.report c.who.die 6 i.cause (containLoc c.who.num 1 3)).enterHandler k

end Sys2Proof.Machine
end

