-- ==== Sys2Proof/Machine/Operands.lean ====
section
/-! DEFINITION. Operand forms: scalar sources by unit (R43, R48), MRF operands (R45) and broadcasts. -/

namespace Sys2Proof.Machine

/-- The function units of C (R48). -/
inductive ExecUnit where
  | ia | im | ib
  deriving DecidableEq, Repr

/-- The a-file of a unit; V, M and X have one unit, the sequencer ALU (R44, R48). -/
def aFile (cl : Cluster) (u : ExecUnit) : Nat :=
  match cl, u with
  | .c, .im => 2
  | .c, .ib => 4
  | _, _ => 0

/-- The b-file of a unit. -/
def bFile (cl : Cluster) (u : ExecUnit) : Nat := aFile cl u + 1

/-- An entry of a file as a delivery code names it. -/
def entryCode (f e : Nat) : BitVec 6 := BitVec.ofNat 6 (f * 8 + e)

/-- What a scalar source reads, before any pop (R43). -/
def Ctx.source (c : Ctx) (cl : Cluster) (f : Nat) (code : BitVec 4) : Word :=
  if code.toNat < 8 then (c.cl cl).file f code.toNat else c.head (inQueue cl (code.toNat - 8))

/-- The state after a scalar source is read: a queue source is popped (R43). -/
def Ctx.popSource (c : Ctx) (cl : Cluster) (code : BitVec 4) : Ctx :=
  if code.toNat < 8 then c else c.pop (inQueue cl (code.toNat - 8))

/-- The tile, direction and index of an MRF operand (R45). -/
def mrfTile (f : BitVec 15) : Nat := f.toNat / 512
def mrfDir (f : BitVec 15) : Nat := f.toNat / 128 % 4
def mrfIndex (f : BitVec 15) : Nat := f.toNat % 128

/-- An operand names a broadcast (R45). -/
def isBcast (f : BitVec 15) : Bool := decide (48 ≤ mrfTile f)

/-- The row and column of lane `i` of an operand (R45), as row × 128 + column. -/
def laneCell (f : BitVec 15) (i : Nat) : Nat :=
  match mrfDir f with
  | 0 => mrfIndex f * 128 + i
  | 1 => i * 128 + mrfIndex f
  | 2 => i * 128 + (i + mrfIndex f) % 128
  | _ => i * 128 + (mrfIndex f + 128 - i) % 128

/-- The MRF element of lane `i` of an operand. -/
def laneElem (f : BitVec 15) (i : Nat) : Nat := mrfTile f * 16384 + laneCell f i

/-- The elements of the 128 lanes of a 16-bit operand, in lane order. -/
def elems16 (f : BitVec 15) : List Nat := (range 0 128).map (laneElem f)

/-- The elements of a 32-bit operand: of each lane the low half in tile 2k, then the high half in tile 2k + 1 (R45, R69). -/
def elems32 (f : BitVec 15) : List Nat := (range 0 128).flatMap fun i => [laneElem f i, laneElem f i + 16384]

/-- The elements of an operand by width. -/
def elemsOf (w32 : Bool) (f : BitVec 15) : List Nat := if w32 then elems32 f else elems16 f

/-- The elements a read operand touches: none for a broadcast. -/
def readElems (w32 : Bool) (f : BitVec 15) : List Nat := if isBcast f then [] else elemsOf w32 f

/-- The entries a read operand touches: the sq.b entry of a broadcast (R45). -/
def readEntries (f : BitVec 15) : List (BitVec 6) := if isBcast f then [entryCode 1 (mrfTile f - 48)] else []

/-- MrfGet of R69: lane `i` of an operand. -/
def Ctx.lane (c : Ctx) (w32 : Bool) (f : BitVec 15) (i : Nat) : Nat :=
  if isBcast f then ((c.cl .v).file 1 (mrfTile f - 48)).toNat % (if w32 then 2 ^ 32 else 2 ^ 16)
  else
    (c.mrf.get (laneElem f i)).toNat + (if w32 then (c.mrf.get (laneElem f i + 16384)).toNat * 2 ^ 16 else 0)

/-- The 128 lanes of an operand. -/
def Ctx.lanes (c : Ctx) (w32 : Bool) (f : BitVec 15) : List Nat := (range 0 128).map (c.lane w32 f)

/-- The 16-bit values that MrfPut writes for lane values, in the order of `elemsOf` (R69). -/
def laneVals (w32 : Bool) (l : List Nat) : List (BitVec 16) :=
  if w32 then l.flatMap fun v => [BitVec.ofNat 16 v, BitVec.ofNat 16 (v / 2 ^ 16)] else l.map (BitVec.ofNat 16)

/-- The first invalid row among the elements a word reads, as UNINIT_ADDR records it (R144, R150). -/
def Ctx.uninitElem (c : Ctx) (es : List Nat) : Option Word :=
  match es.find? fun e => !c.mrf.valid.has (e / 128) with
  | none => none
  | some e => some (uninitWord 3 (e / 16384 * 512 + e / 128 % 128))

end Sys2Proof.Machine
end

