-- ==== Sys2Proof/Machine/Issue.lean ====
section
/-! DEFINITION. Examining and issuing a slot word: the common part of every word (R17 to R20, R25, R27, R63). -/

namespace Sys2Proof.Machine

/-- What the common part needs to know of a word: the files and codes of its scalar sources, how many entries of q.cx it pops as
data (R315), the predicates, file entries and MRF elements it reads besides, its delivery codes with their latency, the
predicates it writes, its privilege, whether the executing die lacks something it names, the buffer or mailbox it waits for
(QBLK and QDIR of R245, R404, R409), and whether it reaches scratchpad, a remote space or pushes a command (R237). -/
structure Uses where
  sa : Option (Nat × BitVec 4) := none
  sb : Option (Nat × BitVec 4) := none
  data : Nat := 0
  preds : List Nat := []
  entries : List (BitVec 6) := []
  elems : List Nat := []
  d1 : BitVec 6 := 63
  d2 : BitVec 6 := 63
  lat : Nat := 1
  pmask : BitVec 8 := 0
  priv : Bool := false
  dieIllegal : Bool := false
  room : Option (BitVec 4 × Bool) := none
  mem : Bool := false

/-- What the instruction's own description comes to once the common part has passed: a fault at issue (also with what it
changes besides, and one found in what the word reaches, which an outstanding acquire holds back with its cycle), a further wait, a gate on
the word's own cycle (R237), an effect after which the PC advances, an effect that redirects the PC (R85), or an effect that leaves the
cluster's PC to itself (the end of a handler). -/
inductive Body where
  | trap (i : TrapInfo)
  | wait (r : RunState) (q : BitVec 4) (dir : Bool)
  | trapWith (f : Ctx → Ctx) (i : TrapInfo)
  | late (f : Ctx → Ctx) (i : TrapInfo)
  | gated (f : Ctx → Ctx)
  | ok (s : State)
  | jump (s : State) (target : Word)
  | finish (s : State)

/-- The sources of a word that are entries of a file, as delivery codes. -/
def Uses.sourceCodes (u : Uses) : List (BitVec 6) :=
  let one := fun o : Option (Nat × BitVec 4) =>
    match o with
    | some (f, e) => if e.toNat < 8 then [entryCode f e.toNat] else []
    | none => []
  one u.sa ++ one u.sb ++ u.entries

/-- The inbound queues that a word pops, one for each entry. -/
def Uses.pops (u : Uses) (cl : Cluster) : List Nat :=
  let one := fun o : Option (Nat × BitVec 4) =>
    match o with
    | some (_, e) => if e.toNat < 8 then [] else [e.toNat - 8]
    | none => []
  (one u.sa ++ one u.sb ++ List.replicate u.data 0).filter fun i => decide (i < Legal.inbound cl)

/-- The outbound queue entries that a word delivers to. -/
def Uses.outs (u : Uses) : List Nat :=
  let one := fun d : BitVec 6 => if d.toNat / 8 = 7 && d != 63 then [d.toNat % 8] else []
  one u.d1 ++ one u.d2

/-- A word reads an entry, a predicate or an element that is pending (R25, R145). -/
def Ctx.readsPending (c : Ctx) (cl : Cluster) (u : Uses) : Bool :=
  u.sourceCodes.any (c.pendingEntry cl) || u.preds.any (c.pendingPred cl) || u.elems.any c.pendingElem

/-- The queue condition that holds a word back, as QBLK and QDIR report it (R15, R17). -/
def Ctx.blocked (c : Ctx) (cl : Cluster) (u : Uses) : Option (BitVec 4 × Bool) :=
  match (u.pops cl).find? fun i => decide (c.visible (inQueue cl i) < (u.pops cl).count i) with
  | some i => some (BitVec.ofNat 4 (8 + i), false)
  | none =>
    match u.outs.find? fun e => decide (c.space (outQueue cl e) = 0) with
    | some e => some (BitVec.ofNat 4 e, true)
    | none => u.room

/-- WritePortClash of R69 (R20, R27). -/
def Ctx.portClash (c : Ctx) (cl : Cluster) (u : Uses) : Bool :=
  (writes u.d1 && writes u.d2 && decide (port u.d1 = port u.d2)) ||
    (writes u.d1 && c.scheduled cl (port u.d1) (c.time + u.lat)) ||
    (writes u.d2 && c.scheduled cl (port u.d2) (c.time + u.lat)) ||
    (u.pmask &&& 0xFE != 0 && c.scheduled cl 6 (c.time + 1))

/-- The next PC after a word that does not redirect, with the counts of the loops that end at it (R87). -/
def ClusterState.advance (x : ClusterState) : ClusterState :=
  let inner := x.lc1.count != 0 && x.lc1.stop == x.pc
  let x := if inner then { x with lc1 := { x.lc1 with count := x.lc1.count - 1 } } else x
  if inner && x.lc1.count != 0 then { x with pc := x.lc1.start }
  else
    let outer := x.lc0.count != 0 && x.lc0.stop == x.pc
    let x := if outer then { x with lc0 := { x.lc0 with count := x.lc0.count - 1 } } else x
    if outer && x.lc0.count != 0 then { x with pc := x.lc0.start } else { x with pc := x.pc + 8 }

/-- The word of a cluster has issued: its PC advances or goes to a target. -/
def Ctx.commit (c : Ctx) (cl : Cluster) (target : Option Word) : Ctx :=
  let x := c.cl cl
  let x :=
    match target with
    | none => x.advance
    | some a => { x with pc := a }
  { c.setCl cl x with verdict := .issued, issuedCls := c.issuedCls ++ [cl] }

/-- The word waits: the run state that CSTAT reports (R15 to R18). -/
def Ctx.wait (c : Ctx) (cl : Cluster) (r : RunState) (q : BitVec 4) (dir : Bool) : Ctx :=
  { c.setCl cl { c.cl cl with run := r, qblk := q, qdir := dir } with verdict := .waiting }

/-- The state in which an issuing word takes effect: its cluster runs, its sources are popped (R29), the window census has
counted it (R160). -/
def Ctx.issueOn (c : Ctx) (cl : Cluster) (u : Uses) (pending : Bool) : Ctx :=
  let c := c.setCl cl { c.cl cl with run := .run, qblk := 0, qdir := false }
  let c := (u.pops cl).foldl (fun c i => c.pop (inQueue cl i)) c
  let c := { c with issuedPcs := c.issuedPcs.set cl (c.cl cl).pc }
  if pending && c.chk && c.wmode = 0 then { c with ctr := { c.ctr with pwin := satInc c.ctr.pwin } } else c

/-- The data entries of q.cx that a word pops (R315). -/
def Ctx.dataOf (c : Ctx) (n : Nat) : List Word := ((c.queue 2).take n).map fun e => e.value.getD 0

/-- An acquire that the context issued in an earlier cycle still waits for its data (R237). -/
def Ctx.acquiring (c : Ctx) : Bool := c.landings.any fun l => l.acquire && decide (0 < l.missing) && decide (l.since ≤ c.time)

/-- What the body of a word comes to, made the outcome of examining it. -/
def State.conclude (s : State) (k : Nat) (cl : Cluster) (c : Ctx) (mem : Bool) (b : Body) : State :=
  match b with
  | .trap i => s.takeTrap k i
  | .wait r q dir => s.setCtx k (c.wait cl r q dir)
  | .trapWith f i => (s.setCtx k (f c)).takeTrap k i
  | .late f i => if c.acquiring then s.setCtx k { c with verdict := .gated } else (s.setCtx k (f c)).takeTrap k i
  | .gated f => s.setCtx k { f c with verdict := .gated }
  | .ok s' => if mem && c.acquiring then s.setCtx k { c with verdict := .gated } else s'.modCtx k fun c => c.commit cl none
  | .jump s' a => s'.modCtx k fun c => c.commit cl (some a)
  | .finish s' => s'.modCtx k fun c => { c with verdict := .trapped }

/-- The value of a source field, 0 where the word has none. -/
def Ctx.value (c : Ctx) (cl : Cluster) (o : Option (Nat × BitVec 4)) : Word :=
  match o with
  | none => 0
  | some (f, e) => c.source cl f e

/-- Executing a word whose common checks have passed. -/
def State.run (s : State) (k : Nat) (cl : Cluster) (c : Ctx) (u : Uses) (pend : Bool)
    (body : Word → Word → List Word → State → Body) : State :=
  s.conclude k cl c u.mem
    (body (c.value cl u.sa) (c.value cl u.sb) (c.dataOf u.data) (s.setCtx k (c.issueOn cl u pend)))

/-- Examine of R63 for a word of the cluster in focus, with the waits of R17 and R18 between its steps 2 and 3 (log 27). In a handler the S bit has
no effect (R97). -/
def State.examine (s : State) (i : Instr) (h : Hdr) (u : Uses) (body : Word → Word → List Word → State → Body) : State :=
  let k := s.focus.1
  let cl := s.focus.2
  match s.ctx? k with
  | none => s
  | some c =>
    let sync := h.sync && !c.inHandler && !c.bundle
    let guardPending := c.pendingPred cl h.pred.toNat
    if !wellFormed cl i then s.takeTrap k (.issue causeIllegalOp cl)
    else if guardPending && c.wmode == 1 then s.takeTrap k (.issue causePendingRead cl)
    else if guardPending && c.wmode == 2 then s.setCtx k (c.wait cl .istall 0 false)
    else if (c.cl cl).pred h.pred.toNat == h.neg then
      if sync then s.setCtx k (c.wait cl .swait 0 false)
      else s.setCtx k ((c.issueOn cl {} guardPending).commit cl none)
    else if c.wmode == 2 && c.readsPending cl u then s.setCtx k (c.wait cl .istall 0 false)
    else
      match c.blocked cl u with
      | some (q, dir) => s.setCtx k (c.wait cl .qwait q dir)
      | none =>
        if sync then s.setCtx k (c.wait cl .swait 0 false)
        else if u.priv && !c.priv then s.takeTrap k (.issue causePrivilege cl)
        else if u.dieIllegal then s.takeTrap k (.issue causeIllegalOp cl)
        else if c.wmode == 1 && c.readsPending cl u then s.takeTrap k (.issue causePendingRead cl)
        else if c.portClash cl u then s.takeTrap k (.issue causeWritePort cl)
        else s.run k cl c u (guardPending || c.readsPending cl u) body

/-- The outcome of executing a slot word. -/
def word (i : Instr) (h : Hdr) (u : Uses) (body : Word → Word → List Word → State → Body) (s : State) :
    Host.Outcome State Fault Refusal := .next (s.examine i h u body)

end Sys2Proof.Machine
end

