-- ==== Sys2Proof/Machine/Control.lean ====
section
/-! DEFINITION. The words that direct a cluster: branches, calls, hardware loops, queue counts, `fork`, `join`, `halt`, `trap` and `nop`
(R85 to R90, R96, R97). -/

namespace Sys2Proof.Machine

/-- `nop` (R89). -/
def execNop (h : Hdr) (s : State) : Host.Outcome State Fault Refusal := word (.nop h) h {} (fun _ _ _ s => .ok s) s

/-- The address of the word in focus. -/
def State.pcOf (s : State) : Word :=
  match s.ctx? s.focus.1 with
  | none => 0
  | some c => (c.cl s.focus.2).pc

/-- A PC moved by a number of words (R41). -/
def branchTo (pc : Word) (off : BitVec 24) : Word := pc + 8 * signExtend off.toNat 24

/-- `br` (R85). -/
def execBr (h : Hdr) (f : FmtBR) (s : State) : Host.Outcome State Fault Refusal :=
  word (.br h f) h {} (fun _ _ _ s => .jump s (branchTo s.pcOf f.off)) s

/-- Pushes a return address; the oldest of eight is lost (R14). -/
def ClusterState.push (x : ClusterState) (a : Word) : ClusterState := { x with ret := (a :: x.ret).take 8 }

/-- Changes the cluster in focus. -/
def State.modCl (s : State) (f : ClusterState → ClusterState) : State :=
  s.modCtx s.focus.1 fun c => c.setCl s.focus.2 (f (c.cl s.focus.2))

/-- `jal` (R85): pushes PC + 8, delivers it to D1 with latency 1, and branches. -/
def execJal (h : Hdr) (f : FmtBR) (s : State) : Host.Outcome State Fault Refusal :=
  word (.jal h f) h { d1 := f.d1 }
    (fun _ _ _ s => .jump ((s.deliver f.d1 63 (s.pcOf + 8) 1).modCl fun x => x.push (s.pcOf + 8)) (branchTo s.pcOf f.off)) s

/-- `jr` (R85): PC := a + b, with MISALIGN unless that is a multiple of 8. -/
def execJr (h : Hdr) (f : FmtS2) (s : State) : Host.Outcome State Fault Refusal :=
  word (.jr h f) h { sa := some (aFile s.focus.2 .ib, f.sa), sb := some (bFile s.focus.2 .ib, f.sb) }
    (fun a b _ t =>
      if bits (a + b) 0 3 = 0 then .jump t (a + b) else .trap (.issue causeMisalign s.focus.2)) s

/-- The return stack of the cluster in focus. -/
def State.returns (s : State) : List Word :=
  match s.ctx? s.focus.1 with
  | none => []
  | some c => (c.cl s.focus.2).ret

/-- `ret` (R85): ILLEGAL_OP at depth 0 (R14). -/
def execRet (h : Hdr) (s : State) : Host.Outcome State Fault Refusal :=
  word (.ret h) h {}
    (fun _ _ _ t =>
      match t.returns with
      | [] => .trap (.issue causeIllegalOp s.focus.2)
      | a :: _ => .jump (t.modCl fun x => { x with ret := x.ret.drop 1 }) a) s

/-- A loop counter, by LC. -/
def ClusterState.setLoop (x : ClusterState) (lc : BitVec 1) (l : LoopState) : ClusterState :=
  if lc = 0 then { x with lc0 := l } else { x with lc1 := l }

/-- `loop` and `loopi` (R86): the counter is set; a count of 0 skips the body; an end at or before the word is ILLEGAL_OP. -/
def loopBody (lc : BitVec 1) (count : BitVec 32) (off : BitVec 24) (s : State) : Body :=
  if 0 < off.toInt then
    let stop := branchTo s.pcOf off
    let s' := s.modCl fun x => x.setLoop lc ⟨count, x.pc + 8, stop⟩
    if count = 0 then .jump s' (stop + 8) else .ok s'
  else .trap (.issue causeIllegalOp s.focus.2)

/-- `loop` (R86): the count is Bits(a, 31, 0). -/
def execLoop (h : Hdr) (f : FmtLP) (s : State) : Host.Outcome State Fault Refusal :=
  word (.loop h f) h { sa := some (aFile s.focus.2 .ib, f.sa) } (fun a _ _ s => loopBody f.lc (a.setWidth 32) f.off s) s

/-- `loopi` (R86): the count is CNT16. -/
def execLoopi (h : Hdr) (f : FmtLP) (s : State) : Host.Outcome State Fault Refusal :=
  word (.loopi h f) h {} (fun _ _ _ s => loopBody f.lc (f.cnt.setWidth 32) f.off s) s

/-- The counter that `lend` stops keeps its start and end. -/
def ClusterState.stopLoop (x : ClusterState) (lc : BitVec 1) : ClusterState :=
  if lc = 0 then { x with lc0 := { x.lc0 with count := 0 } } else { x with lc1 := { x.lc1 with count := 0 } }

/-- `lend` (R86): the count becomes 0 and the word branches. -/
def execLend (h : Hdr) (f : FmtLP) (s : State) : Host.Outcome State Fault Refusal :=
  word (.lend h f) h {} (fun _ _ _ s => .jump (s.modCl fun x => x.stopLoop f.lc) (branchTo s.pcOf f.off)) s

/-- The count of `qcnt` (R88): free entries of an outbound queue, or entries that pops could take from an inbound one. -/
def Ctx.queueCount (c : Ctx) (cl : Cluster) (qs : BitVec 4) : Nat :=
  if qs.toNat < 8 then c.space (outQueue cl qs.toNat) else c.visible (inQueue cl (qs.toNat - 8))

/-- `qcnt` (R88). -/
def execQcnt (h : Hdr) (f : FmtQ) (s : State) : Host.Outcome State Fault Refusal :=
  word (.qcnt h f) h { d1 := f.d1, d2 := f.d2 }
    (fun _ _ _ t =>
      .ok (t.deliver f.d1 f.d2
        (match t.ctx? t.focus.1 with
         | none => 0
         | some c => toWord (c.queueCount t.focus.2 f.qs)) 1)) s

/-- The handler runs on the core in focus (R97). -/
def State.handling (s : State) : Bool :=
  match s.ctx? s.focus.1 with
  | none => false
  | some c => c.inHandler

/-- A word that a handler may not issue (R97). -/
def outsideHandler (s : State) (b : Body) : Body := if s.handling then .trap (.issue causeIllegalOp s.focus.2) else b

/-- A word that only a handler may issue (R97). -/
def insideHandler (s : State) (b : Body) : Body := if s.handling then b else .trap (.issue causeIllegalOp s.focus.2)

/-- `join` (R22, R89). -/
def execJoin (h : Hdr) (s : State) : Host.Outcome State Fault Refusal :=
  word (.join h) h {} (fun _ _ _ s => outsideHandler s (.ok (s.modCl fun x => { x with run := .joined }))) s

/-- `halt` (R89). -/
def execHalt (h : Hdr) (s : State) : Host.Outcome State Fault Refusal :=
  word (.halt h) h {} (fun _ _ _ s => outsideHandler s (.ok (s.modCl fun x => { x with run := .halted }))) s

/-- `trap` (R90): the word issues, and the cause is taken at the boundary after its cycle. -/
def execTrap (h : Hdr) (f : FmtTR) (s : State) : Host.Outcome State Fault Refusal :=
  word (.trap h f) h {}
    (fun _ _ _ s =>
      outsideHandler s (.ok (s.modCtx s.focus.1 fun c =>
        { c with traps := c.traps ++
            [⟨BitVec.ofNat 8 (f.code.toNat % 256), s.focus.2, true, BitVec.ofNat 8 (f.code.toNat / 256), false, 0, 0⟩] }))) s

/-- The clusters that a `fork` names (R96). -/
def forkNames (f : FmtFK) : List Cluster :=
  (if f.v = 1 then [Cluster.v] else []) ++ (if f.m = 1 then [Cluster.m] else []) ++ (if f.x = 1 then [Cluster.x] else [])

/-- The offset a `fork` gives a cluster. -/
def forkOff (f : FmtFK) : Cluster → BitVec 16
  | .v => f.offv
  | .m => f.offm
  | _ => f.offx

/-- The bit of a cluster in the fork set (R15). -/
def forkBit : Cluster → BitVec 3
  | .v => 1
  | .m => 2
  | .x => 4
  | .c => 0

/-- Releases one cluster (R21, R96): its PC, its run state and the fork set change, nothing else. -/
def Ctx.release (c : Ctx) (f : FmtFK) (cl : Cluster) : Ctx :=
  { c.setCl cl { c.cl cl with pc := c.entry.get cl + 8 * signExtend (forkOff f cl).toNat 16, run := .run } with
    forkset := c.forkset ||| forkBit cl }

/-- `fork` (R21, R23, R96): waits in SWAIT until every named cluster is IDLE and C's own LSP accesses have performed (log 52). -/
def execFork (h : Hdr) (f : FmtFK) (s : State) : Host.Outcome State Fault Refusal :=
  word (.fork h f) h {}
    (fun _ _ _ t =>
      outsideHandler t
        (match t.ctx? t.focus.1 with
         | none => .ok t
         | some c =>
           if ((forkNames f).all fun cl => decide ((c.cl cl).run = .idle)) && decide ((c.cl .c).lastAccess ≤ c.time) then
             .ok (t.setCtx t.focus.1 ((forkNames f).foldl (fun c => c.release f) c))
           else .wait .swait 0 false)) s

end Sys2Proof.Machine
end

