-- ==== Sys2Proof/Machine/Float.lean ====
section
/-! DEFINITION. Scalar formats, exact values and rounding (R103 to R116). -/

namespace Sys2Proof.Machine

/-- A floating-point format: exponent and fraction bits, bias, the code of its largest finite value, and the codes of its infinity
and of its canonical NaN where it has them (R106). -/
structure FloatFmt where
  e : Nat
  m : Nat
  bias : Nat
  top : Nat
  inf : Option Nat
  nan : Option Nat
  deriving DecidableEq, Repr

def fp4 : FloatFmt := ⟨2, 1, 1, 7, none, none⟩
def fp6e2m3 : FloatFmt := ⟨2, 3, 1, 31, none, none⟩
def fp6e3m2 : FloatFmt := ⟨3, 2, 3, 31, none, none⟩
def fp8e4m3 : FloatFmt := ⟨4, 3, 7, 0x7E, none, some 0x7F⟩
def fp8e5m2 : FloatFmt := ⟨5, 2, 15, 0x7B, some 0x7C, some 0x7E⟩
def fp16 : FloatFmt := ⟨5, 10, 15, 0x7BFF, some 0x7C00, some 0x7E00⟩
def bf16 : FloatFmt := ⟨8, 7, 127, 0x7F7F, some 0x7F80, some 0x7FC0⟩
def fp32 : FloatFmt := ⟨8, 23, 127, 0x7F7FFFFF, some 0x7F800000, some 0x7FC00000⟩

/-- The width of a format in bits. -/
def FloatFmt.width (f : FloatFmt) : Nat := 1 + f.e + f.m

/-- What an encoding means: NaN, an infinity, or ± `num` × 2^`exp`, zeros signed (R106). -/
inductive FVal where
  | nan
  | inf (neg : Bool)
  | fin (neg : Bool) (num : Nat) (exp : Int)
  deriving DecidableEq, Repr

/-- The rounding modes of RM (R51). -/
inductive Rounding where
  | rne | rtz | rup | rdn
  deriving DecidableEq, Repr

/-- The rounding mode an RM field names. -/
def rmOf (rm : BitVec 3) : Rounding :=
  match rm.toNat with
  | 0 => .rne
  | 1 => .rtz
  | 2 => .rup
  | _ => .rdn

/-- Reads an encoding (R106). -/
def FloatFmt.decode (f : FloatFmt) (x : Nat) : FVal :=
  let neg := x / 2 ^ (f.e + f.m) % 2 = 1
  let code := x % 2 ^ (f.e + f.m)
  let e := code / 2 ^ f.m
  let frac := code % 2 ^ f.m
  if f.inf = some code then .inf neg
  else if f.top < code then .nan
  else if e = 0 then .fin neg frac (1 - f.bias - f.m)
  else .fin neg (2 ^ f.m + frac) (e - f.bias - f.m)

/-- The encoding of a sign and a code. -/
def FloatFmt.signed (f : FloatFmt) (neg : Bool) (code : Nat) : Nat := (if neg then 2 ^ (f.e + f.m) else 0) + code

/-- CanonNaN of R69; a format without NaN takes +0 (R116). -/
def FloatFmt.canon (f : FloatFmt) : Nat := f.nan.getD 0

/-- Rounds the non-negative ratio `p` / `q` to an integer; `neg` is the sign of the value it is the magnitude of (R110). -/
def roundNat (rm : Rounding) (neg : Bool) (p q : Nat) : Nat :=
  let n := p / q
  let r := p % q
  match rm with
  | .rne => if 2 * r < q then n else if q < 2 * r then n + 1 else n + n % 2
  | .rtz => n
  | .rup => if r = 0 || neg then n else n + 1
  | .rdn => if r = 0 || !neg then n else n + 1

/-- Numerator and denominator of `p` / `q` × 2^`x`. -/
def scale2 (p q : Nat) (x : Int) : Nat × Nat := if 0 ≤ x then (p * 2 ^ x.toNat, q) else (p, q * 2 ^ (-x).toNat)

/-- floor(log2(`p` / `q`)) for positive `p` and `q`. -/
def log2Ratio (p q : Nat) : Int :=
  let g : Int := (Nat.log2 p : Int) - (Nat.log2 q : Int)
  let (a, b) := scale2 p q (-g)
  if a < b then g - 1 else g

/-- Round of R69 for the exact value ± (`p` / `q`) × 2^`x`, a zero keeping its sign (R110 to R112). -/
def FloatFmt.round (f : FloatFmt) (rm : Rounding) (neg : Bool) (p q : Nat) (x : Int) : Nat :=
  if p = 0 then f.signed neg 0
  else
    let lo : Int := 1 - f.bias
    let e := max (log2Ratio p q + x) lo
    let (a, b) := scale2 p q (x - (e - f.m))
    let n := roundNat rm neg a b
    let code := (e - lo).toNat * 2 ^ f.m + n
    if code ≤ f.top then f.signed neg code
    else
      match f.inf with
      | none => f.signed neg f.top
      | some i =>
        match rm, neg with
        | .rne, _ => f.signed neg i
        | .rtz, _ => f.signed neg f.top
        | .rup, true => f.signed neg f.top
        | .rup, false => f.signed neg i
        | .rdn, true => f.signed neg i
        | .rdn, false => f.signed neg f.top

/-- Rounds a value: NaN is canonical, an infinity stays one where the format has it and otherwise becomes the largest value (R111,
R113, R116). -/
def FloatFmt.ofVal (f : FloatFmt) (rm : Rounding) : FVal → Nat
  | .nan => f.canon
  | .inf neg => f.signed neg (f.inf.getD f.top)
  | .fin neg n x => f.round rm neg n 1 x

/-- The integer that `num` × 2^`exp` is at a common exponent `x` ≤ `exp`. -/
def alignTo (neg : Bool) (num : Nat) (exp x : Int) : Int :=
  let n : Int := num * 2 ^ (exp - x).toNat
  if neg then -n else n

/-- The exact sum of two finite values; an exact zero sum of two unlike signs is +0, or -0 toward -∞ (R112). -/
def addFin (rm : Rounding) (n1 : Bool) (a1 : Nat) (x1 : Int) (n2 : Bool) (a2 : Nat) (x2 : Int) : FVal :=
  let x := min x1 x2
  let z := alignTo n1 a1 x1 x + alignTo n2 a2 x2 x
  if z = 0 then .fin (if a1 = 0 && a2 = 0 && n1 == n2 then n1 else rm == .rdn) 0 0
  else .fin (decide (z < 0)) z.natAbs x

/-- The negation of a value. -/
def FVal.neg : FVal → FVal
  | .nan => .nan
  | .inf s => .inf !s
  | .fin s a x => .fin (!s) a x

/-- The exact sum. -/
def FVal.add (rm : Rounding) : FVal → FVal → FVal
  | .nan, _ => .nan
  | _, .nan => .nan
  | .inf a, .inf b => if a = b then .inf a else .nan
  | .inf a, _ => .inf a
  | _, .inf b => .inf b
  | .fin a m x, .fin b n y => addFin rm a m x b n y

/-- The exact product. -/
def FVal.mul : FVal → FVal → FVal
  | .nan, _ => .nan
  | _, .nan => .nan
  | .inf a, .inf b => .inf (a != b)
  | .inf a, .fin b n _ => if n = 0 then .nan else .inf (a != b)
  | .fin a m _, .inf b => if m = 0 then .nan else .inf (a != b)
  | .fin a m x, .fin b n y => .fin (a != b) (m * n) (x + y)

/-- A quotient rounded to a format (R114). -/
def FloatFmt.div (f : FloatFmt) (rm : Rounding) : FVal → FVal → Nat
  | .nan, _ => f.canon
  | _, .nan => f.canon
  | .inf _, .inf _ => f.canon
  | .inf a, .fin b _ _ => f.ofVal rm (.inf (a != b))
  | .fin a _ _, .inf b => f.signed (a != b) 0
  | .fin a m x, .fin b n y =>
    if n = 0 then (if m = 0 then f.canon else f.ofVal rm (.inf (a != b)))
    else f.round rm (a != b) m n (x - y)

/-- The integer square root of `n`, found from bit `k` downward. -/
def isqrtFrom (n : Nat) : Nat → Nat → Nat
  | 0, r => r
  | k + 1, r => let t := r + 2 ^ k; isqrtFrom n k (if t * t ≤ n then t else r)

/-- floor of the square root. -/
def isqrt (n : Nat) : Nat := isqrtFrom n (Nat.log2 n / 2 + 1) 0

/-- A square root rounded to a format: the root of the radicand at 60 further bits, with half a unit added where it is not exact, which
no rounding boundary separates from the root (R114, R183). -/
def FloatFmt.sqrt (f : FloatFmt) (rm : Rounding) : FVal → Nat
  | .nan => f.canon
  | .inf neg => if neg then f.canon else f.ofVal rm (.inf false)
  | .fin neg m x =>
    if m = 0 then f.signed neg 0
    else if neg then f.canon
    else
      let odd : Nat := if x % 2 = 0 then 0 else 1
      let n := m * 2 ^ (120 + odd)
      let y := (x - odd) / 2 - 60
      let r := isqrt n
      if r * r = n then f.round rm false r 1 y else f.round rm false (2 * r + 1) 2 y

/-- Orders two values that are no NaN, -0 below +0: the first is less (R114). -/
def FVal.lessTotal : FVal → FVal → Bool
  | .inf a, .inf b => a && !b
  | .inf a, .fin _ _ _ => a
  | .fin _ _ _, .inf b => !b
  | .fin a m x, .fin b n y =>
    let z := min x y
    let p := alignTo a m x z
    let q := alignTo b n y z
    if p = q then a && !b else decide (p < q)
  | _, _ => false

/-- Two values that are no NaN are equal as numbers, zeros of either sign being equal. -/
def FVal.sameNumber : FVal → FVal → Bool
  | .inf a, .inf b => a == b
  | .fin a m x, .fin b n y => let z := min x y; decide (alignTo a m x z = alignTo b n y z)
  | _, _ => false

/-- Less as numbers: false for a NaN and between the two zeros. -/
def FVal.less (a b : FVal) : Bool := a.lessTotal b && !a.sameNumber b

/-- A value is NaN. -/
def FVal.isNan : FVal → Bool
  | .nan => true
  | _ => false

/-- Maximum under R114. -/
def FVal.max (a b : FVal) : FVal := if a.isNan || b.isNan then .nan else if a.lessTotal b then b else a

/-- Minimum under R114. -/
def FVal.min (a b : FVal) : FVal := if a.isNan || b.isNan then .nan else if b.lessTotal a then b else a

/-- Round(value, integer, RM), with the ends of a range for infinities and 0 for NaN (R116). -/
def FVal.toInt (rm : Rounding) (lo hi : Int) : FVal → Int
  | .nan => 0
  | .inf neg => if neg then lo else hi
  | .fin neg m x =>
    let (p, q) := scale2 m 1 x
    let n : Int := roundNat rm neg p q
    satI (if neg then -n else n) lo hi

/-- An integer as an exact value. -/
def FVal.ofInt (z : Int) : FVal := .fin (decide (z < 0)) z.natAbs 0

/-- The float formats of the conversion codes (R52). -/
def floatOf (code : Nat) : Option FloatFmt :=
  match code with
  | 9 => some fp4
  | 10 => some fp6e2m3
  | 11 => some fp6e3m2
  | 12 => some fp8e4m3
  | 13 => some fp8e5m2
  | 19 => some fp16
  | 20 => some bf16
  | 21 => some fp32
  | _ => none

/-- The integer formats of the conversion codes, as width and sign (R105). -/
def intOf (code : Nat) : Nat × Bool :=
  match code with
  | 4 => (4, true)
  | 5 => (8, true)
  | 6 => (16, true)
  | 7 => (32, true)
  | _ => (8, false)

/-- The least and greatest integer of a format. -/
def intLo (f : Nat × Bool) : Int := if f.2 then -(2 ^ (f.1 - 1) : Nat) else 0
def intHi (f : Nat × Bool) : Int := if f.2 then (2 ^ (f.1 - 1) : Nat) - 1 else (2 ^ f.1 : Nat) - 1

/-- The integer an element of an integer format holds. -/
def intVal (f : Nat × Bool) (x : Nat) : Int := if f.2 then signed x f.1 else (x % 2 ^ f.1 : Nat)

/-- The bits of an integer in a format of `n` bits. -/
def intBits (n : Nat) (z : Int) : Nat := (BitVec.ofInt n z).toNat

/-- `vcvt` of one element (R116). -/
def convert (src dst : Nat) (rm : Rounding) (x : Nat) : Nat :=
  match floatOf src, floatOf dst with
  | some f, some g => g.ofVal rm (f.decode x)
  | some f, none => let d := intOf dst; intBits d.1 ((f.decode x).toInt rm (intLo d) (intHi d))
  | none, some g => g.ofVal rm (.ofInt (intVal (intOf src) x))
  | none, none => let d := intOf dst; intBits d.1 (satI (intVal (intOf src) x) (intLo d) (intHi d))

end Sys2Proof.Machine
end

