-- ==== Sys2Proof/Machine/View.lean ====
section
/-! DEFINITION. Block formats and decode regions (R104, R107 to R109, R117 to R126). -/

namespace Sys2Proof.Machine

/-- The bit width of an element of a source format (R105, R106, R108). -/
def srcWidth (fmt : Nat) : Nat :=
  match fmt with
  | 0 => 4
  | 1 => 6
  | 2 => 8
  | 3 => 16
  | 4 => 4
  | 5 => 8
  | 6 => 16
  | 7 => 32
  | 8 => 8
  | 9 => 4
  | 10 => 6
  | 11 => 6
  | 12 => 8
  | 13 => 8
  | 14 => 4
  | 15 => 6
  | 16 => 6
  | 17 => 8
  | 18 => 8
  | 19 => 16
  | 20 => 16
  | 21 => 32
  | 22 => 4
  | _ => 2

/-- The elements that share a scale; 0 for a format without scales (R108, R121). -/
def srcBlock (fmt : Nat) : Nat := if fmt ≤ 3 || (14 ≤ fmt && fmt ≤ 18) then 32 else if fmt = 22 then 16 else 0

/-- A value scaled by a power of two. -/
def FVal.shift (k : Int) : FVal → FVal
  | .nan => .nan
  | .inf s => .inf s
  | .fin s n x => .fin s n (x + k)

/-- An element under an E8M0 scale: NaN for the scale 0xFF (R107, R109). -/
def scaled (scale : Nat) (v : FVal) : FVal := if scale = 0xFF then .nan else v.shift ((scale : Int) - 127)

/-- The exact value of a source element with its scale byte (R105 to R109). -/
def srcValue (fmt x scale : Nat) : FVal :=
  let w := srcWidth fmt
  if fmt ≤ 3 then scaled scale ((FVal.ofInt (signed x w)).shift (2 - (w : Int)))
  else if fmt ≤ 8 then .ofInt (intVal (intOf fmt) x)
  else if fmt = 22 then
    let q := signed x 4
    if 0xFC ≤ scale then .nan
    else if scale = 0 then .fin false 0 0
    else (FVal.ofInt (q * (4 + scale % 4))).shift ((scale / 4 : Nat) - 46)
  else if fmt = 23 then (if x = 1 then .ofInt 1 else if x = 3 then .ofInt (-1) else .ofInt 0)
  else
    match fmt with
    | 14 => scaled scale (fp4.decode x)
    | 15 => scaled scale (fp6e2m3.decode x)
    | 16 => scaled scale (fp6e3m2.decode x)
    | 17 => scaled scale (fp8e4m3.decode x)
    | 18 => scaled scale (fp8e5m2.decode x)
    | n =>
      match floatOf n with
      | some f => f.decode x
      | none => .ofInt 0

/-- The widths of MXINT by their code (R53). -/
def mxWidth (tw : Nat) : Nat :=
  match tw with
  | 0 => 4
  | 1 => 6
  | 2 => 8
  | _ => 16

/-- Blocks of 32 in a 384-byte segment (R122, R203). -/
def blocksOf (tw : Nat) : Nat :=
  match tw with
  | 0 => 24
  | 1 => 16
  | 2 => 12
  | _ => 6

/-- floor(log2) of the magnitude of a non-zero finite value. -/
def FVal.log2 : FVal → Int
  | .fin _ n x => (Nat.log2 n : Int) + x
  | _ => 0

/-- A value is not finite. -/
def FVal.special : FVal → Bool
  | .fin _ _ _ => false
  | _ => true

/-- A value is a zero. -/
def FVal.isZero : FVal → Bool
  | .fin _ n _ => n == 0
  | _ => false

/-- The shared exponent of a block (R123). -/
def blockScale (l : List FVal) : Nat :=
  if l.any FVal.special then 0xFF
  else
    match (l.filter fun v => !v.isZero).map FVal.log2 with
    | [] => 0
    | a :: r => (satI (r.foldl max a + 127) 0 254).toNat

/-- One element of a block at its shared exponent (R123). -/
def blockElem (w e : Nat) (v : FVal) : Int :=
  if e = 0xFF then 0
  else
    let lim : Int := (2 ^ (w - 1) : Nat) - 1
    match v with
    | .fin s n x =>
      let (p, q) := scale2 n 1 (x + w - 2 + 127 - e)
      let z : Int := roundNat .rne s p q
      satI (if s then -z else z) (-lim) lim
    | _ => 0

/-- A block of values as a scale and elements at width `w` (R123). -/
def mxBlock (w : Nat) (l : List FVal) : Nat × List Int := let e := blockScale l; (e, l.map (blockElem w e))

/-- Elements of width `w` packed as one little-endian number (R104). -/
def packElems (w : Nat) : List Int → Nat
  | [] => 0
  | z :: l => intBits w z + 2 ^ w * packElems w l

/-- Element `j` of width `w` in a string of bytes (R104). -/
def unpackElem (w j : Nat) (l : List Byte) : Nat := ofBytes ((l.drop (w * j / 8)).take (w / 8 + 2)) / 2 ^ (w * j % 8) % 2 ^ w

/-! ### Decode regions -/

def DecodeRegion.zero : DecodeRegion := ⟨0, 0, 0, 0⟩

/-- Fields of a region (R118, R119). -/
def DecodeRegion.en (r : DecodeRegion) : Bool := bits r.drc 0 1 = 1
def DecodeRegion.fmt (r : DecodeRegion) : Nat := bits r.drc 1 5
def DecodeRegion.tw (r : DecodeRegion) : Nat := bits r.drc 8 2
def DecodeRegion.sideB (r : DecodeRegion) : Bool := bits r.drc 10 1 = 1
def DecodeRegion.kv (r : DecodeRegion) : Bool := bits r.drc 11 1 = 1
def DecodeRegion.kb (r : DecodeRegion) : Nat := bits r.drc 24 16
def DecodeRegion.nvec (r : DecodeRegion) : Nat := bits r.drc 40 24
def DecodeRegion.vbase (r : DecodeRegion) : Nat := bits r.drv 12 40 * 2 ^ 12
def DecodeRegion.sbase (r : DecodeRegion) : Nat := bits r.drs 6 46 * 2 ^ 6
def DecodeRegion.kbase (r : DecodeRegion) : Nat := bits r.drk 6 46 * 2 ^ 6
def DecodeRegion.klen (r : DecodeRegion) : Nat := 32 * r.kb

/-- SEGS of R122. -/
def DecodeRegion.segs (r : DecodeRegion) : Nat := (r.kb + blocksOf r.tw - 1) / blocksOf r.tw

/-- The size of the view (R122). -/
def DecodeRegion.viewSize (r : DecodeRegion) : Nat := r.nvec * r.segs * (if r.sideB then 385 else 416)

/-- The sizes of the source element and scale areas (R121). -/
def DecodeRegion.srcSize (r : DecodeRegion) : Nat := r.nvec * r.klen * srcWidth r.fmt / 8
def DecodeRegion.scaleSize (r : DecodeRegion) : Nat :=
  if srcBlock r.fmt = 0 then 0 else r.nvec * (r.klen / srcBlock r.fmt)

/-- The `n` bytes that a reader of single bytes finds from an address upward. -/
def bytesBy (rd : Nat → Byte) (a n : Nat) : List Byte := (range a n).map rd

/-- Source element `k` of vector `v`, by value (R121), `rd` being what the fill reads at an address. -/
def DecodeRegion.value (r : DecodeRegion) (rd : Nat → Byte) (v k : Nat) : FVal :=
  let w := srcWidth r.fmt
  let base := r.sbase + v * r.klen * w / 8
  let x := ofBytes (bytesBy rd (base + w * k / 8) (w / 8 + 2)) / 2 ^ (w * k % 8) % 2 ^ w
  let b := srcBlock r.fmt
  srcValue r.fmt x (if b = 0 then 0 else (rd (r.kbase + v * (r.klen / b) + k / b)).toNat)

/-- The values of segment `g` of vector `v`, positions past KLEN being 0 (R122). -/
def DecodeRegion.segValues (r : DecodeRegion) (rd : Nat → Byte) (v g : Nat) : List FVal :=
  (range (g * 32 * blocksOf r.tw) (32 * blocksOf r.tw)).map fun k => if k < r.klen then r.value rd v k else .fin false 0 0

/-- The bytes of a source block copied bit for bit: MXINT of the target width (R123). -/
def DecodeRegion.copies (r : DecodeRegion) : Bool := !r.sideB && decide (r.fmt = r.tw)

/-- One A-type block of a segment: its scale and elements, padding blocks being zero (R122, R123). -/
def DecodeRegion.blockA (r : DecodeRegion) (rd : Nat → Byte) (v blk : Nat) : Nat × List Int :=
  if r.kb ≤ blk then (0, List.replicate 32 0)
  else if r.copies then
    let w := srcWidth r.fmt
    let base := r.sbase + v * r.klen * w / 8
    ((rd (r.kbase + v * r.kb + blk)).toNat,
     (range (blk * 32) 32).map fun k => signed (ofBytes (bytesBy rd (base + w * k / 8) (w / 8 + 2)) / 2 ^ (w * k % 8)) w)
  else mxBlock (mxWidth r.tw) ((range (blk * 32) 32).map (r.value rd v))

/-- The decoded bytes of a segment: 384 element bytes, then its scales: 32 bytes (A-type) or one (B-type) (R122 to R125). -/
def DecodeRegion.segment (r : DecodeRegion) (rd : Nat → Byte) (v g : Nat) : List Byte :=
  let w := mxWidth r.tw
  if r.sideB then
    let (e, q) := mxBlock w (r.segValues rd v g)
    toBytes (packElems w q) 384 ++ [BitVec.ofNat 8 e]
  else
    let l := (range (g * blocksOf r.tw) (blocksOf r.tw)).map (r.blockA rd v)
    toBytes (packElems w (l.flatMap (·.2))) 384 ++ ((l.map fun (b : Nat × List Int) => BitVec.ofNat 8 b.1) ++ List.replicate 32 0).take 32

/-- A segment holds a non-finite value (R125). -/
def DecodeRegion.nonfinite (r : DecodeRegion) (rd : Nat → Byte) (v g : Nat) : Bool := (r.segValues rd v g).any FVal.special

/-- The region of a die whose view holds a physical address, with its number (R122). -/
def Die.viewAt (d : Die) (pa : Nat) : Option (Nat × DecodeRegion) :=
  d.regions.items.find? fun e => e.2.en && decide (e.2.vbase ≤ pa) && decide (pa < e.2.vbase + e.2.viewSize)

/-- The segment index v × SEGS + s and the byte within the segment that a view offset names (R122). -/
def DecodeRegion.locate (r : DecodeRegion) (off : Nat) : Nat × Nat :=
  let n := r.nvec * r.segs * 384
  if off < n then (off / 384, off % 384)
  else if r.sideB then ((off - n) % r.nvec * r.segs + (off - n) / r.nvec, 384)
  else ((off - n) / 32, 384 + (off - n) % 32)

/-- The key of a decoded segment in a die's LLC. -/
def segKey (n seg : Nat) : Nat := n * 2 ^ 40 + seg

/-- The source bytes of a segment: where its elements and its scales lie, with their lengths (R121). -/
def DecodeRegion.sources (r : DecodeRegion) (seg : Nat) : List (Nat × Nat) :=
  let v := seg / r.segs
  let k := seg % r.segs * 32 * blocksOf r.tw
  let n := min (32 * blocksOf r.tw) (r.klen - k)
  let w := srcWidth r.fmt
  let b := srcBlock r.fmt
  (r.sbase + (v * r.klen + k) * w / 8, (n * w + 7) / 8) :: (if b = 0 then [] else [(r.kbase + v * (r.klen / b) + k / b, n / b)])

/-- A byte is a source byte of a segment. -/
def DecodeRegion.touches (r : DecodeRegion) (seg pa : Nat) : Bool :=
  (r.sources seg).any fun e => decide (e.1 ≤ pa) && decide (pa < e.1 + e.2)

/-- A source line of a segment holds an uncorrectable error (R397). What lies inside another view is not read from the memory beneath it
(R122). -/
def State.badSource (s : State) (r : DecodeRegion) (seg : Nat) : Bool :=
  (r.sources seg).any fun e =>
    (range (e.1 / 64) ((e.1 + e.2 + 63) / 64 - e.1 / 64)).any fun l =>
      s.poison.has l &&
        (range (64 * l) 64).any fun a => decide (e.1 ≤ a) && decide (a < e.1 + e.2) && ((s.die (a / 2 ^ 40)).viewAt a).isNone

/-- A segment that decodes as non-finite throughout, padding blocks keeping scale 0x00 (R122, R125, R431). -/
def DecodeRegion.allNan (r : DecodeRegion) (seg : Nat) : List Byte :=
  let n := min (blocksOf r.tw) (r.kb - seg % r.segs * blocksOf r.tw)
  List.replicate 384 0 ++ (if r.sideB then [0xFF] else List.replicate n 0xFF ++ List.replicate (32 - n) 0)

/-- The bytes of a segment as its fill decodes them: a bad source line of a KV region decodes it as non-finite (R431). -/
def State.decodeSeg (s : State) (rd : Nat → Byte) (r : DecodeRegion) (seg : Nat) : List Byte :=
  if r.kv && s.badSource r seg then r.allNan seg else r.segment rd (seg / r.segs) (seg % r.segs)

/-- A byte of HBM as a fill or a table walk reads it: inside a view the decoded byte, as the LLC holds it or as a fill would decode it, to a
depth of `n` views (R122, log 60). What a fill finds in a line that holds an uncorrectable error is open (R125, R397). -/
def State.sourceByte (s : State) : Nat → Nat → Byte
  | 0, pa => Config.sourceByte s.serial pa
  | n + 1, pa =>
    match (s.die (pa / 2 ^ 40)).viewAt pa with
    | none => if s.poison.has (pa / 64) then Config.sourceByte s.serial pa else s.hbm.read pa
    | some (i, r) =>
      let (seg, b) := r.locate (pa - r.vbase)
      (((s.die (pa / 2 ^ 40)).segments.find? (segKey i seg)).getD (s.decodeSeg (s.sourceByte n) r seg)).getD b 0

/-- The depth to which views may stand in the source of views: one for each region of a die. -/
def viewDepth : Nat := 16

/-- Decodes a segment of region `n` of a die into its LLC (R121). In a KV region a source line with an uncorrectable error, or a non-finite
value, is reported to the page directory (R125, R431). -/
def State.fill (s : State) (d n seg : Nat) : State :=
  match (s.die d).regions.find? n with
  | none => s
  | some r =>
    let rd := s.sourceByte viewDepth
    let bad := r.kv && s.badSource r seg
    let nan := r.kv && r.nonfinite rd (seg / r.segs) (seg % r.segs)
    let bytes := s.decodeSeg rd r seg
    let s := s.modDie d fun x => { x with segments := x.segments.insert (segKey n seg) bytes }
    if bad then { s with kvReports := s.kvReports ++ [⟨d, n, seg, causeKvUe⟩] }
    else if nan then { s with kvReports := s.kvReports ++ [⟨d, n, seg, causeNonfiniteKv⟩] }
    else s

/-- A write of a byte of HBM invalidates the decoded segments of the KV regions whose source it belongs to (R431). -/
def State.dropDecoded (s : State) (pa : Nat) : State :=
  (s.die (pa / 2 ^ 40)).regions.items.foldl
    (fun s e =>
      if e.2.en && e.2.kv then
        s.modDie (pa / 2 ^ 40) fun d =>
          { d with segments := d.segments.filter fun k _ => !(decide (k / 2 ^ 40 = e.1) && e.2.touches (k % 2 ^ 40) pa) }
      else s) s

/-- The segments of a view that an access of `n` bytes needs and the LLC does not hold. -/
def State.unfilled (s : State) (d pa n : Nat) : List (Nat × Nat) :=
  (range pa n).filterMap fun a =>
    match (s.die d).viewAt a with
    | none => none
    | some (i, r) =>
      let seg := (r.locate (a - r.vbase)).1
      if ((s.die d).segments.find? (segKey i seg)).isSome then none else some (i, seg)

/-- Fills every segment that an access needs. -/
def State.fillFor (s : State) (d pa n : Nat) : State :=
  (s.unfilled d pa n).foldl
    (fun s e => if ((s.die d).segments.find? (segKey e.1 e.2)).isSome then s else s.fill d e.1 e.2) s

/-- A byte of MEM as a load reads it: through a view, or from HBM (R122). -/
def State.memByte (s : State) (pa : Nat) : Byte :=
  match (s.die (pa / 2 ^ 40)).viewAt pa with
  | none => s.hbm.read pa
  | some (i, r) =>
    let (seg, b) := r.locate (pa - r.vbase)
    (((s.die (pa / 2 ^ 40)).segments.getD (segKey i seg) []).getD b 0)

end Sys2Proof.Machine
end

