-- ==== Sys2Proof/Machine/Home.lean ====
section
/-! DEFINITION. Homes of bytes, translation, packets under way and what an access does at its home (R55, R155 to R158, R231, R232, R294 to
R304, R351). -/

namespace Sys2Proof.Machine

/-! ### Addresses -/

/-- The code of a space in FINFO and commands (R233, R252). -/
def spaceCode : Space → Nat
  | .lsp => 0
  | .csp => 1
  | .dsp => 2
  | .mem => 3
  | .peer => 4
  | .host => 5

/-- The space of a command's space code (R252). -/
def spaceOf (n : Nat) : Space :=
  match n with
  | 0 => .lsp
  | 1 => .csp
  | 2 => .dsp
  | 3 => .mem
  | 4 => .peer
  | _ => .host

/-- Where a byte lives (R294). -/
inductive HomeOf where
  | scratch (core off : Nat)
  | mem (pa : Nat)
  | host (addr : Nat)
  | peer (node va : Nat)
  deriving DecidableEq, Repr

/-- The populated offsets of a half (R146). -/
def populated (die off : Nat) : Bool := off % 2 ^ 22 < Config.halfBytes die && decide (off < 2 ^ 24)

/-- The instance of a context has ended, or is to end (R338). -/
def Status.over (x : Status) : Bool := x == .gone || x == .left

/-- The contexts of a launch whose regions hold a scratchpad byte, outside array spill areas (R155, R224). One that has not started has none yet
(R271, R337). -/
def State.tenants (s : State) (launch core off : Nat) : List Ctx :=
  s.ctxs.vals.filter fun c =>
    decide (c.who.launch = launch) && decide (c.core = core) && c.status != .placed && c.owns off 1

/-- A byte of a scratchpad lies in a region of some context of the launch. -/
def State.inLaunch (s : State) (launch core off : Nat) : Bool := !(s.tenants launch core off).isEmpty

/-- The core and offset that a CSP address of a core names (R55). -/
def cspTarget (die lcore addr : Nat) : Nat × Nat :=
  (coreKey die (lcore / 8 * 8 + addr / 2 ^ 24 % 8), addr % 2 ^ 24)

/-- The die, core and offset that a DSP flat address names (R55). -/
def dspDie (addr : Nat) : Nat := addr / 2 ^ 31 % 4
def dspCore (addr : Nat) : Nat := addr / 2 ^ 24 % 128
def dspOff (addr : Nat) : Nat := addr % 2 ^ 24

/-- The DSP flat address of an offset of a core (R55). -/
def dspAddr (core off : Nat) : Nat := core / 128 * 2 ^ 31 + core % 128 * 2 ^ 24 + off

/-- Two contexts are of one gang. -/
def State.sameGang (s : State) (j k : Nat) : Bool := s.gangs.vals.any fun g => g.ctxs.contains j && g.ctxs.contains k

/-- The key under which a byte of a core stands for a context `who` of a launch: displaced regions keep what they hold, and traffic finds it there
(R171, R417). Where regions of several contexts of the launch hold the byte, the context's own stand first, then those of its gang, then those
that are in place (R438, log 20). -/
def State.seatOf (s : State) (launch who core off : Nat) : Nat :=
  let l := s.tenants launch core off
  (((((l.find? fun c => c.key == who).or (l.find? fun c => s.sameGang c.key who)).or (l.find? fun c => !c.away)).or l.head?).map Ctx.seat).getD core

/-- A scratchpad byte that an access of a context of a launch may reach, or SPACE_FAULT (R155, R231). -/
def State.reachScratch (s : State) (launch who core off : Nat) : Except Cause HomeOf :=
  if core % 128 < Config.ncore (core / 128) && populated (core / 128) off && s.inLaunch launch core off then
    .ok (.scratch (s.seatOf launch who core off) off)
  else .error causeSpaceFault

/-! ### MEM translation (R156, R157) -/

/-- Installed memory: HBM of a verify die, less the retired pages. -/
def State.installed (s : State) (pa : Nat) : Bool :=
  (pa / 2 ^ 40 == 1 || pa / 2 ^ 40 == 2) && decide (pa % 2 ^ 40 < Config.hbmBytes) && !s.retired.has (pa / 2 ^ 12)

/-- Every byte of `n` bytes from `pa` is installed. -/
def State.installedAll (s : State) (pa n : Nat) : Bool :=
  (pa / 2 ^ 40 == 1 || pa / 2 ^ 40 == 2) && decide (pa % 2 ^ 40 + n ≤ Config.hbmBytes) &&
    s.retired.elems.all fun g => !(decide (pa / 2 ^ 12 ≤ g) && decide (g * 2 ^ 12 < pa + n))

/-- The size of the page that a leaf of a level maps: 1 GiB at level 2, 2 MiB at level 3, 4 KiB at level 4. -/
def pageSize (level : Nat) : Nat := 2 ^ (12 + 9 * (4 - level))

/-- The entry of a table; inside a decode view the walk reads the view (R122). -/
def State.tableEntry (s : State) (table va level : Nat) : Word :=
  toWord (ofBytes (bytesBy (s.sourceByte viewDepth) (table + va / 2 ^ (12 + 9 * (4 - level)) % 512 * 8) 8))

/-- Walks the tables from a level; `left` levels remain below it. The leaf is that of the 4 KiB piece that holds the address. -/
def State.walk (s : State) (root : Word) (va : Nat) : Nat → Nat → Except Cause Leaf
  | 0, _ => .error causeXlateFault
  | left + 1, table =>
    let level := 4 - left
    let e := s.tableEntry table va level
    let pa := bits e 12 40 * 2 ^ 12
    if !s.installedAll table 4096 then .error causeXlateFault
    else if bits e 0 1 = 0 || bits e 52 12 ≠ 0 || bits e 3 1 ≠ 0 then .error causeXlateFault
    else if bits e 2 1 = 1 then
      if level = 1 || pa % pageSize level ≠ 0 || !s.installedAll pa (pageSize level) then .error causeXlateFault
      else .ok ⟨root, (pa + va % pageSize level) / 4096, bits e 1 1 = 1, bits e 4 8⟩
    else if level = 4 || bits e 4 8 ≠ 0 || bits e 1 1 ≠ 0 then .error causeXlateFault
    else s.walk root va left pa

/-- The leaf that the tables under a root hold for a virtual address. -/
def State.leafOf (s : State) (root : Word) (va : Nat) : Except Cause Leaf :=
  if va / 2 ^ 48 ≠ 0 then .error causeXlateFault else s.walk root va 4 (bits root 12 40 * 2 ^ 12)

/-- The physical address that a leaf gives an address: W, the key slot and the page are examined at each use (R156, R157). -/
def State.throughLeaf (s : State) (va : Nat) (write : Bool) (l : Leaf) : Except Cause Nat :=
  if (write && !l.w) || (s.keys.find? l.slot).isNone || !s.installed (l.page * 4096) then .error causeXlateFault
  else .ok (l.page * 4096 + va % 4096)

/-- The physical address of a MEM virtual address under a root, or XLATE_FAULT. -/
def State.translate (s : State) (root : Word) (va : Nat) (write : Bool) : Except Cause Nat :=
  match s.leafOf root va with
  | .error e => .error e
  | .ok l => s.throughLeaf va write l

/-- The translation that the core of a context caches for an address under its root (R159). -/
def Ctx.cached (c : Ctx) (va : Nat) : Option Leaf := (c.tlb.find? (va / 4096)).filter fun l => l.root == c.xroot && decide (va / 2 ^ 48 = 0)

/-- The physical address of a MEM virtual address for a context: through the translation that its core caches, otherwise through the
tables (R156, R159). -/
def State.resolve (s : State) (c : Ctx) (va : Nat) (write : Bool) : Except Cause Nat :=
  match c.cached va with
  | some l => s.throughLeaf va write l
  | none => s.translate c.xroot va write

/-- The core of a context keeps the translation of an address, taking it from the tables when it has none, or drops it: which of the two is
open (R159, log 49). -/
def State.cacheLeaf (s : State) (k va : Nat) : State :=
  match s.ctx? k with
  | none => s
  | some c =>
    let tlb :=
      if Config.tlbKeeps s.serial then
        match c.cached va, s.leafOf c.xroot va with
        | none, .ok l => c.tlb.insert (va / 4096) l
        | _, _ => c.tlb
      else c.tlb.erase (va / 4096)
    { s.setCtx k { c with tlb := tlb } with serial := s.serial + 1 }

/-- The translations of the first and last of `n` bytes of a MEM access, as `cacheLeaf` says. -/
def State.cacheFor (s : State) (k : Nat) (sp : Space) (addr n : Nat) : State :=
  match sp with
  | .mem =>
    let s := s.cacheLeaf k addr
    if addr / 4096 = (addr + n - 1) / 4096 then s else s.cacheLeaf k (addr + n - 1)
  | _ => s

/-- The home of a byte for a context, or the fault that an access of it meets (R155, R157, R126). -/
def State.home (s : State) (c : Ctx) (sp : Space) (addr : Nat) (write : Bool) : Except Cause HomeOf :=
  match sp with
  | .lsp => if c.owns addr 1 && populated c.who.die addr then .ok (.scratch c.seat addr) else .error causeSpaceFault
  | .csp =>
    if addr / 2 ^ 27 = 0 then
      let (k, o) := cspTarget c.who.die c.who.lcore addr
      s.reachScratch c.who.launch c.key k o
    else .error causeSpaceFault
  | .dsp =>
    if addr / 2 ^ 33 = 0 && decide (dspDie addr < 3) then
      s.reachScratch c.who.launch c.key (coreKey (dspDie addr) (dspCore addr)) (dspOff addr)
    else .error causeSpaceFault
  | .mem =>
    if c.who.die = 0 then .error causeSpaceFault
    else
      match s.resolve c addr write with
      | .error e => .error e
      | .ok pa => if write && ((s.die (pa / 2 ^ 40)).viewAt pa).isSome then .error causeSpaceFault else .ok (.mem pa)
  | .peer => .ok (.peer (addr / 2 ^ 48) (addr % 2 ^ 48))
  | .host => .ok (.host addr)

/-- The address `n` bytes further on: a PEER address keeps its node field, a HOST address wraps (R252). -/
def Space.step (sp : Space) (addr n : Nat) : Nat :=
  match sp with
  | .peer => addr / 2 ^ 48 * 2 ^ 48 + (addr % 2 ^ 48 + n) % 2 ^ 48
  | .host => (addr + n) % 2 ^ 64
  | _ => addr + n

/-- The homes of the `n` bytes from an address, or the fault of the lowest byte that has one, with its address (R233). -/
def State.homes (s : State) (c : Ctx) (sp : Space) (write : Bool) (addr : Nat) : Nat → Except (Cause × Nat) (List HomeOf)
  | 0 => .ok []
  | n + 1 =>
    match s.home c sp addr write with
    | .error e => .error (e, addr)
    | .ok h =>
      match s.homes c sp write (sp.step addr 1) n with
      | .error e => .error e
      | .ok l => .ok (h :: l)

/-! ### Bytes at their homes -/

/-- A byte at its home. -/
def State.peek (s : State) : HomeOf → Byte
  | .scratch k o => (s.core k).get o
  | .mem pa => s.memByte pa
  | .host a => s.hostMem.read a
  | .peer n va => s.peerMem.read (n * 2 ^ 48 + va)

/-- A byte written at its home. -/
def State.poke (s : State) (h : HomeOf) (b : Byte) : State :=
  match h with
  | .scratch k o => s.modCore k fun m => m.put o b
  | .mem pa => { s.dropDecoded pa with hbm := s.hbm.write pa b, dirty := s.dirty.add (pa / 64) }
  | .host a => { s with hostMem := s.hostMem.write a b }
  | .peer n va => { s with peerMem := s.peerMem.write (n * 2 ^ 48 + va) b }

/-- Bytes written at their homes, lowest first. -/
def State.pokes (s : State) : List HomeOf → List Byte → State
  | h :: hs, b :: bs => State.pokes (s.poke h b) hs bs
  | _, _ => s

/-- The key slot of the page of an address of a context (R156, R159). -/
def State.slotAt (s : State) (c : Ctx) (va : Nat) : Nat :=
  match c.cached va with
  | some l => l.slot
  | none =>
    match s.leafOf c.xroot va with
    | .ok l => l.slot
    | .error _ => 0

/-- The lines of HBM among some homes, each with its address, stand under the key slots that those addresses name (R158). -/
def State.sealUnder (s : State) (slot : Nat → Nat) (l : List (HomeOf × Nat)) : State :=
  { s with
    sealed := l.foldl
      (fun m e =>
        match e.1 with
        | .mem pa => if slot e.2 = 0 then m.erase (pa / 64) else m.insert (pa / 64) (slot e.2)
        | _ => m) s.sealed }

/-- A byte lies in a tagged granule of its scratchpad (R272). -/
def State.taggedAt (s : State) : HomeOf → Bool
  | .scratch k o => (s.core k).tags.has (o / 16)
  | _ => false

/-- A byte lies in a line that holds an uncorrectable error (R397); a read of a decode view raises no cause in its reader (R125). -/
def State.poisoned (s : State) : HomeOf → Bool
  | .mem pa => s.poison.has (pa / 64) && ((s.die (pa / 2 ^ 40)).viewAt pa).isNone
  | .scratch k o => ((s.core k).badByte o 1).isSome
  | _ => false

/-- The first byte of a read that lies in an invalid scratchpad line, by its place in the access (R149). -/
def State.firstInvalid (s : State) (l : List HomeOf) : Option Nat :=
  l.findIdx? fun h =>
    match h with
    | .scratch k o => !(s.core k).lines.has (o / 64)
    | _ => false

/-- The 64-byte line of HBM that a byte lies in. -/
def HomeOf.line : HomeOf → Option Nat
  | .mem pa => some (pa / 64)
  | _ => none

/-- A write of every byte of a line clears its error (R397). -/
def State.cleanse (s : State) (l : List HomeOf) : State :=
  match l with
  | .scratch k o :: _ => s.modCore k fun m => m.heal o l.length
  | _ =>
    let whole := (l.filterMap HomeOf.line).eraseDups.filter fun g => decide (64 ≤ (l.filter fun h => h.line == some g).length)
    { s with poison := whole.foldl NSet.del s.poison }

/-! ### Digests (R351, R457) -/

/-- The address value of a digest record: a CSP address is rewritten as its DSP flat address. -/
def digestAddr (c : Ctx) (sp : Space) (addr : Nat) : Nat :=
  match sp with
  | .csp => let (k, o) := cspTarget c.who.die c.who.lcore addr; dspAddr k o
  | .lsp => dspAddr c.core addr
  | _ => addr

/-- The space byte of a digest record. -/
def digestSpace : Space → Nat
  | .mem => 3
  | _ => 2

/-- The hash of a record: the first 16 bytes of its SHA-384, little-endian. -/
def recordHash (l : List Byte) : BitVec 128 := BitVec.ofNat 128 (ofBytes ((sha384 l).take 16))

/-- The records of a write: one for each naturally aligned 8-byte word of which it performs a byte, with a byte mask. -/
def writeRecords (space addr : Nat) (bytes : List (Option Byte)) : List (List Byte) :=
  (range (addr / 8) ((addr + bytes.length + 7) / 8 - addr / 8)).filterMap fun w =>
    let at8 := fun j => if addr ≤ 8 * w + j && 8 * w + j < addr + bytes.length then bytes.getD (8 * w + j - addr) none else none
    let mask := (range 0 8).foldl (fun m j => m + (if (at8 j).isSome then 2 ^ j else 0)) 0
    if mask = 0 then none
    else
      some (BitVec.ofNat 8 space :: toBytes (8 * w) 8 ++ [BitVec.ofNat 8 mask] ++ (range 0 8).map fun j => (at8 j).getD 0)

/-- Whether the launches of a graph are replicated (R456, R457). -/
def State.replicated (s : State) (gid : Nat) : Bool := bits s.fab.replCtl 0 1 = 1 && bits s.fab.replCtl 16 16 = gid

/-- Folds record hashes into the context's digest and, for a replicated graph, into the step digest (R351, R457). -/
def State.fold (s : State) (k : Nat) (records : List (List Byte)) : State :=
  let sum := (records.map recordHash).foldl (· + ·) 0
  match s.ctx? k with
  | none => s
  | some c =>
    let s := s.setCtx k { c with digest := c.digest + sum }
    if s.replicated c.who.gid then { s with fab := { s.fab with digest := s.fab.digest + sum } } else s

/-- The digest records of bytes written in CSP, DSP or MEM. -/
def State.foldWrite (s : State) (k : Nat) (c : Ctx) (sp : Space) (addr : Nat) (bytes : List (Option Byte)) : State :=
  match sp with
  | .csp | .dsp | .mem => s.fold k (writeRecords (digestSpace sp) (digestAddr c sp addr) bytes)
  | _ => s

/-! ### Accesses -/

/-- What a read of `n` bytes meets: a fault with its address, or its bytes and the address of its first byte in an invalid line. -/
def State.readAt (s : State) (c : Ctx) (sp : Space) (addr n : Nat) :
    Except (Cause × Nat) (List Byte × Option Nat) :=
  match s.homes c sp false addr n with
  | .error e => .error e
  | .ok l =>
    match l.findIdx? s.poisoned with
    | some i => .error (causeEccUe, addr + i)
    | none => .ok (l.map s.peek, (s.firstInvalid l).map fun i => addr + i)

/-- The LLC fills of decoded segments that reads of bytes at their homes need. -/
def State.fillHomes (s : State) (l : List HomeOf) : State :=
  l.foldl
    (fun s h =>
      match h with
      | .mem pa => s.fillFor (pa / 2 ^ 40) pa 1
      | _ => s) s

/-- The LLC fills of decoded segments that a read needs. -/
def State.prefill (s : State) (c : Ctx) (sp : Space) (addr n : Nat) : State :=
  match s.homes c sp false addr n with
  | .ok l => s.fillHomes l
  | .error _ => s

/-- The bytes from an address are written at their homes, but for those in tagged granules (R272). -/
def State.setBytes (s : State) (c : Ctx) (addr : Nat) (l : List HomeOf) (bytes : List Byte) : State :=
  let free := (List.zip l (List.zip (range addr bytes.length) bytes)).filter fun p => !s.taggedAt p.1
  ((s.pokes (free.map (·.1)) (free.map (·.2.2))).cleanse (free.map (·.1))).sealUnder (s.slotAt c) (free.map fun p => (p.1, p.2.1))

/-- A write of bytes at its home: a fault with its address, or the state in which it has performed. Bytes in a tagged granule are
refused with BARRIER_CLOBBER while the others are written (R272). -/
def State.writeAt (s : State) (c : Ctx) (sp : Space) (addr : Nat) (bytes : List Byte) :
    State × Option (Cause × Nat) :=
  match s.homes c sp true addr bytes.length with
  | .error e => (s, some e)
  | .ok l =>
    ((s.setBytes c addr l bytes).foldWrite c.key c sp addr (List.zipWith (fun h b => if s.taggedAt h then none else some b) l bytes),
      (l.findIdx? s.taggedAt).map fun i => (causeBarrierClobber, addr + i))

/-! ### Packets -/

/-- A packet by its serial number. -/
def State.packet? (s : State) (id : Nat) : Option Packet := s.net.find? id

/-- Replaces a packet. -/
def State.setPacket (s : State) (id : Nat) (p : Packet) : State := { s with net := s.net.insert id p }

/-- Removes a packet: it has performed, or its answer has arrived. -/
def State.dropPacket (s : State) (id : Nat) : State := { s with net := s.net.erase id }

/-- A packet belongs to class R: loads, waits, tests, and the atomics that return a value (R236, R275, R321). -/
def Packet.reads (p : Packet) : Bool :=
  match p.act with
  | .load _ | .barWait _ | .barTest => true
  | .amo _ _ _ | .cas _ _ _ | .ticket _ _ _ _ => p.land.isSome
  | _ => false

/-- A packet belongs to class W: everything but plain loads, waits and tests (R236, R275, R321). A message belongs to no class (R406). -/
def Action.writes : Action → Bool
  | .load _ | .barWait _ | .barTest | .mail _ _ => false
  | _ => true

/-- The length in bytes of what a packet accesses. -/
def Action.length : Action → Nat
  | .load n => n
  | .store b | .line b => b.length
  | .amo _ _ w | .cas _ _ w => if w then 8 else 4
  | .ticket _ b _ _ => if b then 2 else 4
  | .winOpen _ _ | .winSkip _ => 4
  | _ => 16

/-- The homes of the bytes of a packet; none when it is to fault. -/
def State.place (s : State) (p : Packet) : List HomeOf :=
  match s.ctx? p.ctx with
  | none => []
  | some c =>
    match s.homes c p.space p.act.writes p.addr p.act.length with
    | .ok l => l
    | .error _ => []

/-- Two packets access a common byte. -/
def State.meet (s : State) (p q : Packet) : Bool := (s.place p).any (s.place q).contains

/-- Two packets of one core access a common byte through one space (R296). -/
def State.overlaps (s : State) (p q : Packet) : Bool := decide (p.ctx = q.ctx) && p.space == q.space && s.meet p q

/-- A packet still has to be applied at its home, and later accesses of its core to its bytes wait for that (R296). A ticketed request
that is buffered, or that was answered with RETRY, holds none back: its window orders it (log 14). -/
def Packet.unapplied (p : Packet) : Bool := p.stage == .sent || p.stage == .egress

/-- The physical cluster of a logical core, with its die. -/
def State.cluster (s : State) (die lcore : Nat) : Nat × Nat := (die, (s.die die).pcore lcore / 8)

/-- The die that a packet's home lies on; none for PEER and HOST, and for an address that does not resolve. -/
def State.homeDie (s : State) (c : Ctx) (sp : Space) (addr : Nat) : Option Nat :=
  match sp with
  | .lsp | .csp => some c.who.die
  | .dsp => some (dspDie addr)
  | .mem =>
    match s.resolve c addr false with
    | .ok pa => some (pa / 2 ^ 40)
    | .error _ => none
  | _ => none

/-- The home of an access lies in the physical cluster of its core (R299). -/
def State.inCluster (s : State) (c : Ctx) (sp : Space) (addr : Nat) : Bool :=
  match sp with
  | .lsp | .csp => true
  | .dsp => s.cluster (dspDie addr) (dspCore addr) == s.cluster c.who.die c.who.lcore
  | _ => false

/-- The key of the flush bit of a destination die and path (R303). -/
def flushBit (die : Nat) (twoHop : Bool) : Nat := die * 2 + (if twoHop then 1 else 0)

/-- The link between two dies (R370). -/
def linkOf (a b : Nat) : Nat := a + b - 1

/-- A link carries no traffic: it is down, or it retrains (R374, R378). -/
def Link.closed (l : Link) : Bool := l.down || !l.want.isEmpty

/-- The third die. -/
def viaDie (a b : Nat) : Nat := 3 - a - b

/-- The line number by which the routing table names the home of an address. -/
def State.lineAt (s : State) (c : Ctx) (sp : Space) (addr : Nat) : Nat :=
  match sp with
  | .mem =>
    match s.resolve c addr false with
    | .ok pa => 2 ^ 32 + pa / 64
    | .error _ => 0
  | _ => addr / 64

/-- A link. -/
def State.link (s : State) (l : Nat) : Link := s.links.getD l .reset

/-- The links of a path between two dies: the direct one, or those by way of the third die (R302). -/
def pathLinks (src dst : Nat) (hop : Bool) : List Nat :=
  if hop then [linkOf src (viaDie src dst), linkOf (viaDie src dst) dst] else [linkOf src dst]

/-- A link still delivers what was sent with serial number `id`: all while it is open; while it retrains, until it trains, what was sent before its
lines moved away (R302, R374); nothing while it is down (R378). -/
def Link.carries (x : Link) (id : Nat) : Bool := !x.closed || (!x.down && !x.train && decide (id < x.movedAt))

/-- A path between two dies delivers what was sent with a serial number. -/
def State.carries (s : State) (src dst : Nat) (hop : Bool) (id : Nat) : Bool := (pathLinks src dst hop).all fun l => (s.link l).carries id

/-- The routing table: whether the accesses of a core to a line of another die take the two-hop path. A line whose path carries no traffic is on the
other one (R302, R374, R378). -/
def State.twoHop (s : State) (core line src dst : Nat) : Bool :=
  let closed := fun l => (s.link l).closed
  src != dst &&
    (closed (linkOf src dst) || (Config.twoHopLine core line && !(pathLinks src dst true).any closed))

/-- A store that enters the cluster egress buffer (R299). -/
def State.buffered (s : State) (c : Ctx) (sp : Space) (addr ord sc : Nat) : Bool :=
  (sp == .dsp || sp == .mem) && (ord == 0 || sc ≤ 1) && !s.inCluster c sp addr

/-- Sends an access or event of a context; its serial number is the one the state has once its translation is cached. A write that leaves for another die sets its
flush bit (R303), and one to another package is noted for its flush and takes the node's TX (R446, R447). -/
def State.send (s : State) (k : Nat) (cl : Cluster) (sp : Space) (addr : Nat) (act : Action) (ord sc : Nat)
    (land : Option Nat) (chunk : Nat) (after : List Nat) : State :=
  let s := s.cacheFor k sp addr act.length
  match s.ctx? k with
  | none => s
  | some c =>
    let hop :=
      match s.homeDie c sp addr with
      | some d => s.twoHop c.core (s.lineAt c sp addr) c.who.die d
      | none => false
    let egress :=
      match act with
      | .store _ => s.buffered c sp addr ord sc
      | _ => false
    let p : Packet :=
      { ctx := k, lcore := c.who.lcore, die := c.who.die, cl := cl, space := sp, addr := addr, act := act, ord := ord, sc := sc,
        land := land, chunk := chunk, stage := if egress then .egress else .sent, twoHop := hop, data := [], cause := 0,
        uninit := none, faddr := 0, sseq := s.fab.tx.getD (addr / 2 ^ 48) 0, merged := [],
        served := (ord == 0 || decide (sc ≤ 1)) && !c.fenced, took := [], after := after, sentAt := (s.die c.who.die).time }
    let c :=
      match s.homeDie c sp addr with
      | some d => if act.writes && d != c.who.die then { c with flushBits := c.flushBits.note (flushBit d hop) s.serial } else c
      | none => c
    let c := if sp == .peer && act.writes then { c with peerNodes := c.peerNodes.note (addr / 2 ^ 48) s.serial } else c
    let fab := if sp == .peer then { s.fab with tx := s.fab.tx.insert (addr / 2 ^ 48) (p.sseq + 1) } else s.fab
    { (s.setCtx k c).setPacket s.serial p with serial := s.serial + 1, fab := fab }

/-- What the deferred fault of an access is of. -/
def Action.deferral : Action → Deferral
  | .ticket _ _ _ _ | .winSkip _ => .window
  | _ => .store

/-- A deferred fault of a store or other word without a landing (R232). -/
def State.deferFault (s : State) (k seq : Nat) (kind : Deferral) (i : TrapInfo) : State :=
  s.modCtx k fun c => { c with deferred := c.deferred ++ [⟨seq, kind, i⟩] }

/-- A fault of a packet at its home: taken at its landing when it has one, deferred otherwise (R231, R232). -/
def State.failPacket (s : State) (id : Nat) (p : Packet) (cause : Cause) (addr : Nat) : State :=
  let fin := finfoOf (spaceCode p.space) p.act.writes
  match p.land with
  | some _ => s.setPacket id { p with stage := .answered, cause := cause, faddr := addr }
  | none => (s.dropPacket id).deferFault p.ctx id p.act.deferral (.landing cause p.cl (toWord addr) fin)

/-- The buffered stores of the cluster of a core, oldest first. -/
def State.egress (s : State) (die lcore : Nat) : List (Nat × Packet) :=
  s.net.items.filter fun e => e.2.stage == .egress && s.cluster e.2.die e.2.lcore == s.cluster die lcore

/-- The byte that a buffered store is to write at a home. -/
def State.bufferedAt (s : State) (p : Packet) (h : HomeOf) : Option Byte :=
  match p.act with
  | .store b => if s.taggedAt h then none else ((List.zip (s.place p) b).find? fun e => e.1 = h).map fun e => e.2
  | _ => none

/-- A load that the egress buffer may serve (R299). -/
def Packet.fromBuffer (p : Packet) : Bool :=
  match p.act with
  | .load _ => p.served
  | _ => false

/-- A read that the egress buffer never serves, or a change at the home that reads: an acquire at die scope or wider, a read after such a fence, an
atomic (R299). -/
def Packet.atHomeOnly (p : Packet) : Bool :=
  match p.act with
  | .load _ => !p.served
  | .amo _ _ _ | .cas _ _ _ | .ticket _ _ _ _ | .winOpen _ _ | .winSkip _ => true
  | _ => false

/-- A context has taken bytes of a buffered store (R308). -/
def State.hasTaken (s : State) (k id : Nat) : Bool := ((s.ctx? k).map fun c => c.took.has id).getD false

/-- A buffered store `y` of the cluster of a read `x` that is applied at its home is to perform first: an earlier one to its bytes, or one whose bytes
its core has taken (R296, R299, log 50). -/
def State.bufferFirst (s : State) (y x : Nat × Packet) : Bool :=
  y.2.stage == .egress && x.2.atHomeOnly && s.cluster y.2.die y.2.lcore == s.cluster x.2.die x.2.lcore &&
    (decide (y.1 < x.1) || s.hasTaken x.2.ctx y.1) && s.meet y.2 x.2

/-- Access `y` is to be applied before access `x` of its core to its bytes (R296). A load that the egress buffer may serve does not wait for a buffered
store of its own core (R299, R300). -/
def State.ownFirst (s : State) (y x : Nat × Packet) : Bool :=
  decide (y.1 < x.1) && y.2.unapplied && !(x.2.fromBuffer && y.2.stage == .egress) && s.overlaps y.2 x.2

/-- Accesses that are to be applied after those of a list: through the order of their core, of the buffer or of a path (R296, R299, R302). -/
def State.heldBy (s : State) (l : List (Nat × Packet)) (x : Nat × Packet) : Bool :=
  x.2.unapplied && l.any fun y =>
    s.ownFirst y x || s.bufferFirst y x ||
      (decide (y.1 < x.1) &&
        ((y.2.stage == .egress && x.2.stage == .egress && s.cluster y.2.die y.2.lcore == s.cluster x.2.die x.2.lcore && s.meet y.2 x.2) ||
          (s.links.vals.any (fun v => v.movedAt != 0) && decide (y.2.ctx = x.2.ctx))))

/-- The accesses under way that wait, one for the other, for those of a list. -/
def State.followers (s : State) : Nat → List (Nat × Packet) → List (Nat × Packet)
  | 0, l => l
  | n + 1, l =>
    let more := s.net.items.filter fun e => !l.contains e && s.heldBy l e
    if more.isEmpty then l else s.followers n (l ++ more)

/-- The buffered stores that may serve a load of a context: every earlier one, and a later one of another core that does not wait, through others, for
the load or for a later read of its core that goes to its home (R296, R299, log 50). -/
def State.servers (s : State) (id : Nat) (p : Packet) (c : Ctx) : List (Nat × Packet) :=
  let l := s.egress c.who.die c.who.lcore
  if l.all fun e => decide (e.1 < id) then l
  else
    let mine := s.net.items.filter fun e => decide (id < e.1) && decide (e.2.ctx = p.ctx) && e.2.atHomeOnly && e.2.unapplied
    let after := (s.followers s.net.items.length ((id, p) :: mine)).map (·.1)
    l.filter fun e => decide (e.1 < id) || (e.2.ctx != p.ctx && !after.contains e.1)

/-- The newest byte that buffered stores hold for a home, with the store it comes from (R299). A store that is to fault gives none. -/
def State.egressByte (s : State) (l : List (Nat × Packet)) (h : HomeOf) : Option (Nat × Byte) :=
  (l.filterMap fun e => (s.bufferedAt e.2 h).map fun x => (e.1, x)).getLast?

/-- A buffered store of a core's cluster still holds bytes that a command must find at, or leave to, their homes (R299). -/
def State.bufferHolds (s : State) (die lcore : Nat) (l : List HomeOf) : Bool :=
  (s.egress die lcore).any fun e => (s.place e.2).any l.contains

/-- A logical core of a die holds a context. -/
def State.occupied (s : State) (die l : Nat) : Bool :=
  s.ctxs.vals.any fun c => c.who.die == die && c.who.lcore == l

/-- A logical core of a die holds a context that is halted and still to be saved. -/
def State.leavingCore (s : State) (die l : Nat) : Bool :=
  s.ctxs.vals.any fun c => c.who.die == die && c.who.lcore == l && c.status == .halted

/-- The logical core that is resident on a physical core (R340): one whose context is halted, until it is saved (R171, R251); otherwise the one whose
turn it is, or the lowest that holds a context. -/
def State.turnOf (s : State) (die p : Nat) : Option Nat :=
  let here := (range 0 (Config.ncore die)).filter fun l => decide ((s.die die).pcore l = p)
  ((here.find? (s.leavingCore die)).or
    (((s.die die).turns.find? p).filter fun t => here.contains t && s.occupied die t)).or (here.find? (s.occupied die))

/-- A logical core is resident on its physical core. -/
def State.hasTurn (s : State) (die l : Nat) : Bool :=
  match s.turnOf die ((s.die die).pcore l) with
  | some t => decide (t = l)
  | none => true

/-- Traffic of a launch to a scratchpad byte waits at the network port: the logical core is not resident (R340, log 20). -/
def State.portClosedAt (s : State) (launch core off : Nat) : Bool :=
  s.inLaunch launch core off && !s.hasTurn (core / 128) (core % 128)

/-- Traffic of a context to an address waits at a network port; that of a halted context, for which its save waits, does not (R171, log 20). -/
def State.portClosed (s : State) (c : Ctx) (sp : Space) (addr : Nat) : Bool :=
  c.status != .halted &&
  match sp with
  | .lsp => s.portClosedAt c.who.launch c.core addr
  | .csp => let (k, o) := cspTarget c.who.die c.who.lcore addr; s.portClosedAt c.who.launch k o
  | .dsp => s.portClosedAt c.who.launch (coreKey (dspDie addr) (dspCore addr)) (dspOff addr)
  | _ => false

/-- Traffic of a packet waits at a network port. -/
def State.waitsAtPort (s : State) (p : Packet) : Bool :=
  match s.ctx? p.ctx with
  | none => false
  | some c => s.portClosed c p.space p.addr

/-- The path that an access takes between two dies: that of the routing table as it was sent, or the other one where that carries nothing now; none while
it is held at its source (R302, R374, R378). -/
def State.pathOf (s : State) (id : Nat) (p : Packet) (src dst : Nat) : Option Bool :=
  if s.carries src dst p.twoHop id then some p.twoHop else if s.carries src dst (!p.twoHop) id then some (!p.twoHop) else none

/-- A flush marker that a core sent down a path of a destination die, with serial number `m`, has not been gathered: an access that went down it
before is still to be applied (R302). -/
def State.markerOut (s : State) (p : Packet) (src dst : Nat) (path : Bool) (m : Nat) : Bool :=
  s.net.items.any fun e =>
    decide (e.1 < m) && e.2.stage == .sent && decide (e.2.die = p.die) && decide (e.2.lcore = p.lcore) &&
      ((s.ctx? e.2.ctx).bind fun c => s.homeDie c e.2.space e.2.addr) == some dst && s.pathOf e.1 e.2 src dst == some path

/-- Traffic to another die is held at its source: neither path carries it, or its line has moved, away from its path of the routing table or back to it,
and the marker of its core down the old path has not been gathered (R302). -/
def State.pathHeld (s : State) (id : Nat) (p : Packet) (c : Ctx) : Bool :=
  let src := c.who.die
  match s.homeDie c p.space p.addr with
  | some dst =>
    src != dst &&
      (match s.pathOf id p src dst with
       | none => true
       | some hop =>
         let table := s.links.vals.any (fun v => v.movedAt != 0) && Config.twoHopLine c.core (s.lineAt c p.space p.addr)
         (pathLinks src dst table).any fun l =>
           let x := s.link l
           let old := if x.closed then table else !table
           x.movedAt != 0 && decide (x.movedAt ≤ id) && old != hop && s.markerOut p src dst old x.movedAt)
  | none => p.space == .host && src != 1 && (s.pathOf id p src 1).isNone

/-- Bytes from a PEER address share a 64-byte line with a request of this package that has still to be applied there, of those numbered below
`id`: the destination applies them in the order of their SSEQ (R445). -/
def State.peerBehind (s : State) (id : Nat) (sp : Space) (addr n : Nat) : Bool :=
  sp == .peer &&
    s.net.items.any fun e =>
      e.2.space == .peer && decide (e.1 < id) && e.2.unapplied && decide (e.2.addr / 64 ≤ (addr + n - 1) / 64) &&
        decide (addr / 64 ≤ (e.2.addr + e.2.act.length - 1) / 64)

/-- The home of an address is isolated by a reset; HOST traffic of the other dies passes through VD0 (R379). -/
def State.isolated (s : State) (c : Ctx) (sp : Space) (addr : Nat) : Bool :=
  match s.homeDie c sp addr with
  | some d => (s.die d).resetting
  | none => sp == .host && c.who.die != 1 && (s.die 1).resetting

/-- The home of a packet is isolated by a reset. -/
def State.aborted (s : State) (c : Ctx) (p : Packet) : Bool := s.isolated c p.space p.addr

/-- A packet is held at its source by the paths between dies; one that a reset answers with an error completion is not. -/
def State.heldAtSource (s : State) (id : Nat) (p : Packet) : Bool :=
  match s.ctx? p.ctx with
  | none => false
  | some c => !s.aborted c p && s.pathHeld id p c

/-- New traffic of a core to an address finds no open path to its die (R374, R378). -/
def State.pathShut (s : State) (c : Ctx) (sp : Space) (addr : Nat) : Bool :=
  match s.homeDie c sp addr with
  | some d => d != c.who.die && !s.isolated c sp addr && [false, true].all fun hop => (pathLinks c.who.die d hop).any fun l => (s.link l).closed
  | none => false

/-- A packet may be applied at its home now: it has left the buffer, the accesses of its core to its bytes that issued before it
have been applied (R296), its path carries it (R302), those of its package to its line in another one have been (R445), what it is to follow has
been, and no buffered store holds it back (R299). -/
def State.enabled (s : State) (id : Nat) (p : Packet) : Bool :=
  p.stage == .sent && !s.waitsAtPort p && (s.net.items.all fun e => !(s.ownFirst e (id, p) || s.bufferFirst e (id, p))) &&
    !s.heldAtSource id p && !s.peerBehind id p.space p.addr p.act.length && p.after.all fun a => (s.net.find? a).isNone

/-- What the cluster's buffer holds when a read of a context is applied: the core has heard of it, and learnt of it when the read is an acquire, at
its scope (R308, R309). -/
def State.hear (s : State) (p : Packet) : State :=
  s.modCtx p.ctx fun c =>
    let ids := ((s.egress p.die p.lcore).filter fun e => decide (e.2.ctx ≠ p.ctx)).map (·.1)
    let v := p.sc * 2 + (if p.act.writes then 1 else 0)
    { c with
      heard := c.heard.addAll ids
      learnt := if p.ord % 2 = 1 then ids.foldl (fun m n => m.insert n (max v (m.getD n 0))) c.learnt else c.learnt }

/-- The places of bytes that the buffer does not serve, and whose scratchpad line it does not make valid either. -/
def unserved (l : List HomeOf) (hits : List Bool) : List HomeOf :=
  let block := fun h : HomeOf =>
    match h with
    | .scratch k o => HomeOf.scratch k (o / 64)
    | h => h
  let served := ((List.zip l hits).filter (·.2)).map fun e => block e.1
  l.filter fun h => !served.contains (block h)

/-- A load at its home, or from the egress buffer for the bytes that it holds: what its home would answer to those counts for nothing (R226, R299,
R310). -/
def State.applyLoad (s : State) (id : Nat) (p : Packet) (c : Ctx) (n : Nat) : State :=
  let s := s.prefill c p.space p.addr n
  match s.homes c p.space false p.addr n with
  | .error (e, a) => s.failPacket id p e a
  | .ok l =>
    let servers := if p.served then s.servers id p c else []
    let hits := l.map (s.egressByte servers)
    let rest := unserved l (hits.map Option.isSome)
    match (List.zip l hits).findIdx? fun e => e.2.isNone && s.poisoned e.1 with
    | some i => s.failPacket id p causeEccUe (p.addr + i)
    | none =>
      let inv := (l.findIdx? fun h => rest.contains h && (s.firstInvalid [h]).isSome).map fun i => p.addr + i
      let src := hits.filterMap fun o => o.map Prod.fst
      ((s.hear p).modCtx p.ctx fun c => { c with took := c.took.addAll src }).setPacket id { p with
        stage := .answered
        data := List.zipWith (fun h o => (o.map Prod.snd).getD (s.peek h)) l hits
        took := src
        faddr := inv.getD 0
        uninit := inv.map fun a => uninitWord (spaceCode p.space) (a / 64 * 64) }

/-- A store at its home (R227, R232). -/
def State.applyStore (s : State) (id : Nat) (p : Packet) (c : Ctx) (bytes : List Byte) : State :=
  let (t, f) := s.writeAt c p.space p.addr bytes
  match f with
  | none => t.dropPacket id
  | some (e, a) => t.failPacket id p e a

/-- The credits of an `mcast` lose the bytes of a line that faulted (R285). -/
def State.uncredit (s : State) (id n : Nat) : State :=
  { s with net := s.net.map fun p =>
      match p.act with
      | .mcCredit b arrive => if p.after.contains id then { p with act := .mcCredit (b - n) arrive } else p
      | _ => p }

/-- A line of an `mcast` at one destination: a faulting line writes nothing there and is not credited (R285). -/
def State.applyLine (s : State) (id : Nat) (p : Packet) (c : Ctx) (bytes : List Byte) : State :=
  match s.homes c p.space true p.addr bytes.length with
  | .error (e, a) => (s.uncredit id bytes.length).failPacket id p e a
  | .ok l =>
    match l.findIdx? s.taggedAt with
    | some i => (s.uncredit id bytes.length).failPacket id p causeBarrierClobber (p.addr + i)
    | none => (s.writeAt c p.space p.addr bytes).1.dropPacket id

/-! ### Gates (R234 to R237, R303, R305) -/

/-- No flush is under way for a write issued before a serial number. -/
def Ctx.flushedBefore (c : Ctx) (seq : Nat) : Bool :=
  match c.flushing with
  | none => true
  | some f => decide (seq ≤ f.first)

/-- A load has yet to perform: its data has not come. An atomic has performed when its home has applied it (R300, R321). -/
def Packet.readOpen (p : Packet) : Bool := p.reads && !(p.act.writes && p.stage == .answered)

/-- A store, a barrier event or an atomic has yet to perform at a scope: of a store the table of R300 tells, an event or atomic performs when its home
applies it, at every scope (R275, R321). -/
def Packet.writeOpen (p : Packet) (sc : Nat) : Bool :=
  match p.act with
  | .load _ | .barWait _ | .barTest | .mail _ _ => false
  | .store _ | .line _ => decide (4 ≤ sc) || (p.space != .peer && p.space != .host && decide (1 ≤ sc) && !(sc == 1 && p.stage == .egress))
  | _ => p.stage != .answered

/-- What a release covers besides its own accesses has performed: what acquires of its scope or wider have learnt of, of the classes it waits for; a
fence whose PRED names R takes every read before it as such an acquire (R308, R309). -/
def State.passedOn (s : State) (c : Ctx) (g : Gate) : Bool :=
  match g.passes with
  | none => true
  | some n =>
    (c.learnt.items.all fun e => (s.net.find? e.1).isNone || decide (e.2 / 2 < n) || (g.loads.isEmpty && e.2 % 2 == 0)) &&
      (!g.reads || c.heard.elems.all fun r => (s.net.find? r).isNone)

/-- Every access that a gate covers has performed at its scope. -/
def State.gateMet (s : State) (k : Nat) (c : Ctx) (g : Gate) : Bool :=
  (s.net.items.all fun e =>
    !(decide (e.2.ctx = k) && decide (e.1 < g.seq) &&
      ((e.2.readOpen && g.loads.contains e.2.space) || (e.2.writeOpen g.sc && g.stores.contains e.2.space)))) &&
    s.passedOn c g &&
    (!g.flush || (c.flushBits.vals.all fun n => decide (g.seq ≤ n)) && c.flushedBefore g.seq) &&
    (s.cmds.items.all fun e => !(decide (e.2.ctx = k) && decide (e.2.pushed < g.cmds))) &&
    (!g.nodes || (c.peerNodes.vals.all fun n => decide (g.seq ≤ n)) && c.flushedBefore g.seq) &&
    (!g.reads || c.took.elems.all fun r => (s.net.find? r).isNone)

/-- The spaces that a release at a scope waits for (R305). -/
def releaseSpaces (sc : Nat) : List Space :=
  if sc = 0 then [] else if sc ≤ 3 then [.csp, .dsp, .mem] else [.csp, .dsp, .mem, .peer, .host]

/-- The gate of a release at a scope, for everything issued before now (R305). -/
def State.releaseGate (s : State) (sc : Nat) : Gate :=
  ⟨s.serial, releaseSpaces sc, releaseSpaces sc, sc, 0, decide (2 ≤ sc), decide (4 ≤ sc), false, if 2 ≤ sc then some sc else none⟩

/-- A gate on commands as the page directory takes it: the accesses before it are predecessors of a signal at package scope, with all that acquires have
learnt of (R440). -/
def Gate.atPackage (g : Gate) : Gate :=
  { g with sc := max g.sc 3, flush := g.flush || !g.stores.isEmpty, passes := some 1 }

/-- A context drops what it holds of buffered stores that have performed. -/
def Ctx.prune (c : Ctx) (gone : Nat → Bool) : Ctx :=
  { c with took := c.took.delIf gone, heard := c.heard.delIf gone, learnt := c.learnt.filter fun n _ => !gone n }

/-- The number of a fabric node among the destinations of a flush; dies are 0 to 2. -/
def nodeDest (node : Nat) : Nat := 4 + node

/-- Starts a flush down the named paths and to the named nodes, unless one is under way: what is written from now on is not of it (R303,
R447). -/
def Ctx.flushTo (c : Ctx) (paths nodes : List Nat) : Ctx :=
  match c.flushing with
  | some _ => c
  | none =>
    if paths.isEmpty && nodes.isEmpty then c
    else
      let firsts := paths.filterMap c.flushBits.find? ++ nodes.filterMap c.peerNodes.find?
      { c with
        flushing := some
          { sent := false, seq := 0, first := firsts.foldl min (firsts.headD 0),
            wait := (paths.map (· / 2)).eraseDups ++ nodes.map nodeDest, paths := paths }
        flushBits := c.flushBits.filter fun b _ => !paths.contains b
        peerNodes := c.peerNodes.filter fun n _ => !nodes.contains n }

/-- Starts the flush that a gate needs: of the dies whose bits are set, and the nodes written to (R303, R447). -/
def Ctx.startFlush (c : Ctx) (g : Gate) : Ctx :=
  c.flushTo (if g.flush then c.flushBits.keys else []) (if g.nodes then c.peerNodes.keys else [])

/-- A deferred fault belongs to a store, or to a flush, that a gate waits for (R232, R304): a flush of nodes writes the space PEER (R447). -/
def Gate.covers (g : Gate) (e : Deferred) : Bool :=
  let sp := spaceOf (bits e.info.finfo 0 3)
  if e.kind == .flush then (if sp == .peer then g.nodes else g.flush) else decide (e.seq < g.seq) && g.stores.contains sp

/-- The fault that a gate takes: the first in issue order, with MORE set when there are others (R232, R233), and the context without
the faults found. -/
def Ctx.takeDeferred (c : Ctx) (p : Deferred → Bool) : Option (TrapInfo × Ctx) :=
  match c.deferred.filter p with
  | [] => none
  | e :: l =>
    let f := l.foldl (fun a b => if b.seq < a.seq then b else a) e
    let i := if l.isEmpty then f.info else { f.info with finfo := f.info.finfo ||| 0x80 }
    some (i, { c with deferred := c.deferred.filter fun e => !p e })

/-- A word that gates its own cycle: it waits until the gate is met, then takes a fault that the gate covers, and otherwise has its
effect (R232, R237). A flush that the gate needs is started. -/
def State.gateWord (s : State) (g : Gate) (b : State → Body) : Body :=
  let k := s.focus.1
  match s.ctx? k with
  | none => b s
  | some c =>
    if !s.gateMet k c g then .gated fun c => c.startFlush g
    else
      match c.takeDeferred g.covers with
      | some (i, _) => .trapWith (fun c => { c with deferred := c.deferred.filter fun e => !g.covers e }) i
      | none => b s

end Sys2Proof.Machine
end

