-- ==== Sys2Proof/Machine/Records.lean ====
section
/-! DEFINITION. The records of a save area, and answers that come while a context is saved (R37, R168, R169, R172). -/

namespace Sys2Proof.Machine

/-! ### Records (R37, R169) -/

/-- Word 0 of a record. -/
def Saved.word0 (r : Saved) : Nat :=
  r.d % 2 ^ 32 + r.pos * 2 ^ 37 + r.code * 2 ^ 52 + r.cl * 2 ^ 58 + r.kind * 2 ^ 60

/-- The position of the queue entry that a landing reserved. -/
def Ctx.entryPos (c : Ctx) (q id : Nat) : Nat := ((c.queue q).findIdx? fun e => e.id = id).getD 0

/-- The record of one delivery code of a landing. -/
def Landing.codeRecord (l : Landing) (c : Ctx) (d : BitVec 6) (v : Word) (qid : Nat) : List Saved :=
  if d = 63 then []
  else
    let f := d.toNat / 8
    let q := outQueue l.cl (d.toNat % 8)
    [{ d := l.due - c.time, kind := if f < 6 then 0 else if f = 6 then 1 else 2,
       cl := clIndex l.cl, code := d.toNat, pos := if f = 7 then c.entryPos q qid else 0, arr := decide (l.missing = 0),
       cause := l.cause.toNat, value := if l.missing = 0 then v else 0,
       data := if l.missing = 0 then none else some (List.replicate 256 0), land := some l.id, hold := none }]

/-- The value that a landing writes to an element. -/
def Landing.valueAt (l : Landing) (e : Nat) : Option (BitVec 16) := (l.elems.findIdx? (· = e)).map fun n => l.vals.getD n 0

/-- A landing is made before another one: it is due earlier, or in the same cycle and issued earlier. -/
def Landing.before (l x : Landing) : Bool := decide (l.due < x.due) || (l.due == x.due && decide (l.id < x.id))

/-- What an element holds when a landing of a context is made: its content, or what the landings before that one write (log 18). -/
def Ctx.elemThen (c : Ctx) (l : Landing) (e : Nat) : BitVec 16 :=
  let first := c.landings.filter fun x => x.before l && decide (x.missing = 0) && !x.discarded && x.elems.contains e
  match first with
  | [] => c.mrf.get e
  | a :: r => ((r.foldl (fun a b => if a.before b then b else a) a).valueAt e).getD 0

/-- The slot of one tile of an MRF landing: lanes that the landing does not write hold what their elements hold when it is made (log 18). -/
def Landing.slot (l : Landing) (c : Ctx) (code : BitVec 15) : List Byte :=
  (range 0 128).flatMap fun i => toBytes ((l.valueAt (laneElem code i)).getD (c.elemThen l (laneElem code i))).toNat 2

/-- The records of a landing (R169): one for each delivery, predicate and tile, or one that names nothing. -/
def Landing.records (l : Landing) (c : Ctx) : List Saved :=
  let cause := if l.cause = 0 && l.uninit.isSome && c.umode = 0 then causeUninitRead else l.cause
  let l := { l with cause := cause }
  let blank : Saved :=
    { d := l.due - c.time, kind := 0, cl := clIndex l.cl, code := 63, pos := 0, arr := decide (l.missing = 0),
      cause := l.cause.toNat, value := 0, data := if l.missing = 0 then none else some (List.replicate 256 0),
      land := some l.id, hold := none }
  let codes := l.codeRecord c l.d1 l.v1 l.q1 ++ l.codeRecord c l.d2 l.v2 l.q2
  let preds := (setBitsOf l.pmask.toNat 0 8).map fun j =>
    { blank with kind := 1, code := 48 + j, value := boolWord (l.pval.getLsbD j) }
  let tiles := (l.elems.map (· / 16384)).eraseDups.map fun t =>
    let code := BitVec.ofNat 15 (t * 512 + (l.operand.getD 0).toNat % 512)
    { blank with kind := 3, code := 0, pos := code.toNat,
                 data := some (if l.missing = 0 then l.slot c code else List.replicate 256 0) }
  match codes ++ preds ++ tiles with
  | [] => [blank]
  | r => r

/-- The 32 bytes of a record. -/
def recordImage (e : Saved × Option Nat) : List Byte :=
  let w1 := (if e.1.arr then 1 else 0) + e.1.cause * 2 ^ 16 + (e.2.getD 0) * 2 ^ 32
  toBytes e.1.word0 8 ++ toBytes w1 8 ++ toBytes (if e.1.arr then e.1.value.toNat else 0) 8 ++ toBytes 0 8

/-! ### Areas -/

/-- Where an area lies: its core and offset. -/
def areaHome (a : Nat) : Nat × Nat := (coreKey (dspDie a) (dspCore a), dspOff a)

/-- Bytes one after the other, but for those in tagged granules. -/
def CoreState.putsFree (m : CoreState) (o : Nat) : List Byte → CoreState
  | [] => m
  | b :: l => CoreState.putsFree (if m.tags.has (o / 16) then m else m.put o b) (o + 1) l

/-- Writes bytes from an offset upward, but for those in tagged granules (R271, R272). -/
def CoreState.putFree (m : CoreState) (o : Nat) (l : List Byte) : CoreState :=
  if m.tagged o l.length then m.putsFree o l else m.putBytes o l

/-- Writes bytes at a place of an area or chunk, through the network ports. -/
def State.putArea (s : State) (a off : Nat) (bytes : List Byte) : State :=
  s.modCore (areaHome a).1 fun m => m.putFree ((areaHome a).2 + off) bytes

/-! ### Answers -/

/-- The record of a landing whose data has arrived while its context is saved: the data is in its slot too (R172, log 18). -/
def Saved.fill (old new : Saved) : Saved :=
  { new with data := if new.data.isSome then new.data else if old.data.isSome then some (toBytes new.value.toNat 8 ++ List.replicate 248 0) else none }

/-- Writes a record and its slot into an area. -/
def State.putRecord (s : State) (a n : Nat) (e : Saved × Option Nat) : State :=
  let s := s.putArea a (0x2800 + 32 * n) (recordImage e)
  match e.2 with
  | none => s
  | some slot => s.putArea a (0x4800 + 256 * slot) (e.1.data.getD [])

/-- The record that stands for an old one after an answer to a landing. -/
def Ctx.refill (c : Ctx) (id : Nat) (e : Saved × Option Nat) : Saved × Option Nat :=
  match c.landings.find? fun l => l.id = id with
  | none => e
  | some l =>
    if e.1.land = some id && !e.1.arr && decide (l.missing = 0) then
      match (l.records c).find? fun r => r.word0 = e.1.word0 with
      | none => e
      | some r => (e.1.fill r, e.2)
    else e

/-- The records of a saved context follow an answer into its save area (R172). -/
def State.answerSaved (s : State) (k id : Nat) : State :=
  match s.ctx? k with
  | none => s
  | some c =>
    if c.status ≠ .saved || c.ctxArea = 0 then s
    else
      let l := c.records.map (c.refill id)
      let t := (List.zip (range 0 l.length) (List.zip c.records l)).foldl
        (fun (s : State) e => if e.2.1 = e.2.2 then s else s.putRecord c.ctxArea.toNat e.1 e.2.2) s
      t.modCtx k fun c => { c with records := l }

/-- The landing with a given id gets something of what it waits for: in its landing-buffer entry, or in its slot of the save area
(R139, R172). -/
def State.answer (s : State) (k id : Nat) (f : Landing → Landing) : State :=
  (s.modCtx k fun c => c.modLanding id f).answerSaved k id

end Sys2Proof.Machine
end

