-- ==== Sys2Proof/Machine/Memory.lean ====
section
/-! DEFINITION. X's loads and stores in the six spaces (R225 to R233). -/

namespace Sys2Proof.Machine

/-- The context in focus, inside a body. -/
def withCtx (s : State) (b : Ctx → Body) : Body :=
  match s.ctx? s.focus.1 with
  | none => .ok s
  | some c => b c

/-- A fault at issue of the cluster in focus. -/
def State.fault (s : State) (cause : Cause) : Body := .trap (.issue cause s.focus.2)

/-- A fault at issue that the cluster in focus finds in what its word reaches, after the word has taken its core ports (R151, R237). -/
def State.faultLate (s : State) (c : Ctx) (cause : Cause) : Body :=
  .late (fun d => { d with xPort := c.xPort }) (.issue cause s.focus.2)

/-- LSP_LAT of the core in focus (R93). -/
def State.lspLat (s : State) : Nat :=
  match s.ctx? s.focus.1 with
  | none => 4
  | some c => Config.lspLat c.who.die

/-- The default landing offset of a space (R230). -/
def ldef : Space → Nat
  | .lsp => 0
  | .csp => Config.ldefCsp
  | .dsp => Config.ldefDsp
  | .mem => Config.ldefMem
  | .peer => Config.ldefPeer
  | .host => Config.ldefHost

/-- The address a load forms: a + b, in bits [47:0] alone for PEER (R55). -/
def loadAddr (sp : Space) (a b : Word) : Word :=
  match sp with
  | .peer => toWord (bits a 48 16 * 2 ^ 48 + (bits a 0 48 + bits b 0 48) % 2 ^ 48)
  | _ => a + b

/-- FAB_NODE and the peer table let the package send to a node (R443). -/
def State.peerOk (s : State) (node : Nat) : Bool :=
  let e := s.fab.ents.getD node 0
  decide (node < 1024) && bits s.fab.node 16 1 == 1 && bits s.fab.node 0 10 != node && bits e 0 1 == 1 && bits e 1 1 == 1

/-- Step 1 of R229: the address value is outside the layout of its space. -/
def State.badAddress (s : State) (c : Ctx) (sp : Space) (addr : Word) : Bool :=
  match sp with
  | .lsp => bits addr 24 40 != 0
  | .csp => bits addr 27 37 != 0
  | .dsp => bits addr 33 31 != 0 || bits addr 31 2 == 3
  | .mem => c.who.die == 0
  | .peer => !s.peerOk (bits addr 48 16)
  | .host => false

/-- Steps 1 to 3 of R229; `n` is the size, `align` the alignment. -/
def State.checkAccess (s : State) (c : Ctx) (sp : Space) (addr : Word) (n align : Nat) : Option Cause :=
  if s.badAddress c sp addr then some causeSpaceFault
  else if addr.toNat % align ≠ 0 then some causeMisalign
  else if sp == .lsp && !(c.owns addr.toNat n && populated c.who.die addr.toNat) then some causeSpaceFault
  else none

/-- A local store meets a tagged granule (R272). -/
def State.clobbers (s : State) (c : Ctx) (sp : Space) (addr : Word) (n : Nat) : Bool :=
  sp == .lsp && (s.core c.core).tagged addr.toNat n

/-- A load may allot a landing-buffer entry (R141, R444). -/
def Ctx.mayAllot (c : Ctx) (sp : Space) : Bool :=
  decide (c.lndcnt < 64) && (sp != .peer || decide ((c.landings.filter fun l => l.lbuf && l.peer).length < 16))

/-- The X word in focus uses the core port of a half in this cycle (R151). -/
def Ctx.usePort (c : Ctx) (off : Nat) : Ctx := { c with xPort := halfOf off :: c.xPort }

/-- The first byte of a local access in an invalid line (R149). -/
def CoreState.invalidAt (m : CoreState) (o n : Nat) : Option Nat := (m.invalidLine o n).map fun l => max o (l * 64)

/-- Reads an LSP operand that lands after LSP_LAT (R149, R152, R226, R228): a landing with its value, and with the fault to take when
a line is invalid or holds an uncorrectable error. -/
def lspLanding (s : State) (c : Ctx) (l : Landing) (o n : Nat) : Landing :=
  let l :=
    match (s.core c.core).badByte o n with
    | none => l
    | some a => l.fail causeEccUe (toWord a) (finfoOf 0 false)
  match (s.core c.core).invalidAt o n with
  | none => l
  | some a => l.noteUninit (uninitWord 0 (a / 64 * 64)) (toWord a) (finfoOf 0 false)

/-- The value of a loaded scalar (R226). -/
def loadValue (bytes : List Byte) (n : Nat) (sx : Bool) : Word :=
  if sx then signExtend (ofBytes bytes) (8 * n) else toWord (ofBytes bytes)

/-- The lanes of 256 loaded bytes (R228). -/
def vectorVals (bytes : List Byte) : List (BitVec 16) := (pieces 2 128 bytes).map fun p => BitVec.ofNat 16 (ofBytes p)

/-- The cycle in which a landing that becomes visible in cycle `due` performs its own access: an MRF write then, a scratchpad write of
`prop.pop` in the cycle before (R30, R405), and 0 for one that has none. -/
def Landing.performs (l : Landing) (due : Nat) : Nat := if l.put.isSome then due - 1 else if l.elems.isEmpty then 0 else due

/-- Schedules a landing of the cluster in focus; its id is the serial number. -/
def State.addLanding (s : State) (f : Landing → Landing) (lat : Nat) : State :=
  match s.ctx? s.focus.1 with
  | none => s
  | some c =>
    let x := c.cl s.focus.2
    let l := f (Landing.blank s.serial s.focus.2 c.time (c.time + lat) x.lastAccess)
    let c := c.schedule l
    let c := c.setCl s.focus.2 { x with lastAccess := max x.lastAccess (l.performs (c.time + lat)) }
    { s.setCtx s.focus.1 c with serial := s.serial + 2 }

/-- Sends the reads of a load as chunks of at most 64 bytes, whose addresses do not wrap (R228, R297, log 60). -/
def State.sendLoads (s : State) (sp : Space) (addr ord sc land : Nat) : List (Nat × Nat) → State
  | [] => s
  | (off, n) :: l =>
    (s.send s.focus.1 s.focus.2 sp (addr + off) (.load n) ord sc (some land) off []).sendLoads sp addr ord sc land l

/-- Sends the writes of a store as chunks of at most 64 bytes, whose addresses do not wrap (R228, R297, log 60). -/
def State.sendStores (s : State) (sp : Space) (addr ord sc : Nat) : List (List Byte) → State
  | [] => s
  | b :: l =>
    (s.send s.focus.1 s.focus.2 sp addr (.store b) ord sc none 0 []).sendStores sp (addr + b.length) ord sc l

/-- The latency of a load (R226, R230). -/
def loadLat (s : State) (sp : Space) (land : BitVec 20) : Nat :=
  match sp with
  | .lsp => s.lspLat
  | _ => if land = 0 then ldef sp else land.toNat

/-- A load of `n` bytes, scalar or vector (R226, R228, R229). -/
def loadBody (sp : Space) (n align : Nat) (lat ord sc : Nat) (set : List Byte → Landing → Landing) (base : Landing → Landing)
    (a b : Word) (s : State) : Body :=
  withCtx s fun c =>
    let addr := loadAddr sp a b
    match s.checkAccess c sp addr n align with
    | some e => s.fault e
    | none =>
      match sp with
      | .lsp =>
        let bytes := (s.core c.core).getBytes addr.toNat n
        let s := s.setCtx s.focus.1 (c.usePort addr.toNat)
        .ok (s.addLanding (fun l => lspLanding s c (set bytes (base l)) addr.toNat n) lat)
      | _ =>
        if !c.mayAllot sp then s.fault causeLandingLimit
        else
          let id := s.serial
          let chunks := if n ≤ 64 then [(0, n)] else [(0, 64), (64, 64), (128, 64), (192, 64)]
          let s := s.addLanding (fun l =>
            { base l with lbuf := true, missing := chunks.length, acquire := ord == 1, peer := sp == .peer }) lat
          .ok (s.sendLoads sp addr.toNat ord sc id chunks)

/-- What an LD word reads and delivers. -/
def usesLD (sp : Space) (f : FmtLD) (s : State) : Uses where
  sa := some (aFile s.focus.2 .ia, f.sa)
  sb := some (bFile s.focus.2 .ia, f.sb)
  d1 := f.d1
  d2 := f.d2
  lat := loadLat s sp f.land
  mem := true

/-- A scalar load (R226). -/
def execLoad (i : Instr) (sp : Space) (h : Hdr) (f : FmtLD) (s : State) : Host.Outcome State Fault Refusal :=
  let n := 2 ^ f.sz.toNat
  word i h (usesLD sp f s)
    (fun a b _ t =>
      loadBody sp n n (loadLat s sp f.land) f.ord.toNat f.sc.toNat
        (fun bytes l => { l with v1 := loadValue bytes n (f.sx == 1), v2 := loadValue bytes n (f.sx == 1) })
        (fun l => { l with d1 := f.d1, d2 := f.d2, form := .scalar n (f.sx == 1) }) a b t) s

/-- What an LDV word reads. -/
def usesLDV (f : FmtLDV) (s : State) : Uses where
  sa := some (aFile s.focus.2 .ia, f.sa)
  sb := some (bFile s.focus.2 .ia, f.sb)
  mem := true

/-- A vector load (R228). -/
def execLoadV (i : Instr) (sp : Space) (h : Hdr) (f : FmtLDV) (s : State) : Host.Outcome State Fault Refusal :=
  word i h (usesLDV f s)
    (fun a b _ t =>
      loadBody sp 256 64 (loadLat s sp f.land) f.ord.toNat f.sc.toNat
        (fun bytes l => { l with vals := vectorVals bytes })
        (fun l => { l with operand := some f.vd, elems := elems16 f.vd, form := .vector }) a b t) s

/-- A store of bytes to an address (R227, R228, R229, R237). -/
def storeBody (sp : Space) (addr : Word) (align : Nat) (bytes : List Byte) (ord sc : Nat) (uninit : Option Word) (s : State) :
    Body :=
  withCtx s fun c =>
    match s.checkAccess c sp addr bytes.length align with
    | some e => s.fault e
    | none =>
      let c := if sp == .lsp then c.usePort addr.toNat else c
      if s.clobbers c sp addr bytes.length then .late id (.issue causeBarrierClobber s.focus.2)
      else if uninit.isSome && c.umode = 0 then
        .trapWith (fun d => { d with xPort := c.xPort }) (.issue causeUninitRead s.focus.2)
      else
        let c := match uninit with
          | some w => c.recordUninit w
          | none => c
        match sp with
        | .lsp =>
          let x := c.cl s.focus.2
          .ok (s.setCtx s.focus.1 { c.setCl s.focus.2 { x with lastAccess := max x.lastAccess c.time } with
            staged := c.staged ++ [.store addr.toNat bytes] })
        | _ =>
          let s := s.setCtx s.focus.1 c
          let go := fun s : State => Body.ok (s.sendStores sp addr.toNat ord sc (pieces 64 4 bytes))
          if ord = 2 then s.gateWord (s.releaseGate sc) go else go s

/-- What an ST word reads. -/
def usesST (f : FmtST) (s : State) : Uses where
  sa := some (aFile s.focus.2 .ia, f.sa)
  sb := some (bFile s.focus.2 .ia, f.sb)
  mem := true

/-- A scalar store (R227). -/
def execStore (i : Instr) (sp : Space) (h : Hdr) (f : FmtST) (s : State) : Host.Outcome State Fault Refusal :=
  let n := 2 ^ f.sz.toNat
  word i h (usesST f s) (fun a b _ t => storeBody sp a n (toBytes b.toNat n) f.ord.toNat f.sc.toNat none t) s

/-- What an STV word reads. -/
def usesSTV (f : FmtSTV) (s : State) : Uses where
  sa := some (aFile s.focus.2 .ia, f.sa)
  elems := elems16 f.vs
  mem := true

/-- The 256 bytes of an MRF operand (R228). -/
def Ctx.operandBytes (c : Ctx) (f : BitVec 15) : List Byte := (c.lanes false f).flatMap fun v => toBytes v 2

/-- A vector store (R228): VS is read as a V word reads an operand. -/
def execStoreV (i : Instr) (sp : Space) (h : Hdr) (f : FmtSTV) (s : State) : Host.Outcome State Fault Refusal :=
  word i h (usesSTV f s)
    (fun a _ _ t =>
      withCtx t fun c => storeBody sp a 64 (c.operandBytes f.vs) f.ord.toNat f.sc.toNat (c.uninitElem (elems16 f.vs)) t) s

/-- `ldl` (R226). -/
def execLdl (h : Hdr) (f : FmtLD) (s : State) : Host.Outcome State Fault Refusal := execLoad (.ldl h f) .lsp h f s

/-- `stl` (R227). -/
def execStl (h : Hdr) (f : FmtST) (s : State) : Host.Outcome State Fault Refusal := execStore (.stl h f) .lsp h f s

/-- `ldl.v` (R228). -/
def execLdlV (h : Hdr) (f : FmtLDV) (s : State) : Host.Outcome State Fault Refusal := execLoadV (.ldlV h f) .lsp h f s

/-- `stl.v` (R228). -/
def execStlV (h : Hdr) (f : FmtSTV) (s : State) : Host.Outcome State Fault Refusal := execStoreV (.stlV h f) .lsp h f s

/-- `ldc` (R226). -/
def execLdc (h : Hdr) (f : FmtLD) (s : State) : Host.Outcome State Fault Refusal := execLoad (.ldc h f) .csp h f s

/-- `stc` (R227). -/
def execStc (h : Hdr) (f : FmtST) (s : State) : Host.Outcome State Fault Refusal := execStore (.stc h f) .csp h f s

/-- `ldc.v` (R228). -/
def execLdcV (h : Hdr) (f : FmtLDV) (s : State) : Host.Outcome State Fault Refusal := execLoadV (.ldcV h f) .csp h f s

/-- `stc.v` (R228). -/
def execStcV (h : Hdr) (f : FmtSTV) (s : State) : Host.Outcome State Fault Refusal := execStoreV (.stcV h f) .csp h f s

/-- `ldd` (R226). -/
def execLdd (h : Hdr) (f : FmtLD) (s : State) : Host.Outcome State Fault Refusal := execLoad (.ldd h f) .dsp h f s

/-- `std` (R227). -/
def execStd (h : Hdr) (f : FmtST) (s : State) : Host.Outcome State Fault Refusal := execStore (.std h f) .dsp h f s

/-- `ldd.v` (R228). -/
def execLddV (h : Hdr) (f : FmtLDV) (s : State) : Host.Outcome State Fault Refusal := execLoadV (.lddV h f) .dsp h f s

/-- `std.v` (R228). -/
def execStdV (h : Hdr) (f : FmtSTV) (s : State) : Host.Outcome State Fault Refusal := execStoreV (.stdV h f) .dsp h f s

/-- `ldm` (R226). -/
def execLdm (h : Hdr) (f : FmtLD) (s : State) : Host.Outcome State Fault Refusal := execLoad (.ldm h f) .mem h f s

/-- `stm` (R227). -/
def execStm (h : Hdr) (f : FmtST) (s : State) : Host.Outcome State Fault Refusal := execStore (.stm h f) .mem h f s

/-- `ldm.v` (R228). -/
def execLdmV (h : Hdr) (f : FmtLDV) (s : State) : Host.Outcome State Fault Refusal := execLoadV (.ldmV h f) .mem h f s

/-- `stm.v` (R228). -/
def execStmV (h : Hdr) (f : FmtSTV) (s : State) : Host.Outcome State Fault Refusal := execStoreV (.stmV h f) .mem h f s

/-- `ldn` (R226). -/
def execLdn (h : Hdr) (f : FmtLD) (s : State) : Host.Outcome State Fault Refusal := execLoad (.ldn h f) .peer h f s

/-- `stn` (R227). -/
def execStn (h : Hdr) (f : FmtST) (s : State) : Host.Outcome State Fault Refusal := execStore (.stn h f) .peer h f s

/-- `ldn.v` (R228). -/
def execLdnV (h : Hdr) (f : FmtLDV) (s : State) : Host.Outcome State Fault Refusal := execLoadV (.ldnV h f) .peer h f s

/-- `stn.v` (R228). -/
def execStnV (h : Hdr) (f : FmtSTV) (s : State) : Host.Outcome State Fault Refusal := execStoreV (.stnV h f) .peer h f s

/-- `ldh` (R226). -/
def execLdh (h : Hdr) (f : FmtLD) (s : State) : Host.Outcome State Fault Refusal := execLoad (.ldh h f) .host h f s

/-- `sth` (R227). -/
def execSth (h : Hdr) (f : FmtST) (s : State) : Host.Outcome State Fault Refusal := execStore (.sth h f) .host h f s

/-- `ldh.v` (R228). -/
def execLdhV (h : Hdr) (f : FmtLDV) (s : State) : Host.Outcome State Fault Refusal := execLoadV (.ldhV h f) .host h f s

/-- `sth.v` (R228). -/
def execSthV (h : Hdr) (f : FmtSTV) (s : State) : Host.Outcome State Fault Refusal := execStoreV (.sthV h f) .host h f s

end Sys2Proof.Machine
end

