-- ==== Sys2Proof/Machine/Exchange.lean ====
section
/-! DEFINITION. X's ordering, clearing and prefetching words (R234 to R240, R244). -/

namespace Sys2Proof.Machine

/-- The six spaces, bit n of MASK6 naming the n-th (R54). -/
def allSpaces : List Space := [.lsp, .csp, .dsp, .mem, .peer, .host]

/-- The spaces of a mask. -/
def maskSpaces (m : Nat) : List Space := (setBitsOf m 0 6).map spaceOf

/-- Adds a hold on the next cycle (R234). -/
def State.addHold (s : State) (h : Hold) : State := s.modCtx s.focus.1 fun c => { c with holds := c.holds ++ [h] }

/-- The gate of `drain` (R235, R303, R447). -/
def State.drainGate (s : State) (mask : Nat) : Gate :=
  ⟨s.serial, maskSpaces mask, maskSpaces mask, 4, 0, mask / 4 % 2 = 1 || mask / 8 % 2 = 1, mask / 16 % 2 = 1, false, none⟩

/-- `drain` (R235): gates the next cycle. -/
def execDrain (h : Hdr) (f : FmtDR) (s : State) : Host.Outcome State Fault Refusal :=
  word (.drain h f) h {} (fun _ _ _ t => .ok (t.addHold (.gate (t.drainGate f.mask.toNat)))) s

/-- The MRF elements with a pending write from a drain of M (R222, R236). -/
def State.drainElems (s : State) : List Nat :=
  match s.ctx? s.focus.1 with
  | none => []
  | some c => (c.landings.filter fun l => l.cl == .m).flatMap (·.elems)

/-- The PRED condition of a fence (R236, R303, R308). -/
def State.fenceGate (s : State) (c : Ctx) (f : FmtFN) : Gate :=
  let p := f.pre.toNat
  let sc := f.sc.toNat
  { seq := s.serial
    loads := if p % 2 = 1 then allSpaces else []
    stores := if p / 2 % 2 = 1 then allSpaces else []
    sc := sc
    cmds := if p / 4 % 4 = 0 then 0 else c.pushes
    flush := p / 2 % 2 = 1 && decide (2 ≤ sc)
    nodes := p / 2 % 2 = 1 && decide (4 ≤ sc)
    reads := p % 2 = 1 && decide (2 ≤ sc)
    passes := if f.suc.toNat / 2 % 2 = 1 || f.suc.toNat / 8 % 2 = 1 then (if 2 ≤ sc then some sc else none) else none }

/-- The loads before a fence at a scope act as acquires there: what the core has heard of by them it has learnt of (R308, R309). -/
def Ctx.learn (c : Ctx) (sc : Nat) : Ctx :=
  { c with learnt := c.heard.elems.foldl (fun m n => m.insert n (max (sc * 2) (m.getD n 0))) c.learnt }

/-- `fence` (R236): SUCC with R, W, MR or MW gates the next cycle; SUCC with CR or CW holds the commands pushed later; PRED with MW
reads the elements that M's drains have pending. At die scope or wider the egress buffer serves no later read (R299). -/
def execFence (h : Hdr) (f : FmtFN) (s : State) : Host.Outcome State Fault Refusal :=
  word (.fence h f) h { elems := if f.pre.toNat / 32 % 2 = 1 then s.drainElems else [] }
    (fun _ _ _ t =>
      withCtx t fun c =>
        let g := t.fenceGate c f
        let su := f.suc.toNat
        let c := if su / 4 % 4 = 0 then c else { c with cmdHolds := c.cmdHolds ++ [g] }
        let c := if su % 4 = 0 && su / 16 = 0 then c else { c with holds := c.holds ++ [.gate g] }
        let c := if g.reads then c.learn g.sc else c
        .ok (t.setCtx t.focus.1 { c with fenced := c.fenced || decide (2 ≤ f.sc.toNat) })) s

/-- `salloc` (R239): clears line valid bits as a store of its cycle. -/
def execSalloc (h : Hdr) (f : FmtS2) (s : State) : Host.Outcome State Fault Refusal :=
  word (.salloc h f) h { sa := some (aFile s.focus.2 .ia, f.sa), sb := some (bFile s.focus.2 .ia, f.sb), mem := true }
    (fun a b _ t =>
      withCtx t fun c =>
        if bits a 0 6 ≠ 0 || bits b 0 6 ≠ 0 then t.fault causeMisalign
        else if bits a 24 40 ≠ 0 then t.fault causeSpaceFault
        else if b = 0 then .ok t
        else if !c.owns a.toNat b.toNat then t.fault causeSpaceFault
        else if (t.core c.core).tagged a.toNat b.toNat then .late id (.issue causeBarrierClobber t.focus.2)
        else
          let x := c.cl t.focus.2
          let c := (c.usePort a.toNat).setCl t.focus.2 { x with lastAccess := max x.lastAccess c.time }
          .ok (t.setCtx t.focus.1 { c with staged := c.staged ++ [.clear (a.toNat / 64) (b.toNat / 64)] })) s

/-- `pfm` (R240): the LLC fills the decoded segments of the line; nothing else changes. -/
def execPfm (h : Hdr) (f : FmtS1) (s : State) : Host.Outcome State Fault Refusal :=
  word (.pfm h f) h { sa := some (aFile s.focus.2 .ia, f.sa), mem := true }
    (fun a _ _ t =>
      withCtx t fun c => .ok (if c.who.die = 0 then t else t.prefill c .mem (a.toNat / 64 * 64) 64)) s

/-- The commands in a queue of the core's mover (R246). -/
def State.moverCmds (s : State) (c : Ctx) (q : Nat) : List (Nat × Cmd) :=
  s.cmds.items.filter fun e =>
    e.2.unit == .mover && decide (e.2.die = c.who.die) && decide (e.2.lcore = c.who.lcore) && decide (e.2.q = q)

/-- `mqcnt` (R244). -/
def execMqcnt (h : Hdr) (f : FmtQ) (s : State) : Host.Outcome State Fault Refusal :=
  word (.mqcnt h f) h { d1 := f.d1, d2 := f.d2 }
    (fun _ _ _ t => withCtx t fun c => .ok (t.deliver f.d1 f.d2 (toWord (32 - (t.moverCmds c f.qs.toNat).length)) 1)) s

end Sys2Proof.Machine
end

