-- ==== Sys2Proof/Machine/Flags.lean ====
section
/-! DEFINITION. Conditions. The S2 keeps no condition flags (R77): a condition is a function of two operands. -/

namespace Sys2Proof.Machine

/-- The conditions of `cmp` and `cmpi` (R49): signed ones read two's complement, unsigned ones unsigned. -/
def condHolds (code : Nat) (a b : Word) : Bool :=
  match code with
  | 0 => a == b
  | 1 => a != b
  | 2 => a.slt b
  | 3 => !a.slt b
  | 4 => a.ult b
  | 5 => !a.ult b
  | 6 => !b.slt a
  | 7 => b.slt a
  | 8 => !b.ult a
  | 9 => b.ult a
  | _ => a &&& b != 0

/-- The conditions of `vicmp` and the ordered ones of `vcmp` (R51), from "less", "equal" and "greater". -/
def laneCond (code : Nat) (lt eq gt : Bool) : Bool :=
  match code with
  | 0 => eq
  | 1 => !eq
  | 2 => lt
  | 3 => lt || eq
  | 4 => gt
  | 5 => gt || eq
  | 6 => !(lt || eq || gt)
  | _ => lt || eq || gt

end Sys2Proof.Machine
end

