-- ==== Sys2Proof/Machine/Vector.lean ====
section
/-! DEFINITION. V's lane words (R173 to R198), with `vexp2` and `vexp` (R132 to R134) and the lane reductions (R135, R136). -/

namespace Sys2Proof.Machine

/-! ### `vexp2` and `vexp` -/

/-- The table T of R133: RoundNE(2^(j/64), FP32). -/
def exp2Table : List Nat :=
  [0x3F800000, 0x3F8164D2, 0x3F82CD87, 0x3F843A29, 0x3F85AAC3, 0x3F871F62, 0x3F88980F, 0x3F8A14D5] ++
  [0x3F8B95C2, 0x3F8D1ADF, 0x3F8EA43A, 0x3F9031DC, 0x3F91C3D3, 0x3F935A2B, 0x3F94F4F0, 0x3F96942D] ++
  [0x3F9837F0, 0x3F99E046, 0x3F9B8D3A, 0x3F9D3EDA, 0x3F9EF532, 0x3FA0B051, 0x3FA27043, 0x3FA43516] ++
  [0x3FA5FED7, 0x3FA7CD94, 0x3FA9A15B, 0x3FAB7A3A, 0x3FAD583F, 0x3FAF3B79, 0x3FB123F6, 0x3FB311C4] ++
  [0x3FB504F3, 0x3FB6FD92, 0x3FB8FBAF, 0x3FBAFF5B, 0x3FBD08A4, 0x3FBF179A, 0x3FC12C4D, 0x3FC346CD] ++
  [0x3FC5672A, 0x3FC78D75, 0x3FC9B9BE, 0x3FCBEC15, 0x3FCE248C, 0x3FD06334, 0x3FD2A81E, 0x3FD4F35B] ++
  [0x3FD744FD, 0x3FD99D16, 0x3FDBFBB8, 0x3FDE60F5, 0x3FE0CCDF, 0x3FE33F89, 0x3FE5B907, 0x3FE8396A] ++
  [0x3FEAC0C7, 0x3FED4F30, 0x3FEFE4BA, 0x3FF28177, 0x3FF5257D, 0x3FF7D0DF, 0x3FFA83B3, 0x3FFD3E0C]

/-- A value rounded to FP32, to nearest, as a value again (R132). -/
def FVal.to32 (v : FVal) : FVal := fp32.decode (fp32.ofVal .rne v)

/-- a × b + c, rounded once to FP32 (R132). -/
def fused32 (a b c : FVal) : FVal := ((a.mul b).add .rne c).to32

/-- Sat(x, -160.0, 160.0) of R132. -/
def satExp (neg : Bool) (n : Nat) (x : Int) : FVal :=
  let (p, q) := scale2 n 1 x
  if 160 * q < p then .fin neg 160 0 else .fin neg n x

/-- The algorithm of R132 on a value, delivered in format `f` under `rm`. -/
def exp2Val (f : FloatFmt) (rm : Rounding) : FVal → Nat
  | .nan => f.canon
  | .inf neg => if neg then 0 else f.ofVal rm (.inf false)
  | .fin neg n x0 =>
    let x := satExp neg n x0
    let k := (x.shift 6).toInt .rne (-10240) 10240
    let j := (k % 64).toNat
    let i := (k - j) / 64
    let r := x.add .rne ((FVal.ofInt (-k)).shift (-6))
    let t := fp32.decode (exp2Table.getD j 0)
    let p1 := fused32 (fp32.decode 0x3D635847) r (fp32.decode 0x3E75FDF0)
    let p2 := fused32 p1 r (fp32.decode 0x3F317218)
    let p := (r.mul p2).to32
    f.ofVal rm ((fused32 t p t).shift i)

/-- The algorithm of R134 on a value. -/
def expVal (f : FloatFmt) (rm : Rounding) (v : FVal) : Nat := exp2Val f rm (v.mul (fp32.decode 0x3FB8AA3B)).to32

/-! ### What a lane word reads and writes -/

/-- The format of a type code of class F (R173). -/
def fmtOf (ty : BitVec 2) : FloatFmt := if ty = 0 then fp32 else if ty = 1 then bf16 else fp16

/-- Type code 0 of the F, I and Width classes names 32-bit lanes (R173). -/
def wide (ty : BitVec 2) : Bool := ty == 0

/-- The width of a lane in bits. -/
def laneWidth (ty : BitVec 2) : Nat := if ty = 0 then 32 else 16

/-- The integer format of a type code of class I: width and sign (R173). -/
def intTy (ty : BitVec 2) : Nat × Bool := (laneWidth ty, ty != 2)

/-- What a word reads of its MRF operands, given with their widths, in the order in which an invalid row is told (R145, R177, log 29). -/
def usesLanes (l : List (Bool × BitVec 15)) : Uses where
  entries := l.flatMap fun e => readEntries e.2
  elems := l.flatMap fun e => readElems e.1 e.2

/-- The uninitialised-row rule over the elements a word reads, then its effect (R144, R150). -/
def elemsBody (es : List Nat) (go : Ctx → State → Body) (s : State) : Body :=
  withCtx s fun c =>
    match c.uninitElem es with
    | none => go c s
    | some w => if c.umode = 0 then s.fault causeUninitRead else go c (s.setCtx s.focus.1 (c.recordUninit w))

/-- A word whose lanes are a function of the context, written to VD after `lat` cycles (R175). -/
def execLanes (i : Instr) (h : Hdr) (reads : List (Bool × BitVec 15)) (w32 : Bool) (vd : BitVec 15) (lat : Nat)
    (fn : Ctx → List Nat) (s : State) : Host.Outcome State Fault Refusal :=
  word i h (usesLanes reads)
    (fun _ _ _ t =>
      elemsBody (usesLanes reads).elems
        (fun c t => .ok (t.deliverElems vd (elemsOf w32 vd) (laneVals w32 (fn c)) lat)) t) s

/-- Lane by lane over VA and VB. -/
def Ctx.zip2 (c : Ctx) (w32 : Bool) (a b : BitVec 15) (fn : Nat → Nat → Nat) : List Nat :=
  List.zipWith fn (c.lanes w32 a) (c.lanes w32 b)

/-- An element-wise word of two sources. -/
def execV2 (i : Instr) (h : Hdr) (f : FmtV3) (lat : Nat) (fn : Nat → Nat → Nat) (s : State) :
    Host.Outcome State Fault Refusal :=
  execLanes i h [(wide f.ty, f.va), (wide f.ty, f.vb)] (wide f.ty) f.vd lat (fun c => c.zip2 (wide f.ty) f.va f.vb fn) s

/-- An element-wise word of one source. -/
def execV1 (i : Instr) (h : Hdr) (f : FmtV3) (lat : Nat) (fn : Nat → Nat) (s : State) : Host.Outcome State Fault Refusal :=
  execLanes i h [(wide f.ty, f.va)] (wide f.ty) f.vd lat (fun c => (c.lanes (wide f.ty) f.va).map fn) s

/-- An element-wise word that reads VA, VB and VD (R175, R182). -/
def execV3 (i : Instr) (h : Hdr) (f : FmtV3) (lat : Nat) (fn : Nat → Nat → Nat → Nat) (s : State) :
    Host.Outcome State Fault Refusal :=
  execLanes i h [(wide f.ty, f.va), (wide f.ty, f.vb), (wide f.ty, f.vd)] (wide f.ty) f.vd lat
    (fun c => List.zipWith (fun g z => g z) (List.zipWith fn (c.lanes (wide f.ty) f.va) (c.lanes (wide f.ty) f.vb))
      (c.lanes (wide f.ty) f.vd)) s

/-- An element-wise floating-point word of two sources with one rounding of an exact value (R180). -/
def execF2 (i : Instr) (h : Hdr) (f : FmtV3) (fn : FVal → FVal → FVal) (s : State) : Host.Outcome State Fault Refusal :=
  let g := fmtOf f.ty
  execV2 i h f 4 (fun x y => g.ofVal (rmOf f.rm) (fn (g.decode x) (g.decode y))) s

/-- A fused word: one rounding (R182). -/
def execF3 (i : Instr) (h : Hdr) (f : FmtV3) (fn : FVal → FVal → FVal → FVal) (s : State) :
    Host.Outcome State Fault Refusal :=
  let g := fmtOf f.ty
  execV3 i h f 4 (fun x y z => g.ofVal (rmOf f.rm) (fn (g.decode x) (g.decode y) (g.decode z))) s

/-- `vabs` and `vneg` of one lane: `sign` is the new sign bit of a number of the given sign (R183). -/
def signLane (g : FloatFmt) (sign : Bool → Bool) (x : Nat) : Nat :=
  if (g.decode x).isNan then g.canon
  else g.signed (sign (x / 2 ^ (g.e + g.m) % 2 = 1)) (x % 2 ^ (g.e + g.m))

/-- An integer lane word: the exact integer is taken modulo 2^w, or saturated to the range of TY when SUB is 1 (R185). -/
def execI2 (i : Instr) (h : Hdr) (f : FmtV3) (lat : Nat) (fn : Int → Int → Int) (s : State) :
    Host.Outcome State Fault Refusal :=
  let t := intTy f.ty
  execV2 i h f lat
    (fun x y =>
      let z := fn (intVal t x) (intVal t y)
      intBits t.1 (if f.sub = 1 then satI z (intLo t) (intHi t) else if f.sub = 2 then z / 2 ^ t.1 else z)) s

/-- The signedness that `vimax`, `vimin` and `vicmp` compare with (R185, R188). -/
def cmpTy (f : FmtV3) : Nat × Bool := if f.sub = 1 then (laneWidth f.ty, false) else intTy f.ty

/-- A lane mask (R187). -/
def maskLane (ty : BitVec 2) (b : Bool) : Nat := if b then 2 ^ laneWidth ty - 1 else 0

/-- The floating-point condition of one lane (R187). -/
def fcond (code : Nat) (x y : FVal) : Bool :=
  if x.isNan || y.isNan then code == 1 || code == 6
  else laneCond code (x.less y) (x.sameNumber y) (y.less x)

/-- The integer condition of one lane (R188). -/
def icond (code : Nat) (x y : Int) : Bool := laneCond code (decide (x < y)) (decide (x = y)) (decide (y < x))

/-! ### Floating-point words -/

/-- `vadd` (R180). -/
def execVadd (h : Hdr) (f : FmtV3) (s : State) : Host.Outcome State Fault Refusal :=
  execF2 (.vadd h f) h f (fun x y => x.add (rmOf f.rm) y) s

/-- `vsub` (R180). -/
def execVsub (h : Hdr) (f : FmtV3) (s : State) : Host.Outcome State Fault Refusal :=
  execF2 (.vsub h f) h f (fun x y => x.add (rmOf f.rm) y.neg) s

/-- `vmul` (R180). -/
def execVmul (h : Hdr) (f : FmtV3) (s : State) : Host.Outcome State Fault Refusal :=
  execF2 (.vmul h f) h f (fun x y => x.mul y) s

/-- `vfma` (R182). -/
def execVfma (h : Hdr) (f : FmtV3) (s : State) : Host.Outcome State Fault Refusal :=
  execF3 (.vfma h f) h f (fun x y z => (x.mul y).add (rmOf f.rm) z) s

/-- `vfms` (R182). -/
def execVfms (h : Hdr) (f : FmtV3) (s : State) : Host.Outcome State Fault Refusal :=
  execF3 (.vfms h f) h f (fun x y z => (x.mul y).add (rmOf f.rm) z.neg) s

/-- `vfnma` (R182). -/
def execVfnma (h : Hdr) (f : FmtV3) (s : State) : Host.Outcome State Fault Refusal :=
  execF3 (.vfnma h f) h f (fun x y z => z.add (rmOf f.rm) (x.mul y).neg) s

/-- `vmax` (R180). -/
def execVmax (h : Hdr) (f : FmtV3) (s : State) : Host.Outcome State Fault Refusal :=
  execV2 (.vmax h f) h f 2 (fun x y => (fmtOf f.ty).ofVal .rne (((fmtOf f.ty).decode x).max ((fmtOf f.ty).decode y))) s

/-- `vmin` (R180). -/
def execVmin (h : Hdr) (f : FmtV3) (s : State) : Host.Outcome State Fault Refusal :=
  execV2 (.vmin h f) h f 2 (fun x y => (fmtOf f.ty).ofVal .rne (((fmtOf f.ty).decode x).min ((fmtOf f.ty).decode y))) s

/-- `vabs` (R183). -/
def execVabs (h : Hdr) (f : FmtV3) (s : State) : Host.Outcome State Fault Refusal :=
  execV1 (.vabs h f) h f 2 (signLane (fmtOf f.ty) fun _ => false) s

/-- `vneg` (R183). -/
def execVneg (h : Hdr) (f : FmtV3) (s : State) : Host.Outcome State Fault Refusal :=
  execV1 (.vneg h f) h f 2 (signLane (fmtOf f.ty) fun b => !b) s

/-- `vdiv` (R180). -/
def execVdiv (h : Hdr) (f : FmtV3) (s : State) : Host.Outcome State Fault Refusal :=
  execV2 (.vdiv h f) h f 12 (fun x y => (fmtOf f.ty).div (rmOf f.rm) ((fmtOf f.ty).decode x) ((fmtOf f.ty).decode y)) s

/-- `vsqrt` (R183). -/
def execVsqrt (h : Hdr) (f : FmtV3) (s : State) : Host.Outcome State Fault Refusal :=
  execV1 (.vsqrt h f) h f 12 (fun x => (fmtOf f.ty).sqrt (rmOf f.rm) ((fmtOf f.ty).decode x)) s

/-- `vexp2` (R184). -/
def execVexp2 (h : Hdr) (f : FmtV3) (s : State) : Host.Outcome State Fault Refusal :=
  execV1 (.vexp2 h f) h f 8 (fun x => exp2Val (fmtOf f.ty) (rmOf f.rm) ((fmtOf f.ty).decode x)) s

/-- `vexp` (R184). -/
def execVexp (h : Hdr) (f : FmtV3) (s : State) : Host.Outcome State Fault Refusal :=
  execV1 (.vexp h f) h f 9 (fun x => expVal (fmtOf f.ty) (rmOf f.rm) ((fmtOf f.ty).decode x)) s

/-- `vscale` (R180). -/
def execVscale (h : Hdr) (f : FmtV3) (s : State) : Host.Outcome State Fault Refusal :=
  execV2 (.vscale h f) h f 4
    (fun x y => (fmtOf f.ty).ofVal (rmOf f.rm)
      (((fmtOf f.ty).decode x).shift (satI (signed y (laneWidth f.ty)) (-1024) 1024))) s

/-! ### Integer words -/

/-- `viadd` (R185). -/
def execViadd (h : Hdr) (f : FmtV3) (s : State) : Host.Outcome State Fault Refusal :=
  execI2 (.viadd h f) h f 2 (fun x y => x + y) s

/-- `visub` (R185). -/
def execVisub (h : Hdr) (f : FmtV3) (s : State) : Host.Outcome State Fault Refusal :=
  execI2 (.visub h f) h f 2 (fun x y => x - y) s

/-- `vimul` (R185). -/
def execVimul (h : Hdr) (f : FmtV3) (s : State) : Host.Outcome State Fault Refusal :=
  execI2 (.vimul h f) h f 3 (fun x y => x * y) s

/-- `vimax` (R185). -/
def execVimax (h : Hdr) (f : FmtV3) (s : State) : Host.Outcome State Fault Refusal :=
  execV2 (.vimax h f) h f 2 (fun x y => if intVal (cmpTy f) x < intVal (cmpTy f) y then y else x) s

/-- `vimin` (R185). -/
def execVimin (h : Hdr) (f : FmtV3) (s : State) : Host.Outcome State Fault Refusal :=
  execV2 (.vimin h f) h f 2 (fun x y => if intVal (cmpTy f) y < intVal (cmpTy f) x then y else x) s

/-- `vand` (R185). -/
def execVand (h : Hdr) (f : FmtV3) (s : State) : Host.Outcome State Fault Refusal :=
  execV2 (.vand h f) h f 2 (fun x y => x &&& y) s

/-- `vor` (R185). -/
def execVor (h : Hdr) (f : FmtV3) (s : State) : Host.Outcome State Fault Refusal :=
  execV2 (.vor h f) h f 2 (fun x y => x ||| y) s

/-- `vxor` (R185). -/
def execVxor (h : Hdr) (f : FmtV3) (s : State) : Host.Outcome State Fault Refusal :=
  execV2 (.vxor h f) h f 2 (fun x y => x ^^^ y) s

/-- `vshl` (R186). -/
def execVshl (h : Hdr) (f : FmtV3) (s : State) : Host.Outcome State Fault Refusal :=
  execV2 (.vshl h f) h f 2
    (fun x n => if laneWidth f.ty ≤ n then 0 else x * 2 ^ n % 2 ^ laneWidth f.ty) s

/-- `vshr` (R186). -/
def execVshr (h : Hdr) (f : FmtV3) (s : State) : Host.Outcome State Fault Refusal :=
  execV2 (.vshr h f) h f 2 (fun x n => if laneWidth f.ty ≤ n then 0 else x / 2 ^ n) s

/-- `vsra` (R186). -/
def execVsra (h : Hdr) (f : FmtV3) (s : State) : Host.Outcome State Fault Refusal :=
  execV2 (.vsra h f) h f 2
    (fun x n => intBits (laneWidth f.ty) (signed x (laneWidth f.ty) / 2 ^ (min n (laneWidth f.ty)))) s

/-- `viota` (R186). -/
def execViota (h : Hdr) (f : FmtV3) (s : State) : Host.Outcome State Fault Refusal :=
  execLanes (.viota h f) h [(wide f.ty, f.vb)] (wide f.ty) f.vd 2
    (fun c => List.zipWith (fun x i => (x + i) % 2 ^ laneWidth f.ty) (c.lanes (wide f.ty) f.vb) (range 0 128)) s

/-! ### Compares, masks and selection -/

/-- `vcmp` (R187). -/
def execVcmp (h : Hdr) (f : FmtV3) (s : State) : Host.Outcome State Fault Refusal :=
  execV2 (.vcmp h f) h f 2
    (fun x y => maskLane f.ty (fcond f.rm.toNat ((fmtOf f.ty).decode x) ((fmtOf f.ty).decode y))) s

/-- `vicmp` (R188). -/
def execVicmp (h : Hdr) (f : FmtV3) (s : State) : Host.Outcome State Fault Refusal :=
  execV2 (.vicmp h f) h f 2 (fun x y => maskLane f.ty (icond f.rm.toNat (intVal (cmpTy f) x) (intVal (cmpTy f) y))) s

/-- `vsel` (R189). -/
def execVsel (h : Hdr) (f : FmtV3) (s : State) : Host.Outcome State Fault Refusal :=
  execV3 (.vsel h f) h f 2 (fun x y z => if z = 0 then y else x) s

/-- A word that delivers a scalar formed from the lanes of VA (R190, R198). -/
def execToScalar (i : Instr) (h : Hdr) (f : FmtVR) (lat : Nat) (fn : List Nat → Word) (s : State) :
    Host.Outcome State Fault Refusal :=
  word i h { usesLanes [(wide f.ty, f.va)] with d1 := f.d1, d2 := f.d2, lat := lat }
    (fun _ _ _ t =>
      elemsBody (readElems (wide f.ty) f.va)
        (fun c t => .ok (t.deliver f.d1 f.d2 (fn (c.lanes (wide f.ty) f.va)) lat)) t) s

/-- `vpopc` (R190). -/
def execVpopc (h : Hdr) (f : FmtVR) (s : State) : Host.Outcome State Fault Refusal :=
  execToScalar (.vpopc h f) h f 3 (fun l => toWord (l.filter (· ≠ 0)).length) s

/-! ### Conversions and packing -/

/-- A format of 32-bit lanes (R115). -/
def wideFmt (code : BitVec 5) : Bool := code == 7 || code == 21

/-- `vcvt` (R191). -/
def execVcvt (h : Hdr) (f : FmtVCV) (s : State) : Host.Outcome State Fault Refusal :=
  execLanes (.vcvt h f) h [(wideFmt f.fmts, f.va)] (wideFmt f.fmtd) f.vd 3
    (fun c => (c.lanes (wideFmt f.fmts) f.va).map fun x =>
      convert f.fmts.toNat f.fmtd.toNat (rmOf f.rm) (x % 2 ^ srcWidth f.fmts.toNat)) s

/-- The lanes that a group of `vpack` or `vunpack` uses for its packed string at width `w` (R192, R193). -/
def groupLanes (w : Nat) (g : BitVec 2) : List Nat := range (g.toNat * 8 * w) (8 * w)

/-- The lanes of the four scales of a group. -/
def scaleLanes (g : BitVec 2) : List Nat := range (4 * g.toNat) 4

/-- The four blocks of 128 FP32 lanes at width `w`, as scales and elements (R192). -/
def packBlocks (w : Nat) (l : List Nat) : List (Nat × List Int) := (pieces 32 4 (l.map fp32.decode)).map (mxBlock w)

/-- The 16-bit lanes of the packed string of 128 elements (R192). -/
def packLanes (w : Nat) (q : List Int) : List (BitVec 16) :=
  (pieces 2 (8 * w) (toBytes (packElems w q) (16 * w))).map fun p => BitVec.ofNat 16 (ofBytes p)

/-- `vpack` (R192). -/
def execVpack (h : Hdr) (f : FmtV3) (s : State) : Host.Outcome State Fault Refusal :=
  word (.vpack h f) h (usesLanes [(true, f.va)])
    (fun _ _ _ t =>
      elemsBody (readElems true f.va)
        (fun c t =>
          let w := mxWidth f.ty.toNat
          let b := packBlocks w (c.lanes true f.va)
          let t := t.deliverElems f.vd ((groupLanes w f.sub).map (laneElem f.vd)) (packLanes w (b.flatMap (·.2))) 5
          .ok (t.deliverElems f.vb ((scaleLanes f.sub).map (laneElem f.vb))
            (b.map fun (e : Nat × List Int) => BitVec.ofNat 16 e.1) 5)) t) s

/-- The FP32 lane that element `q` under scale `e` unpacks to (R193). -/
def unpackLane (w e : Nat) (q : Int) : Nat :=
  fp32.ofVal .rne (if q = 0 && e ≠ 0xFF then .fin false 0 0 else scaled e ((FVal.ofInt q).shift (2 - (w : Int))))

/-- The elements of one operand that a word reads of selected lanes. -/
def someElems (f : BitVec 15) (lanes : List Nat) : List Nat := if isBcast f then [] else lanes.map (laneElem f)

/-- `vunpack` (R193). -/
def execVunpack (h : Hdr) (f : FmtV3) (s : State) : Host.Outcome State Fault Refusal :=
  let w := mxWidth f.ty.toNat
  let es := someElems f.va (groupLanes w f.sub) ++ someElems f.vb (scaleLanes f.sub)
  word (.vunpack h f) h { entries := readEntries f.vb, elems := es }
    (fun _ _ _ t =>
      elemsBody es
        (fun c t =>
          let str := ((groupLanes w f.sub).map (c.lane false f.va)).flatMap fun v => toBytes v 2
          let e := (scaleLanes f.sub).map fun i => c.lane false f.vb i % 256
          .ok (t.deliverElems f.vd (elems32 f.vd)
            (laneVals true ((range 0 128).map fun k =>
              unpackLane w (e.getD (k / 32) 0) (signed (unpackElem w k str) w))) 3)) t) s

/-! ### Moves and permutes -/

/-- `vmov` (R194). -/
def execVmov (h : Hdr) (f : FmtV3) (s : State) : Host.Outcome State Fault Refusal :=
  execV1 (.vmov h f) h f 2 (fun x => x) s

/-- `vclr` (R194). -/
def execVclr (h : Hdr) (f : FmtV3) (s : State) : Host.Outcome State Fault Refusal :=
  execLanes (.vclr h f) h [] (wide f.ty) f.vd 2 (fun _ => List.replicate 128 0) s

/-- The elements of the given lanes of an operand at its width, none for a broadcast. -/
def laneElems (w32 : Bool) (f : BitVec 15) (lanes : List Nat) : List Nat :=
  if isBcast f then [] else lanes.flatMap fun i => if w32 then [laneElem f i, laneElem f i + 16384] else [laneElem f i]

/-- The lane numbers that the words of an index operand select (R177, R195). -/
def Ctx.picks (c : Ctx) (w32 : Bool) (f : BitVec 15) : List Nat := (c.lanes w32 f).map (· % 128)

/-- The elements that `vperm` reads in a state (R177). -/
def permElems (f : FmtV3) (s : State) : List Nat :=
  match s.ctx? s.focus.1 with
  | none => []
  | some c => readElems (wide f.ty) f.vb ++ laneElems (wide f.ty) f.va (c.picks (wide f.ty) f.vb)

/-- `vperm` (R195). -/
def execVperm (h : Hdr) (f : FmtV3) (s : State) : Host.Outcome State Fault Refusal :=
  word (.vperm h f) h { entries := readEntries f.vb, elems := permElems f s }
    (fun _ _ _ t =>
      elemsBody (permElems f s)
        (fun c t =>
          .ok (t.deliverElems f.vd (elemsOf (wide f.ty) f.vd)
            (laneVals (wide f.ty) ((c.picks (wide f.ty) f.vb).map (c.lane (wide f.ty) f.va))) 2)) t) s

/-- `vrot` (R195). -/
def execVrot (h : Hdr) (f : FmtVS) (s : State) : Host.Outcome State Fault Refusal :=
  word (.vrot h f) h { usesLanes [(wide f.ty, f.va)] with sa := some (aFile s.focus.2 .ia, f.sa) }
    (fun a _ _ t =>
      elemsBody (readElems (wide f.ty) f.va)
        (fun c t =>
          .ok (t.deliverElems f.vd (elemsOf (wide f.ty) f.vd)
            (laneVals (wide f.ty) ((range 0 128).map fun i => c.lane (wide f.ty) f.va ((i + bits a 0 7) % 128))) 2)) t) s

/-- The element that `vbcast` or `vext` selects in a state; none while its index operand is a queue that holds nothing to pop
(R177). -/
def pickElems (w32 : Bool) (va : BitVec 15) (sa : BitVec 4) (s : State) : List Nat :=
  match s.ctx? s.focus.1 with
  | none => []
  | some c =>
    if 8 ≤ sa.toNat && c.visible (inQueue s.focus.2 (sa.toNat - 8)) = 0 then []
    else laneElems w32 va [bits (c.source s.focus.2 (aFile s.focus.2 .ia) sa) 0 7]

/-- `vbcast` (R195). -/
def execVbcast (h : Hdr) (f : FmtVS) (s : State) : Host.Outcome State Fault Refusal :=
  let es := pickElems (wide f.ty) f.va f.sa s
  word (.vbcast h f) h { sa := some (aFile s.focus.2 .ia, f.sa), entries := readEntries f.va, elems := es }
    (fun a _ _ t =>
      elemsBody es
        (fun c t =>
          .ok (t.deliverElems f.vd (elemsOf (wide f.ty) f.vd)
            (laneVals (wide f.ty) (List.replicate 128 (c.lane (wide f.ty) f.va (bits a 0 7)))) 2)) t) s

/-- `vins` (R196). -/
def execVins (h : Hdr) (f : FmtVS) (s : State) : Host.Outcome State Fault Refusal :=
  word (.vins h f) h { sa := some (aFile s.focus.2 .ia, f.sa), sb := some (bFile s.focus.2 .ia, f.sb) }
    (fun a b _ t =>
      .ok (t.deliverElems f.vd (laneElems (wide f.ty) f.vd [bits a 0 7]) (laneVals (wide f.ty) [b.toNat]) 2)) s

/-! ### From lanes to a scalar -/

/-- `vext` (R197). -/
def execVext (h : Hdr) (f : FmtVR) (s : State) : Host.Outcome State Fault Refusal :=
  let es := pickElems (wide f.ty) f.va f.sa s
  word (.vext h f) h
    { sa := some (aFile s.focus.2 .ia, f.sa), entries := readEntries f.va, elems := es, d1 := f.d1, d2 := f.d2, lat := 2 }
    (fun a _ _ t =>
      elemsBody es
        (fun c t =>
          let x := c.lane (wide f.ty) f.va (bits a 0 7)
          .ok (t.deliver f.d1 f.d2 (if f.sub = 1 then signExtend x (laneWidth f.ty) else toWord x) 2)) t) s

/-- One level of the pairwise tree (R135). -/
def treeLevel {α : Type} (op : α → α → α) : List α → List α
  | a :: b :: l => op a b :: treeLevel op l
  | l => l

/-- The tree over 128 lanes: seven levels (R135). -/
def tree {α : Type} (op : α → α → α) (l : List α) : List α := (range 0 7).foldl (fun l _ => treeLevel op l) l

/-- A reduction over floating-point lanes. -/
def reduceF (g : FloatFmt) (op : Nat → Nat → Nat) (l : List Nat) : Word := toWord ((tree op l).getD 0 0 % 2 ^ g.width)

/-- The greatest or least of integer lanes, by `better new old`. -/
def bestI (better : Int → Int → Bool) (l : List Int) : Int :=
  match l with
  | [] => 0
  | a :: r => r.foldl (fun x y => if better y x then y else x) a

/-- The lowest index of a lane that no later lane beats (R136). -/
def argBest {α : Type} (better : α → α → Bool) (l : List α) : Nat :=
  match List.zip (range 0 128) l with
  | [] => 0
  | a :: r => (r.foldl (fun x y => if better y.2 x.2 then y else x) a).1

/-- NaN counts as greater than every number; the zeros are equal (R136). -/
def greaterF (x y : FVal) : Bool := if y.isNan then false else if x.isNan then true else y.less x

/-- `vrmax` (R198). -/
def execVrmax (h : Hdr) (f : FmtVR) (s : State) : Host.Outcome State Fault Refusal :=
  execToScalar (.vrmax h f) h f 5
    (fun l =>
      if f.sub = 0 then
        let g := fmtOf f.ty
        reduceF g (fun x y => g.ofVal .rne ((g.decode x).max (g.decode y))) l
      else wordI (bestI (fun x y => decide (y < x)) (l.map (intVal (intTy f.ty))))) s

/-- `vrmin` (R198). -/
def execVrmin (h : Hdr) (f : FmtVR) (s : State) : Host.Outcome State Fault Refusal :=
  execToScalar (.vrmin h f) h f 5
    (fun l =>
      if f.sub = 0 then
        let g := fmtOf f.ty
        reduceF g (fun x y => g.ofVal .rne ((g.decode x).min (g.decode y))) l
      else wordI (bestI (fun x y => decide (x < y)) (l.map (intVal (intTy f.ty))))) s

/-- `vrsum` (R198). -/
def execVrsum (h : Hdr) (f : FmtVR) (s : State) : Host.Outcome State Fault Refusal :=
  execToScalar (.vrsum h f) h f 9
    (fun l =>
      if f.sub = 0 then
        let g := fmtOf f.ty
        reduceF g (fun x y => g.ofVal (rmOf f.rm) ((g.decode x).add (rmOf f.rm) (g.decode y))) l
      else wordI ((l.map (intVal (intTy f.ty))).foldl (· + ·) 0)) s

/-- `vrargmax` (R198). -/
def execVrargmax (h : Hdr) (f : FmtVR) (s : State) : Host.Outcome State Fault Refusal :=
  execToScalar (.vrargmax h f) h f 5
    (fun l =>
      toWord
        (if f.sub = 0 then argBest greaterF (l.map (fmtOf f.ty).decode)
         else argBest (fun x y => decide (y < x)) (l.map (intVal (intTy f.ty))))) s

end Sys2Proof.Machine
end

