-- ==== Sys2Proof/Machine/Matrix.lean ====
section
/-! DEFINITION. The matrix array and M's words (R127 to R131, R199 to R224). -/

namespace Sys2Proof.Machine

/-! ### Forming a pass -/

/-- K of R203. -/
def beatK (aw bw : BitVec 2) : Nat := 32 * blocksOf (max aw.toNat bw.toNat)

/-- The first `n` elements of width `w` packed in a number (R104). -/
def unpackInts (w : Nat) : Nat → Nat → List Int
  | 0, _ => []
  | n + 1, x => signed x w :: unpackInts w n (x / 2 ^ w)

/-- The mixing function of R207. -/
def sparseMix (seed : Word) (n : Nat) : Word :=
  let z := seed + 0x9E3779B97F4A7C15 * toWord n
  let z := (z ^^^ (z >>> 30)) * 0xBF58476D1CE4E5B9
  let z := (z ^^^ (z >>> 27)) * 0x94D049BB133111EB
  z ^^^ (z >>> 31)

/-- SparsePos of R207. -/
def sparsePos (seed : Word) (c j : Nat) : Nat := 2 * j + bits (sparseMix seed (64 * c + j / 64 + 1)) (j % 64) 1

/-- The weights that a column puts at the logical positions of an A row, in order: under half density position 2j or 2j + 1 carries weight
j and the other one zero (R203, R207). -/
def spread (seed : Word) (c : Nat) : Nat → List Int → List Int
  | _, [] => []
  | j, q :: l =>
    (if sparsePos seed c j % 2 = 0 then [q, 0] else [0, q]) ++ spread seed c (j + 1) l

/-- floor(P / 2^n) for an integer. -/
def floorShift (p : Int) (n : Nat) : Int := p / ((2 ^ n : Nat) : Int)

/-- The sum over a block of products (R127). -/
def dotProduct (a b : List Int) : Int := (List.zipWith (fun x y => x * y) a b).foldl (· + ·) 0

/-- A[c] of R127: the aligned sum over the blocks of a row with their scales. -/
def alignedSum (ra : Nat) : List Nat → List (List Int) → List (List Int) → Int
  | s :: ss, a :: as, b :: bs => floorShift (dotProduct a b * 2 ^ 16) (ra - s) + alignedSum ra ss as bs
  | _, _, _ => 0

/-- The weight bytes of a column of a buffer. -/
def MatrixArray.column (m : MatrixArray) (buf c : Nat) : List Byte := m.weights.readBytes (buf * 49152 + c * 384) 384

/-- The column scales that a push uses (R206). -/
def MatrixArray.colScales (m : MatrixArray) (buf : Nat) : List Nat :=
  if m.bss = 1 then List.replicate 128 127 else (range 0 128).map fun c => (m.scales.read (buf * 128 + c)).toNat

/-- FormPass of R202: the A record `rec` against a buffer (R127, R128, R203, R205). -/
def MatrixArray.form (m : MatrixArray) (buf acc : Nat) (z : Bool) (rec : List Byte) : Pass :=
  let n := if m.sp = 1 then 2 else 1
  let k := beatK m.aw m.bw
  let qa := unpackInts (mxWidth m.aw.toNat) (n * k) (ofBytes (rec.take (384 * n)))
  let blocks := n * k / 32
  let a := ((rec.drop (384 * n)).take blocks).map BitVec.toNat
  let w := m.colScales buf
  let ra := a.foldl max 0
  let wm := w.foldl max 0
  let rows := pieces 32 blocks qa
  let sums := (List.zip (range 0 128) w).map fun e =>
    let q := unpackInts (mxWidth m.bw.toNat) k (ofBytes (m.column buf e.1))
    let q := if m.sp = 1 then spread m.seed e.1 0 q else q
    floorShift (alignedSum ra a rows (pieces 32 blocks q)) (wm - e.2)
  { sums := sums
    xp := ((ra : Int) - 127 - ((mxWidth m.aw.toNat : Int) - 2)) + ((wm : Int) - 127 - ((mxWidth m.bw.toNat : Int) - 2)) - 16
    poison := a.any (· == 0xFF) || w.any (· == 0xFF)
    acc := acc
    z := z }

/-! ### Accumulators -/

/-- An accumulator row. -/
def MatrixArray.row (m : MatrixArray) (r : Nat) : AccRow := m.acc.getD r .cleared

/-- Replaces an accumulator row. -/
def MatrixArray.setRow (m : MatrixArray) (r : Nat) (x : AccRow) : MatrixArray := { m with acc := m.acc.insert r x }

/-- An entry of a row. -/
def AccRow.get (x : AccRow) (c : Nat) : Int := (x.entries.getD c 0).toInt

/-- The least and greatest 64-bit integer. -/
def minI64 : Int := -(2 ^ 63 : Nat)
def maxI64 : Int := (2 ^ 63 : Nat) - 1

/-- The integers of R130 for a pass and a row: the entries after it, before saturation. -/
def AccRow.plus (x : AccRow) (p : Pass) : List Int :=
  (List.zip (range 0 128) p.sums).map fun e =>
    if !x.val then e.2
    else if x.x < p.xp then floorShift (x.get e.1) (p.xp - x.x).toNat + e.2
    else x.get e.1 + floorShift e.2 (x.x - p.xp).toNat

/-- The entries of a row as a map. -/
def entriesOf (l : List Int) : FMap Word :=
  ⟨((List.zip (range 0 128) l).map fun e => (e.1, wordI e.2)).filter fun e => e.2 != 0⟩

/-- A pass enters a row (R128, R130); the flag says that an addition saturated. -/
def AccRow.enter (x : AccRow) (p : Pass) : AccRow × Bool :=
  if p.poison then ({ x with nan := true }, false)
  else
    let l := x.plus p
    ({ x with
        entries := entriesOf (l.map fun z => satI z minI64 maxI64)
        x := if x.val then max x.x p.xp else p.xp
        val := true },
      l.any fun z => decide (z < minI64) || decide (maxI64 < z))

/-- Enter of R210 for the pass that leaves the tree (R208). -/
def MatrixArray.enter (m : MatrixArray) (p : Pass) : MatrixArray :=
  let (x, sat) := (if p.z then AccRow.cleared else m.row p.acc).enter p
  { m.setRow p.acc x with sat := m.sat || sat }

/-- The tree moves on by one stage, `new` entering stage 1 and the pass in stage 6 leaving (R201, R210). -/
def MatrixArray.advance (m : MatrixArray) (new : Option Pass) : MatrixArray :=
  let t := { m with tree := new :: m.tree.take 5 }
  match (m.tree.drop 5).head? with
  | some (some p) => t.enter p
  | _ => t

/-- The exponent word of a row (R129). -/
def AccRow.word (x : AccRow) : Nat :=
  (if x.nan then 2 ^ 15 else 0) + (if x.val then 2 ^ 14 else 0) + (BitVec.ofInt 14 x.x).toNat

/-- An entry converted to a format (R131). -/
def AccRow.drain (x : AccRow) (f : FloatFmt) (c : Nat) : Nat :=
  if x.nan then f.canon
  else if !x.val || x.get c = 0 then 0
  else f.ofVal .rne ((FVal.ofInt (x.get c)).shift x.x)

/-- An MRF operand moved to another tile. -/
def moveTile (f : BitVec 15) (q : Nat) : BitVec 15 := f + BitVec.ofNat 15 (512 * q)

/-- The elements that a drain writes (R209). -/
def drainElemsOf (dt : BitVec 15) (df : BitVec 2) : List Nat :=
  match df.toNat with
  | 0 => elems32 dt
  | 1 => elems16 dt
  | _ => (range 0 5).flatMap fun q => elems16 (moveTile dt q)

/-- The values that a drain writes, in the same order (R209). -/
def AccRow.drainVals (x : AccRow) (df : BitVec 2) : List (BitVec 16) :=
  match df.toNat with
  | 0 => laneVals true ((range 0 128).map (x.drain fp32))
  | 1 => laneVals false ((range 0 128).map (x.drain bf16))
  | _ =>
    ((range 0 4).flatMap fun q => (range 0 128).map fun c => BitVec.ofNat 16 ((x.entries.getD c 0).toNat / 2 ^ (16 * q))) ++
      List.replicate 128 (BitVec.ofNat 16 x.word)

/-! ### Words -/

/-- A task without an array spill area: SPACE_FAULT (R200). -/
def arrayBody (go : Ctx → State → Body) (s : State) : Body :=
  withCtx s fun c => if c.who.au then go c s else s.fault causeSpaceFault

/-- Replaces the array of the context in focus. -/
def State.modArray (s : State) (f : MatrixArray → MatrixArray) : State :=
  s.modCtx s.focus.1 fun c => { c with array := f c.array }

/-- Drains a row into the MRF with latency 4 (R209). -/
def State.drainRow (s : State) (dacc : BitVec 8) (dt : BitVec 15) (df : BitVec 2) : State :=
  match s.ctx? s.focus.1 with
  | none => s
  | some c => s.deliverElems dt (drainElemsOf dt df) ((c.array.row dacc.toNat).drainVals df) 4

/-- Reads `n` bytes of a half through the core port, with the checks of R211, then goes on with them; ECC_UE stands before UNINIT_READ
(log 26). -/
def halfBody (half n : Nat) (a : Word) (go : List Byte → State → Body) (s : State) : Body :=
  arrayBody
    (fun c s =>
      let o := half * 2 ^ 22 + bits a 0 22
      if bits a 22 42 ≠ 0 then s.fault causeSpaceFault
      else if bits a 0 5 ≠ 0 then s.fault causeMisalign
      else if !(c.owns o n && populated c.who.die o) then s.fault causeSpaceFault
      else if c.xPort.contains half then s.fault causeBankConflict
      else
        let m := s.core c.core
        match m.badByte o n, m.invalidLine o n with
        | some _, _ => s.faultLate c causeEccUe
        | none, none => go (m.getBytes o n) s
        | none, some l =>
          if c.umode = 0 then s.faultLate c causeUninitRead
          else go (m.getBytes o n) (s.setCtx s.focus.1 (c.recordUninit (uninitWord 0 (l * 64))))) s

/-- The size of an A record (R205). -/
def recordBytes (s : State) : Nat :=
  match s.ctx? s.focus.1 with
  | none => 416
  | some c => if c.array.sp = 1 then 832 else 416

/-- The source of an M word. -/
def usesM (sa : BitVec 4) (s : State) : Uses where
  sa := some (aFile s.focus.2 .ia, sa)

/-- The source of an M word that reads scratchpad (R211). -/
def usesH (sa : BitVec 4) (s : State) : Uses := { usesM sa s with mem := true }

/-- The drain that an advance word makes when DR is set (R210). -/
def State.drainIf (s : State) (f : FmtMB) : State := if f.dr = 1 then s.drainRow f.dacc f.dt f.df else s

/-- `mbeat` (R213). -/
def execMbeat (h : Hdr) (f : FmtMB) (s : State) : Host.Outcome State Fault Refusal :=
  word (.mbeat h f) h (usesH f.sa s)
    (fun a _ _ t =>
      halfBody f.h.toNat (recordBytes t) a
        (fun bytes t =>
          .ok ((t.modArray fun m => m.advance (some (m.form f.wb.toNat f.acc.toNat (f.z == 1) bytes))).drainIf f)) t) s

/-- `mshift` (R214). -/
def execMshift (h : Hdr) (f : FmtMB) (s : State) : Host.Outcome State Fault Refusal :=
  word (.mshift h f) h {} (fun _ _ _ t => arrayBody (fun _ t => .ok ((t.modArray fun m => m.advance none).drainIf f)) t) s

/-- `mdrain` (R215). -/
def execMdrain (h : Hdr) (f : FmtMD) (s : State) : Host.Outcome State Fault Refusal :=
  word (.mdrain h f) h {} (fun _ _ _ t => arrayBody (fun _ t => .ok (t.drainRow f.dacc f.dt f.df)) t) s

/-- `mdrainc` (R215): the row is cleared after it is read. -/
def execMdrainc (h : Hdr) (f : FmtMD) (s : State) : Host.Outcome State Fault Refusal :=
  word (.mdrainc h f) h {}
    (fun _ _ _ t =>
      arrayBody (fun _ t => .ok ((t.drainRow f.dacc f.dt f.df).modArray fun m => m.setRow f.dacc.toNat .cleared)) t) s

/-- `mwload` (R216). -/
def execMwload (h : Hdr) (f : FmtMW) (s : State) : Host.Outcome State Fault Refusal :=
  word (.mwload h f) h (usesH f.sa s)
    (fun a _ _ t =>
      halfBody f.half.toNat 384 a
        (fun bytes t =>
          .ok (t.modArray fun m =>
            { m with weights := m.weights.writeBytes (f.wb.toNat * 49152 + f.col.toNat * 384) bytes })) t) s

/-- `mbscale` (R216). -/
def execMbscale (h : Hdr) (f : FmtMW) (s : State) : Host.Outcome State Fault Refusal :=
  word (.mbscale h f) h (usesH f.sa s)
    (fun a _ _ t =>
      halfBody f.half.toNat 128 a
        (fun bytes t => .ok (t.modArray fun m => { m with scales := m.scales.writeBytes (f.wb.toNat * 128) bytes })) t) s

/-- `mcfg` (R217). -/
def execMcfg (h : Hdr) (f : FmtMC) (s : State) : Host.Outcome State Fault Refusal :=
  word (.mcfg h f) h {}
    (fun _ _ _ t =>
      arrayBody
        (fun _ t =>
          .ok (t.modArray fun m => { m with aw := f.aw, bw := f.bw, sp := f.sp, dens := f.dens, bss := f.bss })) t) s

/-- `mseed` (R218). -/
def execMseed (h : Hdr) (f : FmtS1) (s : State) : Host.Outcome State Fault Refusal :=
  word (.mseed h f) h (usesM f.sa s)
    (fun a _ _ t => arrayBody (fun _ t => .ok (t.modArray fun m => { m with seed := a })) t) s

/-- `mclr` (R219). -/
def execMclr (h : Hdr) (f : FmtMA) (s : State) : Host.Outcome State Fault Refusal :=
  word (.mclr h f) h {}
    (fun _ _ _ t =>
      arrayBody
        (fun _ t =>
          .ok (t.modArray fun m =>
            (range f.acc.toNat (f.cnt.toNat + 1)).foldl (fun m r => m.setRow r .cleared) m)) t) s

/-- `mexp` (R220). -/
def execMexp (h : Hdr) (f : FmtMX) (s : State) : Host.Outcome State Fault Refusal :=
  word (.mexp h f) h { d1 := f.d1, d2 := f.d2 }
    (fun _ _ _ t =>
      arrayBody (fun c t => .ok (t.deliver f.d1 f.d2 (toWord (c.array.row f.acc.toNat).word) 1)) t) s

/-- The exponent word that `mexpw` writes into a row (R220). -/
def AccRow.setWord (x : AccRow) (v : Word) : AccRow :=
  { x with nan := bits v 15 1 = 1, val := bits v 14 1 = 1, x := satI (signed v.toNat 14) (-298) 238 }

/-- `mexpw` (R220): delivers the old exponent word and writes the new one. -/
def execMexpw (h : Hdr) (f : FmtMX) (s : State) : Host.Outcome State Fault Refusal :=
  word (.mexpw h f) h { usesM f.sa s with d1 := f.d1, d2 := f.d2 }
    (fun a _ _ t =>
      arrayBody
        (fun c t =>
          .ok ((t.deliver f.d1 f.d2 (toWord (c.array.row f.acc.toNat).word) 1).modArray fun m =>
            m.setRow f.acc.toNat ((m.row f.acc.toNat).setWord a))) t) s

/-- `msat` (R221): delivers ACC_SAT and clears it. -/
def execMsat (h : Hdr) (f : FmtD) (s : State) : Host.Outcome State Fault Refusal :=
  word (.msat h f) h { d1 := f.d1, d2 := f.d2 }
    (fun _ _ _ t =>
      arrayBody
        (fun c t =>
          .ok ((t.deliver f.d1 f.d2 (boolWord c.array.sat) 1).modArray fun m => { m with sat := false })) t) s

/-- The array status (R221). -/
def MatrixArray.stat (m : MatrixArray) : Word :=
  toWord ((m.tree.filter Option.isSome).length + m.aw.toNat * 2 ^ 4 + m.bw.toNat * 2 ^ 6 + m.sp.toNat * 2 ^ 8 +
    m.dens.toNat * 2 ^ 9 + m.bss.toNat * 2 ^ 11 + (if m.sat then 2 ^ 13 else 0))

/-- `mstat` (R221). -/
def execMstat (h : Hdr) (f : FmtD) (s : State) : Host.Outcome State Fault Refusal :=
  word (.mstat h f) h { d1 := f.d1, d2 := f.d2 }
    (fun _ _ _ t => arrayBody (fun c t => .ok (t.deliver f.d1 f.d2 c.array.stat 1)) t) s

/-- `mwait` (R222): reads the elements that M's drains have pending. -/
def execMwait (h : Hdr) (s : State) : Host.Outcome State Fault Refusal :=
  word (.mwait h) h { elems := s.drainElems } (fun _ _ _ t => arrayBody (fun _ t => .ok t) t) s

/-! ### The array spill area (R224) -/

/-- The bytes of the array as the spill area lays them out, as pieces with their offsets; an empty stage is zero (log 18). -/
def MatrixArray.spill (m : MatrixArray) : List (Nat × List Byte) :=
  let stages := List.zip (range 0 6) m.tree
  [(0, m.weights.readBytes 0 0x18000)] ++
    ((range 0 256).map fun r =>
      (0x18000 + 1024 * r, (range 0 128).flatMap fun c => toBytes ((m.row r).entries.getD c 0).toNat 8)) ++
    [(0x58000, m.scales.readBytes 0 256), (0x58100, (range 0 256).flatMap fun r => toBytes (m.row r).word 2),
     (0x58300, toBytes m.stat.toNat 8 ++ toBytes m.seed.toNat 8 ++ List.replicate 0xCF0 0)] ++
    (stages.map fun e =>
      (0x59000 + 1024 * e.1,
        match e.2 with
        | none => List.replicate 1024 0
        | some p => (p.sums.take 128).flatMap fun z => toBytes (wordI z).toNat 8)) ++
    (stages.map fun e =>
      (0x5A800 + 8 * e.1,
        match e.2 with
        | none => List.replicate 8 0
        | some p =>
          toBytes (1 + (if p.poison then 2 else 0) + (if p.z then 4 else 0) + p.acc * 8 + (BitVec.ofInt 16 p.xp).toNat * 2 ^ 16) 8)) ++
    [(0x5A830, List.replicate 0x7D0 0)]

/-- The array that spill bytes hold, read through a function of the offset and a length. -/
def MatrixArray.unspill (rd : Nat → Nat → List Byte) : MatrixArray :=
  let w8 := fun o => toWord (ofBytes (rd o 8))
  let st := w8 0x58300
  let row := fun r : Nat =>
    let e := toWord (ofBytes (rd (0x58100 + 2 * r) 2))
    ({ AccRow.cleared with
        entries := ⟨((range 0 128).map fun c => (c, w8 (0x18000 + 1024 * r + 8 * c))).filter fun e => e.2 != 0⟩ } :
      AccRow).setWord e
  let stage := fun n : Nat =>
    let hd := w8 (0x5A800 + 8 * n)
    if bits hd 0 1 = 0 then none
    else
      some (⟨(range 0 128).map fun c => (w8 (0x59000 + 1024 * n + 8 * c)).toInt, signed (bits hd 16 16) 16, bits hd 1 1 = 1,
        bits hd 3 8, bits hd 2 1 = 1⟩ : Pass)
  { weights := Mem.writeBytes .empty 0 (rd 0 0x18000)
    scales := Mem.writeBytes .empty 0 (rd 0x58000 256)
    acc := ⟨((range 0 256).map fun r => (r, row r)).filter fun e => e.2 != AccRow.cleared⟩
    tree := (range 0 6).map stage
    aw := BitVec.ofNat 2 (bits st 4 2)
    bw := BitVec.ofNat 2 (bits st 6 2)
    sp := BitVec.ofNat 1 (bits st 8 1)
    dens := BitVec.ofNat 2 (bits st 9 2)
    bss := BitVec.ofNat 2 (bits st 11 2)
    seed := w8 0x58308
    sat := bits st 13 1 = 1 }

end Sys2Proof.Machine
end

