-- ==== Sys2Proof/Machine/Barrier.lean ====
section
/-! DEFINITION. Barrier objects, their events and words, and `mcast` (R270 to R285). -/

namespace Sys2Proof.Machine

/-- A barrier as R270 lays it out in its granule. -/
structure Bar where
  expa : Nat
  arrv : Nat
  phase : Bool
  brk : Bool
  s : Int
  reg : Nat
  wait : Nat
  owner : Nat
  deriving DecidableEq, Repr

/-- Reads word 0 and word 1 of a granule. -/
def Bar.ofWords (a b : Word) : Bar where
  expa := bits a 0 16
  arrv := bits a 16 16
  phase := bits a 32 1 = 1
  brk := bits a 33 1 = 1
  s := if bits a 34 1 = 1 then -(bits b 0 40 : Int) else bits b 0 40
  reg := bits a 35 8
  wait := bits a 43 8
  owner := bits b 40 24

/-- Word 0 of a granule. -/
def Bar.word0 (x : Bar) : Word :=
  toWord (x.expa + x.arrv * 2 ^ 16 + (if x.phase then 2 ^ 32 else 0) + (if x.brk then 2 ^ 33 else 0) +
    (if x.s < 0 then 2 ^ 34 else 0) + x.reg * 2 ^ 35 + x.wait * 2 ^ 43)

/-- Word 1 of a granule. -/
def Bar.word1 (x : Bar) : Word := toWord (x.s.natAbs + x.owner * 2 ^ 40)

/-- The barrier in a granule of a scratchpad. -/
def CoreState.bar (m : CoreState) (o : Nat) : Bar :=
  let l := m.getBytes (o / 16 * 16) 16
  .ofWords (toWord (ofBytes (l.take 8))) (toWord (ofBytes (l.drop 8)))

/-- Writes a barrier into its granule. -/
def CoreState.setBar (m : CoreState) (o : Nat) (x : Bar) : CoreState :=
  m.putBytes (o / 16 * 16) (toBytes x.word0.toNat 8 ++ toBytes x.word1.toNat 8)

/-- BSTAT (R280). -/
def Bar.stat (x : Bar) (cmpl : Bool) : Word :=
  toWord (x.arrv + (if x.phase then 2 ^ 16 else 0) + (if x.brk then 2 ^ 17 else 0) + (if cmpl then 2 ^ 18 else 0) +
    (if x.s < 0 then 2 ^ 19 else 0) + x.s.natAbs * 2 ^ 24)

/-- The greatest magnitude of the pending-byte count (R270). -/
def barLimit : Int := 2 ^ 40 - 1

/-- The home of a CSP access: the key under which its byte stands, and the offset (R55, R171). -/
def State.cspHome (s : State) (p : Packet) : Nat × Nat :=
  let (k, o) := cspTarget p.die p.lcore p.addr
  match s.ctx? p.ctx with
  | none => (k, o)
  | some c => (s.seatOf c.who.launch c.key k o, o)

/-- Every wait parked at a granule is answered with a status (R273, R274). -/
def State.wakeAll (s : State) (core o status : Nat) : State :=
  let hit := fun p : Packet =>
    p.stage == .parked && (match p.act with | .barWait _ => true | _ => false) && decide ((s.cspHome p).1 = core) &&
      decide ((s.cspHome p).2 / 16 = o / 16)
  let t := (s.net.vals.filter hit).foldl State.hear s
  { t with net := t.net.map fun p => if hit p then { p with stage := .answered, data := toBytes status 8 } else p }

/-- Writes a barrier of a core. -/
def State.setBar (s : State) (core o : Nat) (x : Bar) : State := s.modCore core fun m => m.setBar o x

/-- The check of R273 after an event: ARRV = EXPA and no pending bytes flip the phase and wake the waiters. The flag says that the
phase completed. -/
def State.settle (s : State) (core o : Nat) (x : Bar) : State × Bar × Bool :=
  if x.arrv = x.expa && x.s = 0 then
    let y := { x with phase := !x.phase, arrv := 0, wait := 0 }
    ((s.setBar core o y).wakeAll core o 0, y, true)
  else (s.setBar core o x, x, false)

/-- Breaks a tagged, unbroken barrier: waiters wake with status 1 (R274). -/
def State.breakBar (s : State) (core o : Nat) : State :=
  let m := s.core core
  if m.tags.has (o / 16) && !(m.bar o).brk then
    (s.setBar core o { m.bar o with brk := true, wait := 0 }).wakeAll core o 1
  else s

/-- A credit of bytes, and an arrival, that an engine or an `mcast` makes (R274, R282): `reg` is the bit an instruction event
registers. A refusal answers its cause, and a refused credit also breaks the barrier. -/
def State.creditBar (s : State) (core o bytes : Nat) (reg : Nat) : State × Cause :=
  let m := s.core core
  if !m.tags.has (o / 16) then (s, causeSpaceFault)
  else
    let x := m.bar o
    if x.brk then (s, 0)
    else if x.s - bytes < -barLimit then (s.breakBar core o, causeBarrierOverflow)
    else ((s.settle core o { x with s := x.s - bytes, reg := x.reg ||| reg }).1, 0)

/-- An arrival of n (R274). -/
def State.arriveBar (s : State) (core o n : Nat) (reg : Nat) : State × Cause :=
  let m := s.core core
  if !m.tags.has (o / 16) then (s, causeSpaceFault)
  else
    let x := m.bar o
    if x.brk then (s, 0)
    else if x.expa < x.arrv + n then (s, causeBarrierOverflow)
    else ((s.settle core o { x with arrv := x.arrv + n, reg := x.reg ||| reg }).1, 0)

/-- What a barrier event comes to: refused with a cause, waiting, or applied with a status. -/
inductive BarResult where
  | refused (cause : Cause)
  | parked
  | status (v : Word)
  deriving DecidableEq, Repr

/-- `bar.init` at its home (R271, R274, R276). -/
def State.initBar (s : State) (core o n ctx expa : Nat) (ph free : Bool) : State × BarResult :=
  let m := s.core core
  let tagged := m.tags.has (o / 16)
  let s := if tagged && !(m.bar o).brk then s.wakeAll core o 1 else s
  if free then
    if tagged then
      (s.modCore core fun m => { m.putBytes (o / 16 * 16) (List.replicate 16 0) with tags := m.tags.del (o / 16) }, .status 0)
    else (s, .status 0)
  else if !tagged && 256 ≤ m.tags.elems.length then (s, .refused causeBarrierOverflow)
  else
    (s.modCore core fun m =>
      { m.setBar o ⟨expa, 0, ph, false, 0, 2 ^ n, 0, ctx % 2 ^ 24⟩ with tags := m.tags.add (o / 16) }, .status 0)

/-- A barrier event of logical core `n` of the cluster at its home (R274). -/
def State.barEvent (s : State) (core o n ctx : Nat) (act : Action) : State × BarResult :=
  let m := s.core core
  let x := m.bar o
  let tagged := m.tags.has (o / 16)
  let reg := x.reg ||| 2 ^ n
  match act with
  | .barInit expa ph free => s.initBar core o n ctx expa ph free
  | .barBrk => (if tagged && !x.brk then (s.setBar core o { x with reg := reg, brk := true, wait := 0 }).wakeAll core o 1 else s, .status 0)
  | .barArr k =>
    if !tagged then (s, .refused causeSpaceFault)
    else if x.brk then (s, .status (x.stat false))
    else if x.expa < x.arrv + k then (s, .refused causeBarrierOverflow)
    else let (t, y, done) := s.settle core o { x with arrv := x.arrv + k, reg := reg }; (t, .status (y.stat done))
  | .barExp b =>
    if !tagged then (s, .refused causeSpaceFault)
    else if x.brk then (s, .status 0)
    else if barLimit < x.s + b then (s, .refused causeBarrierOverflow)
    else ((s.settle core o { x with s := x.s + b, reg := reg }).1, .status 0)
  | .barCred b =>
    if !tagged then (s, .refused causeSpaceFault)
    else if x.brk then (s, .status 0)
    else if x.s - b < -barLimit then (s, .refused causeBarrierOverflow)
    else ((s.settle core o { x with s := x.s - b, reg := reg }).1, .status 0)
  | .barWait p =>
    if !tagged then (s, .refused causeSpaceFault)
    else if x.brk then (s, .status 1)
    else if x.phase != p then (s.setBar core o { x with reg := reg }, .status 0)
    else (s.setBar core o { x with reg := reg, wait := x.wait ||| 2 ^ n }, .parked)
  | .barTest => if !tagged then (s, .refused causeSpaceFault) else (s, .status (x.stat false))
  | .mcCredit b arrive =>
    let (t, e) := s.creditBar core o b (2 ^ n)
    if e ≠ 0 then (t, .refused e)
    else if arrive then
      let (u, e) := t.arriveBar core o 1 (2 ^ n)
      if e ≠ 0 then (u, .refused e) else (u, .status 0)
    else (t, .status 0)
  | _ => (s, .status 0)

/-- Applies a barrier event at its home: a granule outside every region of the launch is SPACE_FAULT (R275), a refusal is taken at the
landing or deferred, a status is sent to the landing. -/
def State.applyBarrier (s : State) (id : Nat) (p : Packet) (c : Ctx) : State :=
  let (core, o) := s.cspHome p
  match s.home c .csp p.addr true with
  | .error e => s.failPacket id p e p.addr
  | .ok _ =>
    let (t, r) := s.barEvent core o (p.lcore % 8) p.ctx p.act
    match r with
    | .refused e => t.failPacket id p e p.addr
    | .parked => t.setPacket id { p with stage := .parked }
    | .status v =>
      let t := if p.reads then t.hear p else t
      match p.land with
      | some _ => t.setPacket id { p with stage := .answered, data := toBytes v.toNat 8 }
      | none => t.dropPacket id

/-- What a request comes to at its home: an isolated die answers with an error completion (R155, R379). -/
def State.atHome (s : State) (id : Nat) (p : Packet) (c : Ctx) (go : State) : State :=
  if s.aborted c p then s.failPacket id p causeRemoteAbort p.addr else go

/-- A barrier event is applied at its home (BARRIER_EVENT_APPLY, R274). -/
def execBarrierEventApply (req : Nat) (s : State) : Host.Outcome State Fault Refusal :=
  .next
    (match s.packet? req with
     | none => s
     | some p =>
       match s.ctx? p.ctx with
       | none => s
       | some c =>
         match p.act with
         | .barInit _ _ _ | .barArr _ | .barExp _ | .barCred _ | .barWait _ | .barTest | .barBrk | .mcCredit _ _ =>
           if s.enabled req p then s.atHome req p c (s.applyBarrier req p c) else s
         | _ => s)

/-! ### Barrier words -/

/-- The sources of a two-source X word. -/
def usesX2 (sa sb : BitVec 4) (s : State) : Uses where
  sa := some (aFile s.focus.2 .ia, sa)
  sb := some (bFile s.focus.2 .ia, sb)
  mem := true

/-- Sends a barrier event, with a landing when `land` gives one (R275). A word marked release gates at cluster scope; one marked
acquire holds the accesses after it. `bad` says that operand b breaks the limits of the word. A `bar.test` that names no delivery holds
nothing (log 63). -/
def barBody (act : Action) (bad : Bool) (land : Option (BitVec 6 × BitVec 6 × Nat)) (a : Word) (s : State) : Body :=
  withCtx s fun c =>
    if bad then s.fault causeIllegalOp
    else if bits a 27 37 ≠ 0 then s.fault causeSpaceFault
    else if bits a 0 4 ≠ 0 then s.fault causeMisalign
    else if land.isSome && !c.mayAllot .csp then s.fault causeLandingLimit
    else
      let rel := act.writes
      let go := fun s : State =>
        match land with
        | none => Body.ok (s.send s.focus.1 s.focus.2 .csp a.toNat act 2 1 none 0 [])
        | some (d1, d2, lat) =>
          let id := s.serial
          let s := s.addLanding (fun l =>
            { l with d1 := d1, d2 := d2, form := .scalar 8 false, lbuf := true, missing := 1, acquire := !rel }) lat
          .ok (s.send s.focus.1 s.focus.2 .csp a.toNat act (if rel then 2 else 1) 1 (some id) 0 [])
      if rel then s.gateWord (s.releaseGate 1) go else go s

/-- `bar.init` (R276). -/
def execBarInit (h : Hdr) (f : FmtS2) (s : State) : Host.Outcome State Fault Refusal :=
  word (.barInit h f) h (usesX2 f.sa f.sb s)
    (fun a b _ t =>
      let free := bits b 17 1 = 1
      barBody (.barInit (bits b 0 16) (bits b 16 1 = 1) free)
        (bits b 18 46 ≠ 0 || (if free then bits b 0 17 ≠ 0 else bits b 0 16 = 0)) none a t) s

/-- `bar.arr` (R277). -/
def execBarArr (h : Hdr) (f : FmtRR) (s : State) : Host.Outcome State Fault Refusal :=
  word (.barArr h f) h { usesX2 f.sa f.sb s with d1 := f.d1, d2 := f.d2, lat := 24 }
    (fun a b _ t =>
      barBody (.barArr (bits b 0 16)) (bits b 16 48 ≠ 0 || bits b 0 16 = 0)
        (if f.d1 = 63 && f.d2 = 63 then none else some (f.d1, f.d2, 24)) a t) s

/-- `bar.exp` (R278). -/
def execBarExp (h : Hdr) (f : FmtS2) (s : State) : Host.Outcome State Fault Refusal :=
  word (.barExp h f) h (usesX2 f.sa f.sb s)
    (fun a b _ t => barBody (.barExp (bits b 0 40)) (bits b 40 24 ≠ 0) none a t) s

/-- `bar.cred` (R278). -/
def execBarCred (h : Hdr) (f : FmtS2) (s : State) : Host.Outcome State Fault Refusal :=
  word (.barCred h f) h (usesX2 f.sa f.sb s)
    (fun a b _ t => barBody (.barCred (bits b 0 40)) (bits b 40 24 ≠ 0) none a t) s

/-- `bar.wait` (R279): lands at 24 + 16 × FN8. -/
def execBarWait (h : Hdr) (f : FmtRR) (s : State) : Host.Outcome State Fault Refusal :=
  word (.barWait h f) h { usesX2 f.sa f.sb s with d1 := f.d1, d2 := f.d2, lat := 24 + 16 * f.fn.toNat }
    (fun a b _ t =>
      barBody (.barWait (bits b 0 1 = 1)) (bits b 1 63 ≠ 0) (some (f.d1, f.d2, 24 + 16 * f.fn.toNat)) a t) s

/-- `bar.test` (R280). -/
def execBarTest (h : Hdr) (f : FmtRR) (s : State) : Host.Outcome State Fault Refusal :=
  word (.barTest h f) h { sa := some (aFile s.focus.2 .ia, f.sa), mem := true, d1 := f.d1, d2 := f.d2, lat := 24 }
    (fun a _ _ t =>
      barBody .barTest false (if f.d1 = 63 && f.d2 = 63 then none else some (f.d1, f.d2, 24)) a t) s

/-- `bar.brk` (R281). -/
def execBarBrk (h : Hdr) (f : FmtS1) (s : State) : Host.Outcome State Fault Refusal :=
  word (.barBrk h f) h { sa := some (aFile s.focus.2 .ia, f.sa), mem := true }
    (fun a _ _ t => barBody .barBrk false none a t) s

/-! ### `mcast` (R285) -/

/-- The size of an `mcast`. -/
def mcastSize (fn : BitVec 8) : Nat := 64 * 2 ^ fn.toNat

/-- The operand limits of `mcast`. -/
def mcastIllegal (b : Word) : Bool :=
  bits b 58 6 ≠ 0 || bits b 24 8 = 0 ||
    (bits b 55 1 = 0 && (bits b 56 1 ≠ 0 || bits b 57 1 ≠ 0 || bits b 32 20 ≠ 0 || bits b 52 3 ≠ 0)) ||
    (bits b 56 1 = 1 && bits b 52 3 ≠ 0)

/-- The CSP address of `n` bytes at an offset of a core of the cluster; bytes outside its scratchpad get one outside R55's layout (R285,
R286). -/
def clusterAddr (core : Nat) (off : Int) (n : Nat) : Nat :=
  if 0 ≤ off && off + n ≤ 2 ^ 24 then core * 2 ^ 24 + off.toNat else 2 ^ 27

/-- Sends the lines of an `mcast` to one core of the cluster; the serial numbers follow on from the state's. -/
def State.mcastLines (s : State) (core off : Nat) : List (List Byte) → State
  | [] => s
  | b :: l =>
    (s.send s.focus.1 s.focus.2 .csp (clusterAddr core off 64) (.line b) 0 0 none 0 []).mcastLines core (off + 64) l

/-- Sends the lines and credits of an `mcast`: each credit follows the lines it answers. -/
def State.mcastSend (s : State) (b : Word) (data : List Byte) : State :=
  let first := s.serial
  let lines := pieces 64 4 data
  let cores := setBitsOf (bits b 24 8) 0 8
  let t := cores.foldl (fun s n => s.mcastLines n (bits b 0 24) lines) s
  let bar := bits b 32 20 * 16
  let arrive := bits b 57 1 = 1
  if bits b 55 1 = 0 then t
  else if bits b 56 1 = 1 then
    (List.zip cores (range 0 8)).foldl (fun s e =>
      s.send s.focus.1 s.focus.2 .csp (e.1 * 2 ^ 24 + bar) (.mcCredit data.length arrive) 0 0 none 0
        (range (first + e.2 * lines.length) lines.length)) t
  else
    t.send t.focus.1 t.focus.2 .csp (bits b 52 3 * 2 ^ 24 + bar) (.mcCredit (data.length * cores.length) arrive) 0 0 none 0
      (range first (lines.length * cores.length))

/-- `mcast` (R285): the source is read through the core port in its cycle. -/
def execMcast (h : Hdr) (f : FmtRR) (s : State) : Host.Outcome State Fault Refusal :=
  word (.mcast h f) h (usesX2 f.sa f.sb s)
    (fun a b _ t =>
      withCtx t fun c =>
        let n := mcastSize f.fn
        if mcastIllegal b then t.fault causeIllegalOp
        else if bits a 24 40 ≠ 0 then t.fault causeSpaceFault
        else if bits a 0 6 ≠ 0 || bits b 0 6 ≠ 0 then t.fault causeMisalign
        else if !(c.owns a.toNat n && populated c.who.die a.toNat) then t.fault causeSpaceFault
        else
          let m := t.core c.core
          let c := c.usePort a.toNat
          if (m.badByte a.toNat n).isSome then t.faultLate c causeEccUe
          else
            match m.invalidLine a.toNat n with
            | some l =>
              if c.umode = 0 then t.faultLate c causeUninitRead
              else .ok ((t.setCtx t.focus.1 (c.recordUninit (uninitWord 0 (l * 64)))).mcastSend b (m.getBytes a.toNat n))
            | none => .ok ((t.setCtx t.focus.1 c).mcastSend b (m.getBytes a.toNat n))) s

end Sys2Proof.Machine
end

