-- ==== Sys2Proof/Machine/Atomic.lean ====
section
/-! DEFINITION. Atomics, their merging, and ticketed reduction (R315 to R329). -/

namespace Sys2Proof.Machine

/-! ### Values -/

/-- The new value of an integer atomic on `n` bytes (R318). -/
def amoValue (aop n old d : Nat) : Nat :=
  let w := 2 ^ (8 * n)
  let d := d % w
  match aop with
  | 0 => (old + d) % w
  | 1 => old &&& d
  | 2 => old ||| d
  | 3 => old ^^^ d
  | 4 => if signed d (8 * n) < signed old (8 * n) then d else old
  | 5 => if signed old (8 * n) < signed d (8 * n) then d else old
  | 6 => min old d
  | 7 => max old d
  | 8 => d
  | 9 => (old + 1) % w
  | 10 => (old + w - 1) % w
  | _ => old

/-- The new value of a ticketed update (R322). -/
def ticketValue (aop : Nat) (half : Bool) (old v : Nat) : Nat :=
  let f := if half then bf16 else fp32
  let x := f.decode old
  let y := f.decode (v % 2 ^ f.width)
  match aop with
  | 0 => f.ofVal .rne (x.add .rne y)
  | 1 => f.ofVal .rne (x.min y)
  | _ => f.ofVal .rne (x.max y)

/-- The bytes of an atomic. -/
def wBytes (w8 : Bool) : Nat := if w8 then 8 else 4

/-- The popped data entries that an atomic's digest record holds, with its AOP × 2 + W (R351). -/
def Action.popped : Action → Nat × List Word
  | .amo aop d w8 => (aop * 2 + (if w8 then 1 else 0), if aop ≤ 8 then [d] else [])
  | .cas c v w8 => if w8 then (1, [c, v]) else (0, [c + v * 2 ^ 32])
  | .ticket aop half t v => (aop * 2 + (if half then 1 else 0), [toWord (t.toNat * 2 ^ 32 + v.toNat)])
  | _ => (0, [])

/-- The digest record of an atomic (R351). -/
def atomicRecord (c : Ctx) (p : Packet) : List Byte :=
  BitVec.ofNat 8 (0x40 + digestSpace p.space) :: toBytes (digestAddr c p.space p.addr) 8 ++
    BitVec.ofNat 8 p.act.popped.1 :: p.act.popped.2.flatMap fun d => toBytes d.toNat 8

/-- Folds an atomic's record into its context's digest. -/
def State.foldAtomic (s : State) (p : Packet) : State :=
  match s.ctx? p.ctx with
  | none => s
  | some c => s.fold p.ctx [atomicRecord c p]

/-- An access has been applied and answers `data`, which its core has then read, or is done when nothing waits for it. -/
def State.reply (s : State) (id : Nat) (p : Packet) (data : List Byte) : State :=
  match p.land with
  | some _ => (s.hear p).setPacket id { p with stage := .answered, data := data }
  | none => s.dropPacket id

/-! ### Integer atomics at the home (R317 to R319) -/

/-- The bytes that an integer atomic writes, from the old ones; none when it writes nothing. -/
def Action.update : Action → Nat → Option (List Byte)
  | .amo aop d w8, old => some (toBytes (amoValue aop (wBytes w8) old d.toNat) (wBytes w8))
  | .cas c v w8, old =>
    if old = c.toNat % 2 ^ (8 * wBytes w8) then some (toBytes v.toNat (wBytes w8)) else none
  | _, _ => none

/-- Applies an integer atomic at its home as one access. -/
def State.applyAtomic (s : State) (id : Nat) (p : Packet) (c : Ctx) : State :=
  match s.homes c p.space true p.addr p.act.length with
  | .error (e, a) => s.failPacket id p e a
  | .ok l =>
    if l.any s.taggedAt then s.failPacket id p causeBarrierClobber p.addr
    else if l.any s.poisoned then s.failPacket id p causeEccUe p.addr
    else
      let old := l.map s.peek
      let t :=
        match p.act.update (ofBytes old) with
        | none => s
        | some b => (s.pokes l b).sealUnder (s.slotAt c) (l.map fun h => (h, p.addr))
      (t.foldAtomic p).reply id p old

/-- Some other request carries this one (R320). -/
def State.carried (s : State) (id : Nat) : Bool := s.net.items.any fun e => e.2.merged.contains id

/-- Applies one request that a merged request carries. -/
def State.applyCarried (s : State) (id : Nat) : State :=
  match s.packet? id with
  | none => s
  | some p =>
    match s.ctx? p.ctx with
    | none => s.dropPacket id
    | some c => s.atHome id p c (s.applyAtomic id p c)

/-- ATOMIC_HOME_APPLY (R318, R320): the request, then those it carries, one after the other. -/
def execAtomicHomeApply (req : Nat) (s : State) : Host.Outcome State Fault Refusal :=
  .next
    (match s.packet? req with
     | none => s
     | some p =>
       match s.ctx? p.ctx, p.act with
       | some c, .amo _ _ _ =>
         if s.enabled req p && !s.carried req then p.merged.foldl State.applyCarried (s.atHome req p c (s.applyAtomic req p c)) else s
       | some c, .cas _ _ _ => if s.enabled req p then s.atHome req p c (s.applyAtomic req p c) else s
       | _, _ => s)

/-- Two requests may merge: both relaxed, of one AOP other than swap and one width, to one address (R320). -/
def State.mayMerge (s : State) (p q : Packet) : Bool :=
  match p.act, q.act, s.ctx? p.ctx, s.ctx? q.ctx with
  | .amo a _ w, .amo b _ x, some c, some d =>
    p.ord == 0 && q.ord == 0 && a == b && w == x && a != 8 &&
      (match s.home c p.space p.addr true, s.home d q.space q.addr true with
       | .ok g, .ok h => g == h
       | _, _ => false)
  | _, _, _, _ => false

/-- ROUTER_MERGE (R320): `req` carries `other` and what `other` carried. -/
def execRouterMerge (req other : Nat) (s : State) : Host.Outcome State Fault Refusal :=
  .next
    (match s.packet? req, s.packet? other with
     | some p, some q =>
       if req ≠ other && s.enabled req p && s.enabled other q && s.mayMerge p q && !s.carried req && !s.carried other then
         (s.setPacket req { p with merged := p.merged ++ other :: q.merged }).setPacket other { q with merged := [] }
       else s
     | _, _ => s)

/-! ### Windows (R323 to R326) -/

/-- The naturally aligned word of a home byte. -/
def HomeOf.word : HomeOf → HomeOf
  | .scratch k o => .scratch k (o / 4 * 4)
  | .mem pa => .mem (pa / 4 * 4)
  | h => h

/-- The die of a key under which scratchpad bytes stand. -/
def coreDie (k : Nat) : Nat := if k < 2 ^ 28 then k / 128 else (k - 2 ^ 28) / 2 ^ 24

/-- The die of a home. -/
def HomeOf.die : HomeOf → Nat
  | .scratch k _ => coreDie k
  | .mem pa => pa / 2 ^ 40
  | _ => 0

/-- A home byte `n` bytes further on. -/
def HomeOf.plus (n : Nat) : HomeOf → HomeOf
  | .scratch k o => .scratch k (o + n)
  | .mem pa => .mem (pa + n)
  | h => h

/-- The key of the window of a home's word in its table. -/
def HomeOf.slot : HomeOf → Nat
  | .scratch _ o => o / 4
  | .mem pa => 2 ^ 60 + pa / 4
  | _ => 0

/-- The number of the window of a home's word. -/
def HomeOf.win : HomeOf → Nat
  | .scratch k o => k * 2 ^ 22 + o / 4
  | h => h.slot

/-- The word of a window number: a word of a scratchpad has core × 2^22 + offset / 4, one of HBM its key. -/
def winHome (n : Nat) : HomeOf := if n < 2 ^ 60 then .scratch (n / 2 ^ 22) (n % 2 ^ 22 * 4) else .mem ((n - 2 ^ 60) * 4)

/-- The windows that share a table with a home. -/
def State.winTable (s : State) (h : HomeOf) : FMap Window :=
  match h with
  | .scratch k _ => (s.core k).windows
  | _ => (s.die h.die).memWindows

/-- The window of a home's word. -/
def State.win? (s : State) (h : HomeOf) : Option Window := (s.winTable h).find? h.slot

/-- Changes the table of a home. -/
def State.modWins (s : State) (h : HomeOf) (f : FMap Window → FMap Window) : State :=
  match h with
  | .scratch k _ => s.modCore k fun m => { m with windows := f m.windows }
  | _ => s.modDie h.die fun d => { d with memWindows := f d.memWindows }

/-- Replaces a window. -/
def State.setWin (s : State) (h : HomeOf) (w : Window) : State := s.modWins h fun t => t.insert h.slot w

/-- The die time at a home. -/
def State.timeAt (s : State) (h : HomeOf) : Nat := (s.die h.die).time

/-- The gap timer of a window runs (R326). -/
def Window.running (w : Window) : Bool := !w.broken && (!w.buffer.items.isEmpty || w.retried)

/-- The requests that a window discards take BROKEN (R325). -/
def State.discard (s : State) (w : Window) : State :=
  w.buffer.vals.foldl
    (fun s r =>
      match s.packet? r with
      | none => s
      | some p => s.failPacket r p causeBroken p.addr) s

/-- A window is no more: its buffer is discarded (R325). -/
def State.freeWin (s : State) (h : HomeOf) : State :=
  match s.win? h with
  | none => s
  | some w => (s.discard w).modWins h fun t => t.erase h.slot

/-- A window breaks: its buffer is discarded (R325). -/
def State.breakWin (s : State) (h : HomeOf) : State :=
  match s.win? h with
  | none => s
  | some w => (s.discard w).setWin h { w with buffer := .empty, broken := true, retried := false }

/-- Applies a due request: an update of its bytes, or nothing for a void ticket (R322, R325, R328). -/
def State.applyTicket (s : State) (h : HomeOf) (id : Nat) (p : Packet) : State :=
  match p.act with
  | .ticket aop half _ v =>
    let n := if half then 2 else 4
    let l := (range (p.addr % 4) n).map h.word.plus
    if l.any s.taggedAt then s.failPacket id p causeBarrierClobber p.addr
    else if l.any s.poisoned then s.failPacket id p causeEccUe p.addr
    else
      let old := l.map s.peek
      let t := s.pokes l (toBytes (ticketValue aop half (ofBytes old) v.toNat) n)
      let t :=
        match s.ctx? p.ctx with
        | none => t
        | some c => t.sealUnder (s.slotAt c) (l.map fun h => (h, p.addr))
      (t.foldAtomic p).reply id p old
  | _ => s.dropPacket id

/-- NEXT moves on by one; the timer is reset (R326). -/
def State.nextTicket (s : State) (h : HomeOf) : State :=
  match s.win? h with
  | none => s
  | some w => s.setWin h { w with nextT := w.nextT + 1, timer := s.timeAt h, retried := false }

/-- Takes the buffered tickets that have become due, one after another (R325). One that has been refused meanwhile only moves NEXT on, and leaves
the word as it is (R317, R380). -/
def State.takeDue (s : State) (h : HomeOf) : Nat → State
  | 0 => s
  | n + 1 =>
    match s.win? h with
    | none => s
    | some w =>
      match w.buffer.find? w.nextT.toNat with
      | none => s
      | some r =>
        let t := (s.setWin h { w with buffer := w.buffer.erase w.nextT.toNat }).nextTicket h
        let t :=
          match t.packet? r with
          | none => t
          | some p => if p.stage == Stage.parked then t.applyTicket h r p else t
        t.takeDue h n

/-- A ticketed request or skip of ticket `t` meets a window (R324, R325). -/
def State.meetWindow (s : State) (h : HomeOf) (id : Nat) (p : Packet) (t : BitVec 32) : State :=
  match s.win? h with
  | none => s.failPacket id p causeSpaceFault p.addr
  | some w =>
    let d := (t - w.nextT).toNat
    let now := s.timeAt h
    let timer := if w.running then w.timer else now
    if w.broken then s.failPacket id p causeBroken p.addr
    else if d = 0 then ((s.nextTicket h).applyTicket h id p).takeDue h 64
    else if d < 64 then
      if (w.buffer.find? t.toNat).isSome then s.failPacket id p causeTicketGap p.addr
      else (s.setWin h { w with buffer := w.buffer.insert t.toNat id, timer := timer }).setPacket id { p with stage := .parked }
    else if d < 2 ^ 31 then
      (s.setWin h { w with retried := true, timer := timer }).setPacket id { p with stage := .retry, sentAt := (s.die p.die).time }
    else s.failPacket id p causeTicketGap p.addr

/-- The capacity of the window table of a home (R323). -/
def HomeOf.winLimit : HomeOf → Nat
  | .scratch _ _ => 32
  | _ => 1024

/-- `amot.open` at its window (R325, R327). -/
def State.openWindow (s : State) (h : HomeOf) (id : Nat) (p : Packet) (first : BitVec 32) (close : Bool) : State :=
  if close then (s.freeWin h).dropPacket id
  else
    let new : Window := ⟨first, .empty, p.ctx, p.space, p.addr, false, s.timeAt h, false⟩
    match s.win? h with
    | none =>
      if h.winLimit ≤ (s.winTable h).items.length then s.failPacket id p causeBarrierOverflow p.addr
      else (s.setWin h new).dropPacket id
    | some w =>
      if w.broken then (s.setWin h new).dropPacket id
      else
        ((s.discard w).setWin h { w with nextT := first, buffer := .empty, timer := s.timeAt h, retried := false }).dropPacket id

/-- TICKET_REQUEST_ARRIVAL (R325): a ticketed request, a skip or an open reaches its window. -/
def State.ticketArrives (s : State) (id : Nat) (p : Packet) (c : Ctx) : State :=
  match s.homes c p.space true p.addr p.act.length with
  | .error (e, a) => s.failPacket id p e a
  | .ok l =>
    match l.head? with
    | none => s
    | some b =>
      let h := b.word
      match p.act with
      | .winOpen f close => s.openWindow h id p f close
      | .winSkip t => s.meetWindow h id p t
      | .ticket _ _ t _ =>
        if l.any s.taggedAt then s.failPacket id p causeBarrierClobber p.addr else s.meetWindow h id p t
      | _ => s

/-- An uncorrectable error strikes an atomic that has a landing, on its way or on its path back: it is refused, its word stays as it is, and a
ticket that is due moves NEXT on (R317, R325). -/
def State.strike (s : State) (id : Nat) (p : Packet) (c : Ctx) : State :=
  match p.act with
  | .amo _ _ _ | .cas _ _ _ =>
    if s.enabled id p && !s.carried id && p.merged.isEmpty then s.failPacket id p causeEccUe p.addr else s
  | .ticket _ _ t _ =>
    if p.stage == .parked then s.failPacket id p causeEccUe p.addr
    else
      match s.homes c p.space true p.addr p.act.length with
      | .error _ => s
      | .ok l =>
        match l.head?.bind fun b => (s.win? b.word).map fun w => (b.word, w) with
        | none => s
        | some (h, w) =>
          if s.enabled id p && !s.isolated c p.space p.addr && !w.broken && t == w.nextT && !l.any s.taggedAt then
            ((s.nextTicket h).failPacket id p causeEccUe p.addr).takeDue h 64
          else s
  | _ => s

/-- A ticketed request, a skip or an open reaches its window (TICKET_REQUEST_ARRIVAL, R325). -/
def execTicketRequestArrival (req : Nat) (s : State) : Host.Outcome State Fault Refusal :=
  .next
    (match s.packet? req with
     | none => s
     | some p =>
       match s.ctx? p.ctx with
       | none => s
       | some c =>
         match p.act with
         | .ticket _ _ _ _ | .winOpen _ _ | .winSkip _ => if s.enabled req p then s.atHome req p c (s.ticketArrives req p c) else s
         | _ => s)

/-- X re-sends a far request after 64 die-time cycles (RETRY_RESEND, R326). -/
def execRetryResend (req : Nat) (s : State) : Host.Outcome State Fault Refusal :=
  .next
    (match s.packet? req with
     | none => s
     | some p =>
       let away := ((s.ctx? p.ctx).map fun c => c.status == .halted || c.status == .saved).getD true
       if p.stage == .retry && !away && decide (p.sentAt + 64 ≤ (s.die p.die).time) then
         (s.setPacket req { p with stage := .sent }).modCtx p.ctx fun c =>
           { c with ctr := { c.ctr with retry := satInc c.ctr.retry } }
       else s)

/-- Adds a cause to those that a context has yet to take, once (R326, R378, R461). -/
def Ctx.offerAsync (c : Ctx) (i : TrapInfo) : Ctx :=
  if c.async.contains i then c else { c with async := c.async ++ [i] }

/-- The kind of an error-log entry of containment (R394). -/
def kindContain : Nat := 6

/-- The gap timer of a window expires (GAP_TIMER_EXPIRY, R326): TICKET_GAP is offered to the owner, or logged when the owner has
ended. -/
def execGapTimerExpiry (win : Nat) (s : State) : Host.Outcome State Fault Refusal :=
  let h := winHome win
  .next
    (match s.win? h with
     | none => s
     | some w =>
       if w.running && decide (w.timer + 2 ^ 24 ≤ s.timeAt h) then
         let s := s.setWin h { w with timer := s.timeAt h }
         match s.ctx? w.owner with
         | none => s.report h.die kindContain causeTicketGap (containLoc (w.owner % 2 ^ 24) 0 0)
         | some c =>
           if c.status == .ending || c.status.over then
             s.report h.die kindContain causeTicketGap (containLoc c.who.num 0 0)
           else
             s.setCtx w.owner
               (c.offerAsync (.landing causeTicketGap .x (toWord w.addr) (finfoOf (spaceCode w.space) false)))
       else s)

/-! ### Words -/

/-- The space of an atomic word (R315). -/
def amSpace (n : Nat) : Space :=
  match n with
  | 0 => .dsp
  | 1 => .mem
  | _ => .csp

/-- What an AM word reads, pops and delivers (R315). -/
def usesAM (f : FmtAM) (data : Nat) (s : State) : Uses where
  sa := some (aFile s.focus.2 .ia, f.sa)
  sb := some (bFile s.focus.2 .ia, f.sb)
  data := data
  d1 := f.d1
  d2 := f.d2
  lat := loadLat s (amSpace f.sp.toNat) f.land
  mem := true

/-- The effect of an AM word (R316, R321): the checks, the release gate, and the request with its landing when it delivers. -/
def atomicBody (f : FmtAM) (n : Nat) (deliver : Bool) (act : Action) (a b : Word) (s : State) : Body :=
  withCtx s fun c =>
    let sp := amSpace f.sp.toNat
    let addr := a + b
    if s.badAddress c sp addr then s.fault causeSpaceFault
    else if addr.toNat % n ≠ 0 then s.fault causeMisalign
    else if deliver && !c.mayAllot sp then s.fault causeLandingLimit
    else
      let ord := f.ord.toNat
      let go := fun s : State =>
        if deliver then
          let id := s.serial
          let s := s.addLanding (fun l =>
            { l with d1 := f.d1, d2 := f.d2, form := .scalar n false, lbuf := true, missing := 1, acquire := ord % 2 == 1 })
            (loadLat s sp f.land)
          Body.ok (s.send s.focus.1 s.focus.2 sp addr.toNat act ord f.sc.toNat (some id) 0 [])
        else Body.ok (s.send s.focus.1 s.focus.2 sp addr.toNat act ord f.sc.toNat none 0 [])
      if 2 ≤ ord then s.gateWord (s.releaseGate f.sc.toNat) go else go s

/-- The data entries that AOP pops (R318). -/
def amoPops (aop : BitVec 4) : Nat := if aop.toNat ≤ 8 then 1 else 0

/-- `amo` (R318). -/
def execAmo (h : Hdr) (f : FmtAM) (s : State) : Host.Outcome State Fault Refusal :=
  word (.amo h f) h (usesAM f (amoPops f.aop) s)
    (fun a b d t => atomicBody f (wBytes (f.w == 1)) true (.amo f.aop.toNat (nth d 0) (f.w == 1)) a b t) s

/-- The compare and new value that `amocas` pops (R319). -/
def casAction (w8 : Bool) (d : List Word) : Action :=
  if w8 then .cas (nth d 0) (nth d 1) true
  else .cas (toWord (bits (nth d 0) 0 32)) (toWord (bits (nth d 0) 32 32)) false

/-- `amocas` (R319). -/
def execAmocas (h : Hdr) (f : FmtAM) (s : State) : Host.Outcome State Fault Refusal :=
  word (.amocas h f) h (usesAM f (if f.w = 1 then 2 else 1) s)
    (fun a b d t => atomicBody f (wBytes (f.w == 1)) true (casAction (f.w == 1) d) a b t) s

/-- `ared` (R318). -/
def execAred (h : Hdr) (f : FmtAM) (s : State) : Host.Outcome State Fault Refusal :=
  word (.ared h f) h (usesAM f (amoPops f.aop) s)
    (fun a b d t => atomicBody f (wBytes (f.w == 1)) false (.amo f.aop.toNat (nth d 0) (f.w == 1)) a b t) s

/-- The request of a ticketed word (R322). -/
def ticketAction (f : FmtAM) (d : List Word) : Action :=
  .ticket f.aop.toNat (f.w == 1) (BitVec.ofNat 32 (bits (nth d 0) 32 32)) (BitVec.ofNat 32 (bits (nth d 0) 0 32))

/-- `amof` (R322). -/
def execAmof (h : Hdr) (f : FmtAM) (s : State) : Host.Outcome State Fault Refusal :=
  word (.amof h f) h (usesAM f 1 s)
    (fun a b d t => atomicBody f (if f.w = 1 then 2 else 4) true (ticketAction f d) a b t) s

/-- `aredf` (R322). -/
def execAredf (h : Hdr) (f : FmtAM) (s : State) : Host.Outcome State Fault Refusal :=
  word (.aredf h f) h (usesAM f 1 s)
    (fun a b d t => atomicBody f (if f.w = 1 then 2 else 4) false (ticketAction f d) a b t) s

/-- The checks of a window word (R327), then its effect on a space and an address value. -/
def windowBody (a : Word) (go : Ctx → Space → Nat → State → Body) (s : State) : Body :=
  withCtx s fun c =>
    let sp := amSpace (bits a 62 2)
    let addr := toWord (bits a 0 62)
    if bits a 62 2 = 3 || s.badAddress c sp addr then s.fault causeSpaceFault
    else if bits a 0 2 ≠ 0 then s.fault causeMisalign
    else go c sp addr.toNat s

/-- `amot.open` (R327): a release at die scope. -/
def execAmotOpen (h : Hdr) (f : FmtS2) (s : State) : Host.Outcome State Fault Refusal :=
  word (.amotOpen h f) h (usesX2 f.sa f.sb s)
    (fun a b _ t =>
      let close := bits b 32 1 = 1
      if bits b 33 31 ≠ 0 || (close && bits b 0 32 ≠ 0) then t.fault causeIllegalOp
      else
        windowBody a
          (fun _ sp addr t =>
            t.gateWord (t.releaseGate 2) fun t =>
              .ok (t.send t.focus.1 t.focus.2 sp addr (.winOpen (BitVec.ofNat 32 (bits b 0 32)) close) 2 2 none 0 [])) t) s

/-- `amot.skip` (R328). -/
def execAmotSkip (h : Hdr) (f : FmtS2) (s : State) : Host.Outcome State Fault Refusal :=
  word (.amotSkip h f) h (usesX2 f.sa f.sb s)
    (fun a b _ t =>
      if bits b 32 32 ≠ 0 then t.fault causeIllegalOp
      else
        windowBody a
          (fun _ sp addr t =>
            .ok (t.send t.focus.1 t.focus.2 sp addr (.winSkip (BitVec.ofNat 32 (bits b 0 32))) 0 0 none 0 [])) t) s

/-- A trap taken at the boundary after the cycle of the word in focus. -/
def State.trapAfter (s : State) (i : TrapInfo) : State := s.modCtx s.focus.1 fun c => { c with traps := c.traps ++ [i] }

/-- `drain.t` (R329): gates the next cycle on a window; an address that meets a fault at its home holds no window, and the fault is taken
at that boundary. -/
def execDrainT (h : Hdr) (f : FmtS1) (s : State) : Host.Outcome State Fault Refusal :=
  word (.drainT h f) h { sa := some (aFile s.focus.2 .ia, f.sa), mem := true }
    (fun a _ _ t =>
      windowBody a
        (fun c sp addr t =>
          if t.isolated c sp addr then
            .ok (t.trapAfter (.landing causeRemoteAbort .x (toWord addr) (finfoOf (spaceCode sp) false)))
          else
            match t.home c sp addr true with
            | .error e => .ok (t.trapAfter (.landing e .x (toWord addr) (finfoOf (spaceCode sp) false)))
            | .ok _ => .ok (t.addHold (.ticket t.serial addr sp))) t) s

/-- The word of a window that `drain.t` names, where it has one (R329). -/
def State.windowAt (s : State) (c : Ctx) (sp : Space) (addr : Nat) : Option HomeOf :=
  match s.home c sp addr true with
  | .ok b => some b.word
  | .error _ => none

/-- An access of a context goes to the word that `drain.t` names: to its window, or by the same address where there is none (R329). -/
def State.atWord (s : State) (c : Ctx) (p : Packet) (addr : Nat) (sp : Space) : Bool :=
  (p.space == sp && decide (p.addr / 4 = addr / 4)) ||
    ((s.windowAt c p.space p.addr).isSome && s.windowAt c p.space p.addr == s.windowAt c sp addr)

/-- The condition of `drain.t` on a window holds for a context (R329). -/
def State.ticketMet (s : State) (k : Nat) (c : Ctx) (seq addr : Nat) (sp : Space) : Bool :=
  (s.net.items.all fun e =>
    !(decide (e.2.ctx = k) && decide (e.1 < seq) && e.2.stage != .answered &&
      (match e.2.act with
       | .ticket _ _ _ _ | .winSkip _ => s.atWord c e.2 addr sp
       | _ => false))) &&
    (match (s.windowAt c sp addr).bind s.win? with
     | none => true
     | some w => w.broken || w.buffer.items.isEmpty)

/-- The cause that `drain.t` takes as its gate ends: BROKEN for a broken window (R329). -/
def State.ticketCause (s : State) (c : Ctx) (addr : Nat) (sp : Space) : Option TrapInfo :=
  match (s.windowAt c sp addr).bind s.win? with
  | none => none
  | some w => if w.broken then some (.landing causeBroken .x (toWord addr) (finfoOf (spaceCode sp) false)) else none

end Sys2Proof.Machine
end

