-- ==== Sys2Proof/Machine/Arrival.lean ====
section
/-! DEFINITION. Accesses at their homes, answers, flushes, and what comes about at the boundary before a core-time cycle: pending causes,
gates, landings and the rendezvous (R22 to R37, R138 to R141, R231 to R238, R296 to R304, R447, R461). -/

namespace Sys2Proof.Machine

/-! ### Accesses at their homes -/

/-- Writes to HOST and PEER by a replicated graph are refused once the replicas differ (R460). -/
def State.mismatched (s : State) (c : Ctx) : Bool := s.fab.refusing && s.replicated c.who.gid

/-- A reply of node `n` carries its RX: it reaches up to the oldest request outstanding there, or to some request before that while the fate of
others at the node is unknown (R446, log 23). -/
def State.acknowledge (s : State) (n : Nat) : State :=
  let open_ := s.net.items.find? fun e => e.2.space == .peer && decide (e.2.addr / 2 ^ 48 = n) && e.2.stage == .sent
  let v :=
    match open_ with
    | some e => e.2.sseq
    | none => s.fab.tx.getD n 0
  let old := s.fab.ack.getD n 0
  let w := if s.fab.lost.has n then old + BitVec.ofNat 32 (Config.peerRx s.serial % ((v - old).toNat + 1)) else v
  { s with fab := { s.fab with ack := s.fab.ack.insert n w } }

/-- After an access of another package's memory has been answered; one that an abort here has ended has no answer (R446). -/
def State.acked (s : State) (p : Packet) : State :=
  if p.space == .peer && !(p.stage == .answered && p.cause == causeRemoteAbort) then s.acknowledge (p.addr / 2 ^ 48) else s

/-- The fate of the outstanding requests among some packets becomes unknown at their nodes (R446). -/
def State.loseSight (s : State) (l : List Packet) : State :=
  let nodes := (l.filter fun p => p.space == .peer && p.stage == .sent).map fun p => p.addr / 2 ^ 48
  { s with fab := { s.fab with lost := s.fab.lost.addAll nodes } }

/-- Applies a load or store at its home (R296, R299). -/
def State.applyAccess (s : State) (id : Nat) (p : Packet) (c : Ctx) : State :=
  match p.act with
  | .load n => (s.atHome id p c (s.applyLoad id p c n)).acked p
  | .store b =>
    if (p.space == .host || p.space == .peer) && s.mismatched c then s.failPacket id p causeDigestMismatch p.addr
    else (s.atHome id p c (s.applyStore id p c b)).acked p
  | .line b => s.atHome id p c (s.applyLine id p c b)
  | _ => s

/-- HOME_ACCESS_APPLY (R296). -/
def execHomeAccessApply (req : Nat) (s : State) : Host.Outcome State Fault Refusal :=
  .next
    (match s.packet? req with
     | none => s
     | some p =>
       match s.ctx? p.ctx with
       | none => s
       | some c => if s.enabled req p then s.applyAccess req p c else s)

/-- No older store to a byte of a buffered one stands in the buffer of its cluster: a reader that has found the newer one there must not find
the older one later (R296, log 50). -/
def State.oldest (s : State) (id : Nat) (p : Packet) : Bool :=
  (s.egress p.die p.lcore).all fun e => !(decide (e.1 < id) && s.meet e.2 p)

/-- EGRESS_BUFFER_DRAIN (R299): a buffered store leaves the buffer and performs at its home, after the earlier accesses of its core to
its bytes. -/
def execEgressBufferDrain (req : Nat) (s : State) : Host.Outcome State Fault Refusal :=
  .next
    (match s.packet? req with
     | none => s
     | some p =>
       match s.ctx? p.ctx with
       | none => s
       | some c =>
         let q := { p with stage := .sent }
         match p.act with
         | .store _ => if p.stage == .egress && s.oldest req p && s.enabled req q then (s.setPacket req q).applyAccess req q c else s
         | _ => s)

/-- The causes that a store may meet after it issued (R232). -/
def storeCauses : List Cause := [causeSpaceFault, causeXlateFault, causeEccUe, causeRemoteAbort]

/-! ### The conditions of holds -/

/-- What a context has written to a node, or to every node for 0xFFFF, has been flushed (R447, R449). -/
def State.flushedTo (_s : State) (c : Ctx) (node : Nat) : Bool :=
  (c.peerNodes.keys.all fun n => !(decide (node = 0xFFFF) || decide (n = node))) &&
    (match c.flushing with
     | none => true
     | some f => f.wait.all fun d => !(decide (node = 0xFFFF && 4 ≤ d) || decide (d = nodeDest node)))

/-- The condition of a hold is met. -/
def State.holdMet (s : State) (k : Nat) (c : Ctx) : Hold → Bool
  | .gate g => s.gateMet k c g
  | .ticket seq a sp => s.ticketMet k c seq a sp
  | .peerFlush node =>
    (s.net.items.all fun e =>
      !(decide (e.2.ctx = k) && e.2.space == .peer && (decide (node = 0xFFFF) || decide (e.2.addr / 2 ^ 48 = node)))) &&
      s.flushedTo c node
  | .deskew => s.deskewing.all fun e => decide (e.1 ≠ k)
  | .link l =>
    match s.links.find? l with
    | none => true
    | some x => x.want.isEmpty
  | .transfer t => decide (t ≤ (s.die c.who.die).time)
  | .write _ _ => false

/-- The records of gates and holds of a saved context whose conditions have come to hold: ARR becomes 1 in its save area (R140, R238). -/
def State.refreshHolds (s : State) (k : Nat) : State :=
  match s.ctx? k with
  | none => s
  | some c =>
    let now := fun e : Saved × Option Nat =>
      if !e.1.arr && (e.1.hold.map fun h => s.holdMet k c h).getD false then ({ e.1 with arr := true }, e.2) else e
    let l := c.records.map now
    if c.status ≠ .saved || c.ctxArea = 0 || l = c.records then s
    else
      ((List.zip (range 0 l.length) (List.zip c.records l)).foldl
        (fun (s : State) e => if e.2.1 = e.2.2 then s else s.putRecord c.ctxArea.toNat e.1 e.2.2) s).modCtx k fun c => { c with records := l }

/-! ### Answers -/

/-- The bytes of a landing once all have arrived, as its value (R226, R228). -/
def Landing.finish (l : Landing) : Landing :=
  if l.missing ≠ 0 then l
  else
    match l.form with
    | .value => l
    | .scalar n sx => let v := loadValue (l.buf.readBytes 0 n) n sx; { l with v1 := v, v2 := v }
    | .vector => { l with vals := vectorVals (l.buf.readBytes 0 256) }

/-- One piece of a landing's bytes arrives. -/
def Landing.piece (l : Landing) (off : Nat) (data : List Byte) : Landing :=
  { l with buf := l.buf.writeBytes off data, missing := l.missing - 1 }.finish

/-- A broken wait that names no delivery takes BROKEN (R279). -/
def Landing.brokenWait (l : Landing) (p : Packet) (data : List Byte) : Bool :=
  match p.act with
  | .barWait _ => l.d1 == 63 && l.d2 == 63 && ofBytes data == 1
  | _ => false

/-- The LOC of an uncorrectable error that an access met, by its FINFO and address value: a scratchpad or HBM, and the location within it
(R394). -/
def ueLoc (finfo addr : Word) : Nat := (if bits finfo 0 3 ≤ 2 then 0 else 3 * 2 ^ 28) + bits addr 0 28

/-- An answer enters the landing-buffer entry of its request, or its slot in the save area (R139, R172); an uncorrectable error of a
discarded landing is logged (R102). -/
def State.landAnswer (s : State) (id : Nat) (p : Packet) (data : List Byte) (cause : Cause) (uninit : Option Word) : State :=
  let fin := finfoOf (spaceCode p.space) p.act.writes
  match p.land with
  | none => s
  | some n =>
    let f := fun l : Landing =>
      if cause ≠ 0 then l.failPiece cause (toWord p.faddr) fin
      else if l.brokenWait p data then l.failPiece causeBroken (toWord p.addr) fin
      else
        (match uninit with
         | none => l
         | some w => l.noteUninit w (toWord p.faddr) fin).piece p.chunk data
    let t :=
      match s.ctx? p.ctx with
      | some c => if c.status == Status.ending && cause == causeEccUe then s.report c.who.die 2 cause (ueLoc fin (toWord p.faddr)) else s
      | none => s
    (((t.dropPacket id).answer p.ctx n f).refreshHolds p.ctx).acked p

/-- The causes with which another package or the host may answer a load (R231). -/
def loadCauses : List Cause := [0, causeSpaceFault, causeXlateFault, causeEccUe, causeRemoteAbort]

/-- A load, whose answer an uncorrectable error may strike on its path (R231). -/
def Action.fetches : Action → Bool
  | .load _ => true
  | _ => false

/-- LANDING_DATA_ARRIVAL (R139): the answer of an applied request arrives, an uncorrectable error that strikes that of a load on its path arrives in
its place (R231), one strikes an atomic that has not been applied (R325, log 26), or the answer `r` that another package or the host gives. -/
def execLandingDataArrival (req : Nat) (r : Reply) (s : State) : Host.Outcome State Fault Refusal :=
  .next
    (match s.packet? req with
     | none => s
     | some p =>
       if p.land.isNone then s
       else if p.stage == .answered then
         if r.cause == causeEccUe && p.act.fetches then s.landAnswer req { p with faddr := p.addr } [] causeEccUe none
         else s.landAnswer req p p.data p.cause p.uninit
       else if (p.space == .peer || p.space == .host) && s.enabled req p && loadCauses.contains r.cause then
         s.landAnswer req { p with faddr := p.addr } r.data r.cause none
       else if r.cause == causeEccUe then
         (match s.ctx? p.ctx with
          | none => s
          | some c => s.strike req p c)
       else s)

/-! ### Flushes (R303, R304, R447) -/

/-- An access of a context that its markers to a destination follow has still to be applied there; to another package, any request of this
package. -/
def State.behindMarker (s : State) (k seq dest : Nat) : Bool :=
  s.net.items.any fun e =>
    decide (e.1 < seq) && (e.2.stage == .sent || e.2.stage == .egress || e.2.stage == .retry) &&
      (if dest < 4 then
        decide (e.2.ctx = k) &&
          (match s.ctx? k with
           | none => false
           | some c => s.homeDie c e.2.space e.2.addr == some dest)
       else e.2.space == .peer && decide (nodeDest (e.2.addr / 2 ^ 48) = dest))

/-- The deferred fault of a flush that was cut off at a destination: a die, or a node, whose stores are of the space PEER (R304, R447). -/
def abortInfo (n dest : Nat) : TrapInfo :=
  .landing causeRemoteAbort .x (Config.abortAddr n) (finfoOf (if 4 ≤ dest then 4 else if Config.abortInMem n then 3 else 2) true)

/-- A destination of a flush of a context answers with an error completion (R304, R447). -/
def State.abortDest (s : State) (k dest : Nat) : State :=
  { s.modCtx k fun c =>
      match c.flushing with
      | none => c
      | some f =>
        { c with flushing := some { f with wait := f.wait.filter (· ≠ dest) }, deferred := c.deferred ++ [⟨0, .flush, abortInfo s.serial dest⟩] }
    with serial := s.serial + 1 }

/-- A path of a flush from a die to a destination die leads to, or through, a die that resets (R304). -/
def State.flushCut (s : State) (src : Nat) (f : Flush) (dest : Nat) : Bool :=
  (s.die dest).resetting || (f.paths.contains (flushBit dest true) && (s.die (viaDie src dest)).resetting)

/-- The markers that a flush sends to a node, one for each port that has carried a request of the core there: from one to eight, which is open (R447,
log 51). Each takes the node's TX (R446). -/
def markerCount (serial node : Nat) : Nat := Config.flushPorts (serial + node) % 8 + 1

/-- The destinations of a context's flush that a reset cuts off answer with error completions (R304). -/
def State.abortCut (s : State) (k : Nat) : State :=
  match s.ctx? k with
  | none => s
  | some c =>
    match c.flushing with
    | none => s
    | some f => (f.wait.filter fun d => decide (d < 4) && s.flushCut c.who.die f d).foldl (fun s d => s.abortDest k d) s

/-- The markers of a flush are sent (R303, R446, R447). -/
def State.sendMarkers (s : State) (k : Nat) (c : Ctx) (f : Flush) : State :=
  let nodes := (f.wait.filter fun d => decide (4 ≤ d)).map fun d => d - 4
  let fab := nodes.foldl (fun (b : Fabric) n => { b with tx := b.tx.insert n (b.tx.getD n 0 + BitVec.ofNat 32 (markerCount s.serial n)) }) s.fab
  { s.setCtx k { c with flushing := some { f with sent := true, seq := s.serial } } with fab := fab, serial := s.serial + 1 }

/-- The gates behind which commands of a context stand, or are to stand (R236). -/
def State.queuedGates (s : State) (k : Nat) (c : Ctx) : List Gate :=
  c.cmdHolds ++ (s.cmds.vals.filter fun x => decide (x.ctx = k)).flatMap (·.behind)

/-- FLUSH_MARKER_GATHER (R303, R447): the flush that a gate on commands needs starts; or the markers of a flush are sent; or a destination has gathered the
markers of a context's flush, and every access before them has performed there. A resetting die's neighbours answer with an error completion. -/
def execFlushMarkerGather (ctx die : Nat) (s : State) : Host.Outcome State Fault Refusal :=
  .next
    (match s.ctx? ctx with
     | none => s
     | some c =>
       match c.flushing with
       | none => s.setCtx ctx (((s.queuedGates ctx c).filter fun g => !s.gateMet ctx c g).foldl Ctx.startFlush c)
       | some f =>
         if !f.sent then (s.sendMarkers ctx c f).abortCut ctx
         else if !f.wait.contains die then s
         else if die < 4 && s.flushCut c.who.die f die then s.abortDest ctx die
         else if s.behindMarker ctx f.seq die then s
         else
           let t := s.setCtx ctx { c with flushing := some { f with wait := f.wait.filter (· ≠ die) } }
           if die < 4 then t else t.acknowledge (die - 4))

/-- FLUSH_COMPLETION (R303): every completion has returned, and the flush ends. -/
def execFlushCompletion (ctx : Nat) (s : State) : Host.Outcome State Fault Refusal :=
  .next
    (match s.ctx? ctx with
     | none => s
     | some c =>
       match c.flushing with
       | some f => if f.sent && f.wait.isEmpty then s.setCtx ctx { c with flushing := none } else s
       | none => s)

/-! ### Holds and gates -/

/-- A hold of R140, which no cause ends early and which a handler has too. -/
def Hold.fixed : Hold → Bool
  | .deskew | .link _ | .transfer _ | .write _ _ => true
  | _ => false

/-- A hold is the transfer of a `ctxsv` or `ctxld`. -/
def Hold.transfers : Hold → Bool
  | .transfer _ => true
  | _ => false

/-- The holds that count for a context: in its handler only the handler's own (R140). -/
def Ctx.activeHolds (c : Ctx) : List Hold := if c.inHandler then c.holds.filter Hold.fixed else c.holds

/-- The flush that a hold needs is started. -/
def Ctx.flushFor (c : Ctx) : Hold → Ctx
  | .gate g => c.startFlush g
  | .peerFlush node =>
    c.flushTo [] (c.peerNodes.keys.filter fun n => decide (node = 0xFFFF) || decide (n = node))
  | _ => c

/-- A deferred fault is of what a hold waits for: a gate's stores and flushes; the tickets and skips to the word of a `drain.t` (R329); the stores to the
nodes of a `pflush`, and its flush (R304, R447, R449). -/
def Hold.covers (h : Hold) (e : Deferred) : Bool :=
  let sp := spaceOf (bits e.info.finfo 0 3)
  match h with
  | .gate g => g.covers e
  | .ticket seq addr space => e.kind == .window && decide (e.seq < seq) && sp == space && decide (e.info.faddr.toNat / 4 = addr / 4)
  | .peerFlush node => sp == .peer && (e.kind == .flush || decide (node = 0xFFFF) || decide (e.info.faddr.toNat / 2 ^ 48 = node))
  | _ => false

/-- A deferred fault is covered by one of the holds that end. -/
def Ctx.covered (c : Ctx) (e : Deferred) : Bool := c.holds.any fun h => h.covers e

/-- The cause that the end of a `drain.t` brings. -/
def State.holdCause (s : State) (c : Ctx) : Option TrapInfo :=
  c.holds.findSome? fun h =>
    match h with
    | .ticket _ a sp => s.ticketCause c a sp
    | _ => none

/-! ### The boundary before a core-time cycle -/

/-- What comes next at a boundary. -/
inductive AtBoundary where
  | raised (i : TrapInfo)    -- a cause that `trap` raised and that is still to be taken (R90)
  | async (i : TrapInfo)     -- a cause from outside the issue stream (R461)
  | gated                    -- a gate or hold whose condition does not hold (R234)
  | lift                     -- gates whose conditions hold
  | deadlock                 -- R32
  | freeze                   -- a landing that is due has no data (R139)
  | land                     -- landings that are due
  | join                     -- R22
  | issue                    -- nothing: the cycle runs
  deriving DecidableEq, Repr

/-- The landings due in the coming cycle. -/
def Ctx.due (c : Ctx) : List Landing := c.landings.filter fun l => decide (l.due ≤ c.time)

/-- The fork set as clusters, with C. -/
def Ctx.forked (c : Ctx) : List Cluster :=
  .c :: ((if c.forkset.getLsbD 0 then [Cluster.v] else []) ++ (if c.forkset.getLsbD 1 then [.m] else []) ++
    (if c.forkset.getLsbD 2 then [.x] else []))

/-- The rendezvous is complete: C and its fork set are JOINED, and their LSP and MRF accesses have performed (R22). -/
def Ctx.joins (c : Ctx) : Bool :=
  c.forked.all fun cl => (c.cl cl).run == .joined && decide ((c.cl cl).lastAccess < c.time)

/-- What comes next at the boundary of a context. Outside a handler no cause is taken before a hold of R140 has ended. -/
def State.atBoundary (s : State) (k : Nat) (c : Ctx) : AtBoundary :=
  let landing := if c.due.any fun l => decide (0 < l.missing) then AtBoundary.freeze else .land
  let held := !(c.activeHolds.all (s.holdMet k c))
  if c.inHandler then
    if held then .gated else if !c.activeHolds.isEmpty then .lift else if !c.due.isEmpty then landing else .issue
  else
    if c.activeHolds.any fun h => h.fixed && !s.holdMet k c h then .gated
    else
      match c.traps, c.async with
      | i :: _, _ => .raised i
      | [], i :: _ => .async i
      | [], [] =>
        if held then .gated
        else if !c.holds.isEmpty then .lift
        else if 65536 ≤ c.deadlock then .deadlock
        else if !c.due.isEmpty then landing
        else if c.joins then .join
        else .issue

/-- The core's domain does not run in this die-time cycle (R138, R234); a handler's own waits are not the context's (R140). -/
def Ctx.frozen (c : Ctx) : Ctx :=
  { c with
    phase := .rest
    ctr := if c.inHandler then c.ctr else { c.ctr with freeze := satInc c.ctr.freeze } }

/-- A gate holds: the core is frozen, and the flushes it needs are started. -/
def Ctx.hold (c : Ctx) : Ctx := (c.activeHolds.foldl Ctx.flushFor c).frozen

/-- A trap is taken at the boundary of a context; the handler issues from the next die-time cycle on. -/
def State.boundaryTrap (s : State) (k : Nat) (i : TrapInfo) : State :=
  (s.takeTrap k i).modCtx k fun c => { c with phase := .rest }

/-- The context of a boundary event, and what is due there. -/
def State.boundaryOf (s : State) (k : Nat) : Option (Ctx × AtBoundary) :=
  match s.ctx? k with
  | none => none
  | some c => if c.phase == .boundary then some (c, s.atBoundary k c) else none

/-- GATE_LIFT (R234): the conditions of the gates hold. A deferred fault that they cover, or a broken window, is taken at the boundary;
otherwise the cycle proceeds (R232, R329). -/
def execGateLift (ctx : Nat) (s : State) : Host.Outcome State Fault Refusal :=
  .next
    (match s.boundaryOf ctx with
     | some (c, .lift) =>
       let rest := if c.inHandler then c.holds.filter fun h => !h.fixed else []
       let open_ := { c.prune fun n => (s.net.find? n).isNone with holds := rest }
       if c.inHandler then s.setCtx ctx { c with holds := rest }
       else
         match c.takeDeferred c.covered with
         | some (i, _) =>
           (s.setCtx ctx { open_ with deferred := c.deferred.filter fun e => !c.covered e }).boundaryTrap ctx i
         | none =>
           match s.holdCause c with
           | some i => (s.setCtx ctx open_).boundaryTrap ctx i
           | none => s.setCtx ctx open_
     | _ => s)

/-- ASYNC_CAUSE_OFFER (R461): the first cause from outside the issue stream is taken at the boundary; a gate stays and is met after
`eret`. -/
def execAsyncCauseOffer (ctx : Nat) (s : State) : Host.Outcome State Fault Refusal :=
  .next
    (match s.boundaryOf ctx with
     | some (c, .async i) => (s.setCtx ctx { c with async := c.async.drop 1 }).boundaryTrap ctx i
     | _ => s)

/-- The first cluster that waits in QWAIT, SWAIT or JOINED (R32). -/
def Ctx.firstWaiting (c : Ctx) : Cluster :=
  (allClusters.find? fun cl => (c.cl cl).run == .qwait || (c.cl cl).run == .swait || (c.cl cl).run == .joined).getD .c

/-- QUEUE_DEADLOCK (R32). -/
def execQueueDeadlock (ctx : Nat) (s : State) : Host.Outcome State Fault Refusal :=
  .next
    (match s.boundaryOf ctx with
     | some (c, .deadlock) => (s.setCtx ctx { c with deadlock := 0 }).boundaryTrap ctx (.issue causeQueueDeadlock c.firstWaiting)
     | _ => s)

/-- The fault that a landing takes at its visibility: a refused `sem.sig` that is taken at it (R350), its own, or UNINIT_READ under UMODE 0 for the
lower byte of the two (R34, R149, R233). -/
def Ctx.landingFault (c : Ctx) (l : Landing) : Option TrapInfo :=
  let un := l.uninit.isSome && c.umode == 0
  if l.discarded then none
  else if l.sem && c.semFault.isSome then c.semFault
  else if l.cause ≠ 0 && !(un && l.ufaddr.ult l.faddr) then some (.landing l.cause l.cl l.faddr l.finfo)
  else if un then some (.landing causeUninitRead l.cl l.ufaddr l.finfo)
  else none

/-- The queue entries that a landing reserved are given back (log 17). -/
def Ctx.unreserve (c : Ctx) (l : Landing) : Ctx :=
  { c with queues := c.queues.map fun q => q.filter fun e => !(e.value.isNone && (e.id = l.q1 || e.id = l.q2)) }

/-- A landing without a fault becomes visible (R24, R150). -/
def Ctx.landVisible (c : Ctx) (l : Landing) : Ctx :=
  if l.discarded then c
  else
    match l.uninit with
    | none => c.land l
    | some w => (c.land l).recordUninit w

/-- Every landing that is due becomes visible, unless one has a fault: then the first such is taken and writes nothing (R34). -/
def State.landAll (s : State) (k : Nat) (c : Ctx) : State :=
  match c.due.find? fun l => (c.landingFault l).isSome with
  | some l =>
    let c' := { c.unreserve l with
      landings := c.landings.filter fun x => x.id != l.id
      semFault := if l.sem then none else c.semFault }
    match c.landingFault l with
    | some i => (s.setCtx k c').boundaryTrap k i
    | none => s
  | none => s.setCtx k (c.due.foldl Ctx.landVisible { c with landings := c.landings.filter fun l => decide (c.time < l.due) })

/-- DELIVERY_VISIBLE (R24, R139): the landings due in the coming cycle become visible, a landing fault is taken, or the core freezes
because one has no data. -/
def execDeliveryVisible (ctx : Nat) (s : State) : Host.Outcome State Fault Refusal :=
  .next
    (match s.boundaryOf ctx with
     | some (c, .freeze) => s.setCtx ctx c.frozen
     | some (c, .land) => s.landAll ctx c
     | _ => s)

/-- The rendezvous ends: the fork set goes to IDLE and C runs (R22). -/
def Ctx.rendezvous (c : Ctx) : Ctx :=
  let c := c.forked.foldl (fun c cl => c.setCl cl { c.cl cl with run := if cl == .c then .run else .idle }) c
  { c with forkset := 0 }

/-- JOIN_RENDEZVOUS (R22). -/
def execJoinRendezvous (ctx : Nat) (s : State) : Host.Outcome State Fault Refusal :=
  .next
    (match s.boundaryOf ctx with
     | some (c, .join) => s.setCtx ctx c.rendezvous
     | _ => s)

end Sys2Proof.Machine
end

