-- ==== Sys2Proof/Machine/Mover.lean ====
section
/-! DEFINITION. Engine commands: pushing, starting, faulting and completing them, and the mover's kinds (R65 to R68, R241 to R257, R282,
R286). -/

namespace Sys2Proof.Machine

/-! ### The command word (R65) -/

/-- KIND. -/
def kindOf (w : Quad Word) : Nat := bits w.q3 56 8

/-- FLAGS. -/
def flagsOf (w : Quad Word) : Nat := bits w.q3 48 8

/-- Completion barrier valid, and the arrival after the last byte (R66). -/
def cbv (w : Quad Word) : Bool := flagsOf w % 2 = 1
def cba (w : Quad Word) : Bool := flagsOf w / 2 % 2 = 1

/-- ISSUE_TIME. -/
def issueTime (w : Quad Word) : Nat := bits w.q2 48 16 + bits w.q3 0 48 * 2 ^ 16

/-- The DSP flat address of the completion barrier. -/
def cbarOf (w : Quad Word) : Nat := bits w.q2 19 29 * 16

/-- The LSP offset of the shape record (R252). -/
def shpOf (w : Quad Word) : Nat := bits w.q2 0 19 * 32

/-- Whether FLAGS and CBAR break R68. -/
def badFlags (w : Quad Word) : Bool := flagsOf w / 4 != 0 || (cba w && !cbv w) || (!cbv w && cbarOf w != 0)

/-- Four words from 32 little-endian bytes. -/
def quadOf (l : List Byte) : Quad Word :=
  let w := fun n => toWord (ofBytes ((l.drop (8 * n)).take 8))
  ⟨w 0, w 1, w 2, w 3⟩

/-- The patches of `cpy` and `ecmd` (R54). -/
def patched (w : Quad Word) (p1 p2 : BitVec 1) (w1 w2 : BitVec 2) (a b : Word) : Quad Word :=
  let w := if p1 = 1 then w.setNth w1.toNat a else w
  if p2 = 1 then w.setNth w2.toNat b else w

/-! ### The mover's layouts (R252 to R257, R286) -/

/-- The shape record of COPY, FILL and MCAST breaks R253 or R257. -/
def badCopyShape (kind : Nat) (r : Quad Word) : Bool :=
  bits r.q0 3 1 != 0 || bits r.q0 7 1 != 0 || r.q3 != 0 || bits r.q0 0 3 ≥ 6 || bits r.q0 4 3 ≥ 6 || bits r.q0 8 24 == 0 ||
    bits r.q0 32 16 == 0 || bits r.q0 48 16 == 0 || (kind == 5 && (bits r.q0 0 3 != 0 || r.q1 != 0))

/-- The number of bytes of a gather index. -/
def indexBytes (r : Quad Word) : Nat := 2 ^ (1 + bits r.q0 48 2)

/-- The shape record of GATHER breaks R254 or R257. -/
def badGatherShape (r : Quad Word) : Bool :=
  bits r.q0 3 1 != 0 || bits r.q0 7 1 != 0 || bits r.q0 50 14 != 0 || bits r.q1 24 40 != 0 || r.q3 != 0 || bits r.q0 0 3 ≥ 6 ||
    bits r.q0 4 3 ≥ 6 || bits r.q0 8 24 == 0 || bits r.q0 32 16 == 0 || bits r.q0 48 2 == 3 ||
    bits r.q1 0 24 % indexBytes r != 0

/-- The shape record of I2C breaks R255 or R257. -/
def badImageShape (r : Quad Word) : Bool :=
  bits r.q0 3 1 != 0 || bits r.q0 7 1 != 0 || bits r.q3 32 32 != 0 || bits r.q0 0 3 ≥ 6 || bits r.q0 4 3 ≥ 6 ||
    bits r.q0 8 16 == 0 || bits r.q0 24 16 == 0 || bits r.q0 40 16 == 0 || bits r.q0 56 4 == 0 || bits r.q0 60 4 == 0 ||
    decide (bits r.q2 32 16 < bits r.q2 0 16) || decide (bits r.q2 48 16 < bits r.q2 16 16)

/-- A QFENCE command breaks R252 or R257; `queues` is the number of queues of its engine. -/
def badQfence (w : Quad Word) (queues : Nat) : Bool :=
  w.q0 != 0 || w.q1 != 0 || bits w.q2 4 15 != 0 || bits w.q2 0 4 == 0 || bits w.q2 0 4 ≥ 2 ^ queues

/-- The kind-specific words of MCAST break R286. -/
def badMcast (w r : Quad Word) : Bool :=
  bits w.q1 33 31 != 0 || bits w.q1 24 8 == 0 || bits r.q0 4 3 != 1 ||
    (bits w.q1 32 1 == 1 && (!cbv w || bits (toWord (cbarOf w)) 24 9 != 0))

/-- A command and its shape record that `cpy` refuses (R68, R241). -/
def badMover (w r : Quad Word) : Bool :=
  badFlags w ||
    match kindOf w with
    | 1 | 5 => badCopyShape (kindOf w) r
    | 2 => badCopyShape 2 r || badMcast w r
    | 3 => badGatherShape r
    | 4 => bits w.q0 32 32 != 0 || badImageShape r
    | 6 => badQfence w 4
    | _ => true

/-! ### Pushing (R241, R243, R245, R246) -/

/-- Whether a kind takes a shape record (R241). -/
def hasShape (kind : Nat) : Bool := 1 ≤ kind && kind ≤ 5

/-- 32 bytes at an offset lie where a command word may read (R241). -/
def Ctx.holdsRecord (c : Ctx) (o : Nat) : Bool := c.owns o 32 && populated c.who.die o

/-- What the 32 bytes at an offset come to: their bytes, whether a line of them holds an uncorrectable error, and what UNINIT_ADDR records of
them. -/
def State.recordAt (s : State) (c : Ctx) (o : Nat) : List Byte × Bool × Option Word :=
  let m := s.core c.core
  (m.getBytes o 32, (m.badByte o 32).isSome, (m.invalidLine o 32).map fun l => uninitWord 0 (l * 64))

/-- Enters a command in a queue (R246), behind the fences whose condition does not yet hold. The page directory starts one when what those fences
cover has performed at package scope, since it may signal for it (R440). -/
def State.pushCmd (s : State) (u : EngineUnit) (die q : Nat) (w r : Quad Word) (off : BitVec 24) : State :=
  match s.ctx? s.focus.1 with
  | none => s
  | some c =>
    let now := (s.die die).time
    let keep := c.cmdHolds.filter fun g => !s.gateMet s.focus.1 c g.atPackage
    let holds := if u == .kv then keep.map Gate.atPackage else keep.filter fun g => !s.gateMet s.focus.1 c g
    let cmd : Cmd :=
      { ctx := s.focus.1, unit := u, die := die, lcore := c.who.lcore, q := q, words := w, shape := r, off := off,
        t := if issueTime w = 0 then now else issueTime w, pushed := c.pushes, visible := now + 1, behind := holds,
        running := false, finished := false, credits := [], note := 0, notes := [], work := none }
    { s.setCtx s.focus.1 { c with pushes := c.pushes + 1, cmdHolds := keep } with
      cmds := s.cmds.insert s.serial cmd
      serial := s.serial + 1 }

/-- A mover queue is full (R245, R246). -/
def State.moverFull (s : State) (q : Nat) : Bool :=
  match s.ctx? s.focus.1 with
  | none => false
  | some c => decide (32 ≤ (s.moverCmds c q).length)

/-- The wait of `cpy` and `qfence` for room, over the queues they push into (R245). -/
def State.moverRoom (s : State) (qs : List Nat) : Option (BitVec 4 × Bool) :=
  (qs.find? s.moverFull).map fun q => (BitVec.ofNat 4 (4 + q), true)

/-- What `cpy` and `ecmd` share (R241, R242): reads the command at OFF24, patches it, reads the record that `rec` names, makes the checks in
R241's order, and enters the command. A fault found in what the bytes hold is one that an acquire holds back. -/
def pushBody (off : BitVec 24) (patch : Quad Word → Quad Word) (rec : Quad Word → Option Nat) (bad : Quad Word → Quad Word → Bool)
    (go : Quad Word → Quad Word → State → State) (s : State) : Body :=
  withCtx s fun c =>
    if off.toNat % 32 ≠ 0 then s.fault causeMisalign
    else if !c.holdsRecord off.toNat then s.fault causeSpaceFault
    else
      let (b, ue, un) := s.recordAt c off.toNat
      let w := patch (quadOf b)
      let shape := rec w
      if shape.any fun o => !c.holdsRecord o then .late id (.issue causeSpaceFault s.focus.2)
      else
        let (rb, rue, run) :=
          match shape with
          | none => (List.replicate 32 0, false, none)
          | some o => s.recordAt c o
        let c := (shape.toList).foldl Ctx.usePort (c.usePort off.toNat)
        let u := un.or run
        if ue || rue then s.faultLate c causeEccUe
        else if u.isSome && c.umode = 0 then s.faultLate c causeUninitRead
        else if bad w (quadOf rb) then s.faultLate c causeIllegalOp
        else
          let c := (u.toList).foldl Ctx.recordUninit c
          .ok (go w (quadOf rb) (s.setCtx s.focus.1 c))

/-- What CP and EC words read. -/
def usesPatch (p1 p2 : BitVec 1) (sa sb : BitVec 4) (s : State) : Uses where
  sa := if p1 = 1 then some (aFile s.focus.2 .ia, sa) else none
  sb := if p2 = 1 then some (bFile s.focus.2 .ia, sb) else none
  mem := true

/-- The die of the context in focus. -/
def State.dieOf (s : State) : Nat :=
  match s.ctx? s.focus.1 with
  | none => 0
  | some c => c.who.die

/-- `cpy` (R241). -/
def execCpy (h : Hdr) (f : FmtCP) (s : State) : Host.Outcome State Fault Refusal :=
  word (.cpy h f) h { usesPatch f.p1 f.p2 f.sa f.sb s with room := s.moverRoom [f.mq.toNat] }
    (fun a b _ t =>
      pushBody f.off (fun w => patched w f.p1 f.p2 f.w1 f.w2 a b)
        (fun w => if hasShape (kindOf w) then some (shpOf w) else none) badMover
        (fun w r t => t.pushCmd .mover t.dieOf f.mq.toNat w r f.off) t) s

/-- The QFENCE command that `qfence` enters (R243). -/
def qfenceWords (mqm : BitVec 4) : Quad Word := ⟨0, 0, toWord mqm.toNat, 0x0600000000000000⟩

/-- `qfence` (R243). -/
def execQfence (h : Hdr) (f : FmtQF) (s : State) : Host.Outcome State Fault Refusal :=
  word (.qfence h f) h { mem := true, room := s.moverRoom (setBitsOf f.mqm.toNat 0 4) }
    (fun _ _ _ t =>
      .ok ((setBitsOf f.mqm.toNat 0 4).foldl (fun t q => t.pushCmd .mover t.dieOf q (qfenceWords f.mqm) (.all 0) 0) t)) s

/-! ### Starting (R247, R248) -/

/-- Two commands are in one queue. -/
def Cmd.sameQueue (a b : Cmd) : Bool :=
  a.unit == b.unit && decide (a.die = b.die) && decide (a.q = b.q) && (a.unit != .mover || decide (a.lcore = b.lcore))

/-- Two commands are in queues of one engine. -/
def Cmd.sameEngine (a b : Cmd) : Bool :=
  a.unit == b.unit && decide (a.die = b.die) && (a.unit != .mover || decide (a.lcore = b.lcore))

/-- A command is a QFENCE. -/
def Cmd.isFence (c : Cmd) : Bool := kindOf c.words == 6

/-- Eligible of R247 for the command with serial number `id`. -/
def State.eligible (s : State) (id : Nat) (c : Cmd) : Bool :=
  !c.running && decide (c.visible ≤ (s.die c.die).time) && decide (c.t ≤ (s.die c.die).time) &&
    (s.cmds.items.all fun e => !(e.2.sameQueue c && e.2.running)) &&
    (s.cmds.items.all fun e => !(e.2.sameQueue c && decide (e.1 < id) && e.2.isFence)) &&
    (match s.ctx? c.ctx with
     | none => true
     | some x => c.behind.all (s.gateMet c.ctx x)) &&
    (!c.isFence ||
      s.cmds.items.all fun e =>
        !(e.2.sameEngine c && decide (e.1 < id) && (decide (e.2.q = c.q) || bits c.words.q2 e.2.q 1 == 1)))

/-- The eligible command of a queue with the least key (T, s). -/
def State.nextCmd (s : State) (l : List (Nat × Cmd)) : Option (Nat × Cmd) :=
  match l.filter fun e => s.eligible e.1 e.2 with
  | [] => none
  | a :: r => some (r.foldl (fun a b => if b.2.t < a.2.t then b else a) a)

/-- MOVER_COMMAND_START (R247, R248): queue `q` of the core of a context starts its eligible command with the least key. -/
def execMoverCommandStart (ctx q : Nat) (s : State) : Host.Outcome State Fault Refusal :=
  .next
    (match s.ctx? ctx with
     | none => s
     | some c =>
       match s.nextCmd (s.moverCmds c q) with
       | none => s
       | some (id, cmd) =>
         let late := issueTime cmd.words != 0 && decide (issueTime cmd.words < (s.die cmd.die).time)
         let s := { s with cmds := s.cmds.insert id { cmd with running := true } }
         if late then s.modCtx cmd.ctx fun c => { c with ctr := { c.ctr with late := satInc c.ctr.late } } else s)

/-! ### Faults (R250) -/

/-- The launch of the context that pushed a command. -/
def State.launchOf (s : State) (c : Cmd) : Nat := ((s.ctx? c.ctx).map fun x => x.who.launch).getD 0

/-- The key under which the byte at a DSP flat address stands for a context of a launch, and its offset. -/
def State.barHome (s : State) (launch who a : Nat) : Nat × Nat := (s.seatOf launch who (coreKey (dspDie a) (dspCore a)) (dspOff a), dspOff a)

/-- The completion barriers of a command: at CBAR, or at its offset in each destination core of an MCAST (R282, R286). -/
def Cmd.barriers (c : Cmd) : List Nat :=
  if !cbv c.words then []
  else if kindOf c.words = 2 && bits c.words.q1 32 1 = 1 then
    (setBitsOf (bits c.words.q1 24 8) 0 8).map fun n => dspAddr (coreKey c.die (c.lcore / 8 * 8 + n)) (cbarOf c.words)
  else [cbarOf c.words]

/-- Breaks the completion barriers of a command. -/
def State.breakBarriers (s : State) (c : Cmd) : State :=
  c.barriers.foldl (fun t a => t.breakBar (s.barHome (s.launchOf c) c.ctx a).1 (s.barHome (s.launchOf c) c.ctx a).2) s

/-- Removes a command without running it and breaks its barriers (R250, R282). -/
def State.discardCmd (s : State) (id : Nat) : State :=
  match s.cmds.find? id with
  | none => s
  | some c => { s.breakBarriers c with cmds := s.cmds.erase id }

/-- A cause from outside the issue stream reaches a context; after `exit` it is offered to the task level (R232, R250, R461). -/
def State.offerCtx (s : State) (k : Nat) (i : TrapInfo) : State :=
  match s.ctx? k with
  | none => s
  | some c =>
    if c.status == .ending then s.offerTask k i
    else if c.status.over then s
    else s.setCtx k (c.offerAsync i)

/-- FINFO of a command's fault (R233, R250). -/
def Cmd.finfo (c : Cmd) (sp : Space) (wr : Bool) : Word :=
  toWord (spaceCode sp + (if wr then 8 else 0) + 0x10 + c.q % 4 * 0x20 + c.off.toNat * 0x100)

/-- What a fault discards of what has not started: its queue's; in the shared queues of the page-directory ports and the Lauter units only
what the same context pushed, of the Lauter units in either queue (R250, R418). -/
def Cmd.discards (c d : Cmd) : Bool :=
  !d.running &&
    match c.unit with
    | .mover | .coll => d.sameQueue c
    | .kv => d.sameQueue c && decide (d.ctx = c.ctx)
    | .lauter => d.unit == .lauter && decide (d.ctx = c.ctx)

/-- A command faults (R250). -/
def State.cmdFault (s : State) (id : Nat) (cause : Cause) (sp : Space) (addr : Nat) (wr : Bool) : State :=
  match s.cmds.find? id with
  | none => s
  | some c =>
    let gone := (s.cmds.items.filter fun e => decide (e.1 ≠ id) && c.discards e.2).map (·.1)
    ((id :: gone).foldl State.discardCmd s).offerCtx c.ctx (.landing cause .x (toWord addr) (c.finfo sp wr))

/-! ### Elements (R249, R253 to R255, R286) -/

/-- What an element access came to: a cause at an address of a space, read or written; cause 0 when it waits. -/
structure ElemFault where
  cause : Cause
  sp : Space
  addr : Nat
  wr : Bool
  deriving DecidableEq, Repr

/-- The 64-byte lines that bytes from an address touch. -/
def lineCount (addr n : Nat) : Nat := (addr + n + 63) / 64 - addr / 64

/-- Requests to a node take its sequence numbers, and are answered (R446). -/
def State.peerTraffic (s : State) (sp : Space) (addr n : Nat) : State :=
  match sp with
  | .peer =>
    let k := addr / 2 ^ 48
    ({ s with fab := { s.fab with tx := s.fab.tx.insert k (s.fab.tx.getD k 0 + BitVec.ofNat 32 (lineCount addr n)) } }).acknowledge k
  | _ => s

/-- An access of a command waits: at a network port, for buffered stores of the core's cluster that it is to come after (R299, R310), or for
earlier requests of the package to its line in another one (R445). -/
def State.heldBack (s : State) (c : Ctx) (sp : Space) (addr n : Nat) (wr : Bool) : Bool :=
  s.portClosed c sp addr || s.pathShut c sp addr || s.peerBehind s.serial sp addr n ||
    (match s.homes c sp wr addr n with
     | .ok l => s.bufferHolds c.who.die c.who.lcore l
     | .error _ => false)

/-- Reads bytes for a command: invalid lines read as zeros (R249). -/
def State.engineRead (s : State) (c : Ctx) (sp : Space) (addr n : Nat) : Except ElemFault (State × List Byte) :=
  if s.heldBack c sp addr n false then .error ⟨0, sp, addr, false⟩
  else if s.badAddress c sp (toWord addr) then .error ⟨causeSpaceFault, sp, addr, false⟩
  else if s.isolated c sp addr then .error ⟨causeRemoteAbort, sp, addr, false⟩
  else
    let s := s.prefill c sp addr n
    match s.readAt c sp addr n with
    | .error (e, a) => .error ⟨e, sp, a, false⟩
    | .ok (b, _) => .ok (s.peerTraffic sp addr n, b)

/-- The fault that a write of `n` bytes for a command meets (R250, R272, R460). -/
def State.writeFault (s : State) (c : Ctx) (sp : Space) (addr n : Nat) : Option ElemFault :=
  if s.badAddress c sp (toWord addr) then some ⟨causeSpaceFault, sp, addr, true⟩
  else if s.isolated c sp addr then some ⟨causeRemoteAbort, sp, addr, true⟩
  else if (sp == .host || sp == .peer) && s.mismatched c then some ⟨causeDigestMismatch, sp, addr, true⟩
  else
    match s.homes c sp true addr n with
    | .error (e, a) => some ⟨e, sp, a, true⟩
    | .ok l => (l.findIdx? s.taggedAt).map fun i => ⟨causeBarrierClobber, sp, addr + i, true⟩

/-- A write of a command to another package is among those that its core's next flush there covers (R447). -/
def State.noteNode (s : State) (k : Nat) (sp : Space) (addr : Nat) : State :=
  match sp with
  | .peer => s.modCtx k fun c => { c with peerNodes := c.peerNodes.note (addr / 2 ^ 48) s.serial }
  | _ => s

/-- Writes bytes for a command, which no digest tells of yet; a fault writes nothing (R249, R250). -/
def State.engineStore (s : State) (c : Ctx) (sp : Space) (addr : Nat) (bytes : List Byte) : Except ElemFault State :=
  if s.heldBack c sp addr bytes.length true then .error ⟨0, sp, addr, true⟩
  else
    match s.writeFault c sp addr bytes.length, s.homes c sp true addr bytes.length with
    | some e, _ => .error e
    | none, .ok l => .ok (((s.setBytes c addr l bytes).peerTraffic sp addr bytes.length).noteNode c.key sp addr)
    | none, .error (e, a) => .error ⟨e, sp, a, true⟩

/-- Writes bytes for a command, with their digest records (R351). -/
def State.engineWrite (s : State) (c : Ctx) (sp : Space) (addr : Nat) (bytes : List Byte) : Except ElemFault State :=
  match s.engineStore c sp addr bytes with
  | .error e => .error e
  | .ok t => .ok (t.foldWrite c.key c sp addr (bytes.map some))

/-- An address moved by a signed distance, in 64-bit two's complement, a PEER address in bits [47:0] alone (R252). -/
def moveAddr (sp : Space) (base : Word) (d : Int) : Nat :=
  match sp with
  | .peer => bits base 48 16 * 2 ^ 48 + bits (base + wordI d) 0 48
  | _ => (base + wordI d).toNat

/-- The source and destination spaces of a shape record. -/
def ssOf (r : Quad Word) : Space := spaceOf (bits r.q0 0 3)
def dsOf (r : Quad Word) : Space := spaceOf (bits r.q0 4 3)

/-- A signed 32-bit field. -/
def s32 (w : Word) (lo : Nat) : Int := signed (bits w lo 32) 32

/-- The inner and outer index of element `i` of COPY, FILL and MCAST (R253). -/
def inner (r : Quad Word) (i : Nat) : Int := i % bits r.q0 32 16
def outer (r : Quad Word) (i : Nat) : Int := i / bits r.q0 32 16

/-- The source of element `i` of COPY and MCAST. -/
def copySrc (w r : Quad Word) (i : Nat) : Space × Nat :=
  (ssOf r, moveAddr (ssOf r) w.q0 (outer r i * s32 r.q1 32 + inner r i * s32 r.q1 0))

/-- The distance of element `i` in the destination. -/
def dstMove (r : Quad Word) (i : Nat) : Int := outer r i * s32 r.q2 32 + inner r i * s32 r.q2 0

/-- FILL's bytes (R253). -/
def fillBytes (pat : Word) (n : Nat) : List Byte := (range 0 n).map fun j => BitVec.ofNat 8 (pat.toNat / 2 ^ (8 * (j % 8)))

/-- The source of a pixel (R255), none outside the image. -/
def pixelSrc (w r : Quad Word) (i : Nat) : Option (Space × Nat) :=
  let width := bits r.q2 32 16 - bits r.q2 0 16 + 1
  let px : Int := bits r.q2 0 16 + i % width
  let py : Int := bits r.q2 16 16 + i / width
  let x := px * bits r.q0 56 4 + signed (bits w.q0 0 16) 16
  let y := py * bits r.q0 60 4 + signed (bits w.q0 16 16) 16
  if 0 ≤ x && x < bits r.q0 24 16 && 0 ≤ y && y < bits r.q0 40 16 then
    some (ssOf r, moveAddr (ssOf r) r.q1 (y * bits r.q3 0 32 + x * bits r.q0 8 16))
  else none

/-- Element `i` of a mover command, with the state after the mover has read its index (R253 to R255, R286). -/
def State.elem (s : State) (c : Ctx) (w r : Quad Word) (i : Nat) : Except ElemFault (State × Elem) :=
  let len := bits r.q0 8 24
  match kindOf w with
  | 1 => .ok (s, ⟨some (copySrc w r i), [], len, [(dsOf r, moveAddr (dsOf r) w.q1 (dstMove r i))]⟩)
  | 2 =>
    .ok (s, ⟨some (copySrc w r i), [], len,
      (setBitsOf (bits w.q1 24 8) 0 8).map fun n => (.csp, clusterAddr n (bits w.q1 0 24 + dstMove r i) len)⟩)
  | 3 =>
    match s.engineRead c .lsp (bits r.q1 0 24 + i * indexBytes r) (indexBytes r) with
    | .error e => .error e
    | .ok (s, b) =>
      .ok (s, ⟨some (ssOf r, moveAddr (ssOf r) w.q0 (ofBytes b * bits r.q2 0 32 : Nat)), [], len,
        [(dsOf r, moveAddr (dsOf r) w.q1 (i * s32 r.q2 32))]⟩)
  | 4 =>
    let n := bits r.q0 8 16
    let dst := [(dsOf r, moveAddr (dsOf r) w.q1 (i * n : Nat))]
    match pixelSrc w r i with
    | some a => .ok (s, ⟨some a, [], n, dst⟩)
    | none => .ok (s, ⟨none, List.replicate n 0, n, dst⟩)
  | _ => .ok (s, ⟨none, fillBytes w.q0 len, len, [(dsOf r, moveAddr (dsOf r) w.q1 (dstMove r i))]⟩)

/-- The number of elements of a mover command. -/
def elemCount (w r : Quad Word) : Nat :=
  match kindOf w with
  | 3 => bits r.q0 32 16
  | 4 => (bits r.q2 32 16 - bits r.q2 0 16 + 1) * (bits r.q2 48 16 - bits r.q2 16 16 + 1)
  | _ => bits r.q0 32 16 * bits r.q0 48 16

/-- The largest naturally aligned block at an address that fits into `n` bytes (R249). -/
def blockLen (addr n : Nat) : Nat := ([64, 32, 16, 8, 4, 2].find? fun m => decide (addr % m = 0) && decide (m ≤ n)).getD 1

/-- The naturally aligned blocks of `n` bytes from an address, as places in the element and lengths (R249); the first argument is no less than their
number. -/
def blocks : Nat → Nat → Nat → Nat → List (Nat × Nat)
  | 0, _, _, _ => []
  | fuel + 1, addr, off, n =>
    if n = 0 then []
    else
      let m := blockLen addr n
      (off, m) :: blocks fuel (addr + m) (off + m) (n - m)

/-- An element that a mover begins (R249): its source blocks, and the blocks of each of its destinations. -/
def Work.start (e : Elem) : Work :=
  { elem := e
    toRead := match e.src with
      | none => []
      | some (_, a) => blocks e.len a 0 e.len
    buf := Mem.writeBytes .empty 0 e.bytes
    toWrite := (List.zip (range 0 e.dst.length) e.dst).flatMap fun d => (blocks e.len d.2.2 0 e.len).map fun b => (d.1, b)
    writing := false }

/-- Where a source block of an element lies. -/
def Work.srcAt (k : Work) (b : Nat × Nat) : Space × Nat :=
  match k.elem.src with
  | none => (.lsp, 0)
  | some (sp, a) => (sp, sp.step a b.1)

/-- Where a destination block of an element lies. -/
def Work.dstAt (k : Work) (b : Nat × Nat × Nat) : Space × Nat :=
  let (sp, a) := k.elem.dst.getD b.1 (.lsp, 0)
  (sp, sp.step a b.2.1)

/-- The block that a mover takes next among those whose network port is open (log 49). -/
def State.nextBlock {α : Type} (s : State) (c : Ctx) (place : α → Space × Nat) (l : List α) : Option (Nat × α) :=
  (pick (Config.blockChoice s.serial) (range 0 l.length) fun n =>
    match l[n]? with
    | none => false
    | some b => !(s.portClosed c (place b).1 (place b).2 || s.pathShut c (place b).1 (place b).2)).bind fun n => (l[n]?).map fun b => (n, b)

/-- Replaces a command, taking a serial number. -/
def State.putCmd (s : State) (id : Nat) (c : Cmd) : State := { s with cmds := s.cmds.insert id c, serial := s.serial + 1 }

/-- What a step of a mover command comes to: a fault of the command, or the state after it. -/
def State.orFault (s : State) (id : Nat) : Except ElemFault State → State
  | .ok t => t
  | .error x => if x.cause = 0 then s else s.cmdFault id x.cause x.sp x.addr x.wr

/-- Reads one source block of an element (R249). -/
def State.readBlockOf (s : State) (id : Nat) (cmd : Cmd) (c : Ctx) (k : Work) : Except ElemFault State :=
  match s.nextBlock c k.srcAt k.toRead with
  | none => .ok s
  | some (n, b) =>
    let s := s.cacheFor c.key (k.srcAt b).1 (k.srcAt b).2 b.2
    match s.engineRead ((s.ctx? c.key).getD c) (k.srcAt b).1 (k.srcAt b).2 b.2 with
    | .error x => .error x
    | .ok (t, l) => .ok (t.putCmd id { cmd with work := some { k with toRead := k.toRead.eraseIdx n, buf := k.buf.writeBytes b.1 l } })

/-- What is complete of a destination of an element with a block written, as a place in the element and a length: the block, or the 8-byte word that
it lies in once no other block of the word is left. -/
def Work.wordsDone (k : Work) (rest : List (Nat × Nat × Nat)) (b : Nat × Nat × Nat) : Option (Nat × Nat) :=
  let w := (k.dstAt b).2 / 8
  let base := (k.elem.dst.getD b.1 (.lsp, 0)).2
  if 8 ≤ b.2.2 then some b.2
  else if rest.any fun x => decide (x.1 = b.1) && decide ((k.dstAt x).2 / 8 = w) then none
  else some (8 * w - base, min (base + k.elem.len) (8 * w + 8) - max base (8 * w))

/-- The digest records of a destination block: one for each 8-byte word that the element touches (R351). -/
def State.foldBlock (s : State) (c : Ctx) (k : Work) (rest : List (Nat × Nat × Nat)) (b : Nat × Nat × Nat) : State :=
  match k.wordsDone rest b with
  | none => s
  | some (off, n) => s.foldWrite c.key c (k.dstAt b).1 (k.dstAt (b.1, off, n)).2 ((k.buf.readBytes off n).map some)

/-- A command owes its barrier a credit for bytes that it has written to destination `d`: one of its own, or one with what it still owes that barrier
(R66, R282, log 63). -/
def Cmd.credit (c : Cmd) (d n serial : Nat) : Cmd :=
  match (if c.barriers.length ≤ 1 then c.barriers.head? else c.barriers[d]?) with
  | none => c
  | some a =>
    match if Config.joinsCredit serial then c.credits.findIdx? fun e => decide (e.1 = a) else none with
    | some i => { c with credits := c.credits.modify i fun e => (e.1, e.2.1 + n, e.2.2) }
    | none => { c with credits := c.credits ++ [(a, n, false)] }

/-- Writes one destination block of an element; the last ends it (R249). It is credited as it lands (R66). -/
def State.writeBlockOf (s : State) (id : Nat) (cmd : Cmd) (c : Ctx) (k : Work) : Except ElemFault State :=
  match s.nextBlock c k.dstAt k.toWrite with
  | none => .ok s
  | some (n, b) =>
    match s.engineStore c (k.dstAt b).1 (k.dstAt b).2 (k.buf.readBytes b.2.1 b.2.2) with
    | .error x => .error x
    | .ok t =>
      let rest := k.toWrite.eraseIdx n
      .ok ((t.foldBlock c k rest b).putCmd id ({ cmd with work := some { k with toWrite := rest } }.credit b.1 b.2.2 t.serial))

/-- The first fault among the destinations of an element: a faulting element writes nothing (R250). -/
def State.elemFault (s : State) (c : Ctx) (e : Elem) : Option ElemFault := e.dst.findSome? fun d => s.writeFault c d.1 d.2 e.len

/-- A step of an element under way: a source block, then the examination of its destinations, then a destination block, then its end. -/
def State.elemStep (s : State) (id : Nat) (cmd : Cmd) (c : Ctx) (k : Work) : Except ElemFault State :=
  if !k.toRead.isEmpty then s.readBlockOf id cmd c k
  else if !k.writing then
    let s := k.elem.dst.foldl (fun s d => s.cacheFor c.key d.1 d.2 k.elem.len) s
    match s.elemFault ((s.ctx? c.key).getD c) k.elem with
    | some x => .error x
    | none => .ok (s.putCmd id { cmd with work := some { k with writing := true } })
  else if !k.toWrite.isEmpty then s.writeBlockOf id cmd c k
  else .ok (s.putCmd id { cmd with note := cmd.note + 1, work := none })

/-- A command of an engine has ended its work: what it owes its barriers for the last `bytes` bytes that it wrote, and the arrivals that follow every
credit (R66, R282, R286). -/
def Cmd.finish (c : Cmd) (bytes : Nat) : Cmd :=
  { c with running := true, finished := true, credits := c.credits ++ c.barriers.map fun a => (a, bytes, cba c.words) }

/-- The next step of a running command (R249, R250): the element under way, the next element in order, or its end. -/
def State.moverStep (s : State) (id : Nat) (cmd : Cmd) (c : Ctx) : Except ElemFault State :=
  match cmd.work with
  | some k => s.elemStep id cmd c k
  | none =>
    if elemCount cmd.words cmd.shape ≤ cmd.note then .ok (s.putCmd id (cmd.finish 0))
    else
      match s.elem c cmd.words cmd.shape cmd.note with
      | .error x => .error x
      | .ok (t, e) => .ok (t.putCmd id { cmd with work := some (.start e) })

/-- A running command of a kind does the next of its work. -/
def State.runMover (s : State) (id kind : Nat) : State :=
  match s.cmds.find? id with
  | none => s
  | some cmd =>
    if cmd.unit != .mover || kindOf cmd.words != kind || !cmd.running || cmd.finished then s
    else
      match s.ctx? cmd.ctx with
      | none => s
      | some c => s.orFault id (s.moverStep id cmd c)

/-- The block outside the package that a mover command is to access next: its space, its address, and whether it is written. -/
def Cmd.outside (c : Cmd) : Option (Space × Nat × Bool) :=
  let far := fun sp : Space => sp == .peer || sp == .host
  match c.work with
  | none => none
  | some k =>
    if k.toRead.isEmpty then (k.toWrite.find? fun b => far (k.dstAt b).1).map fun b => ((k.dstAt b).1, (k.dstAt b).2, true)
    else (k.toRead.find? fun b => far (k.srcAt b).1).map fun b => ((k.srcAt b).1, (k.srcAt b).2, false)

/-- An access of a command outside the package fails: another package refuses it, or its node or the host cannot be reached or does not answer
(R250). -/
def State.failOutside (s : State) (id : Nat) (cause : Cause) (spaces : List Space) : State :=
  match (s.cmds.find? id).bind Cmd.outside with
  | some (sp, a, wr) => if spaces.contains sp then s.cmdFault id cause sp a wr else s
  | none => s

/-- DEFERRED_STORE_FAULT (R232, R250): an access without a landing faults at its target or on the way, for a reason outside this package's
memories, and the fault is recorded; so does an access of a mover command. -/
def execDeferredStoreFault (req : Nat) (cause : Cause) (s : State) : Host.Outcome State Fault Refusal :=
  .next
    (match s.packet? req with
     | none => if storeCauses.contains cause then s.failOutside req cause [.peer, .host] else s
     | some p =>
       if p.land.isNone && p.act.writes && storeCauses.contains cause && p.unapplied then
         ((s.uncredit req p.act.length).failPacket req p cause p.addr).acked p
       else s)

/-- HOST_ACCESS_TIMEOUT (R231, R232, R250): the host never answers an access, or one of a mover command. -/
def execHostAccessTimeout (req : Nat) (s : State) : Host.Outcome State Fault Refusal :=
  .next
    (match s.packet? req with
     | none => s.failOutside req causeRemoteAbort [.host]
     | some p =>
       if p.space == .host && p.stage == .sent then s.failPacket req p causeRemoteAbort p.addr else s)

/-- COPY (R253). -/
def execCopy (cmd : Nat) (s : State) : Host.Outcome State Fault Refusal := .next (s.runMover cmd 1)

/-- GATHER (R254). -/
def execGather (cmd : Nat) (s : State) : Host.Outcome State Fault Refusal := .next (s.runMover cmd 3)

/-- I2C (R255). -/
def execI2c (cmd : Nat) (s : State) : Host.Outcome State Fault Refusal := .next (s.runMover cmd 4)

/-- FILL (R253). -/
def execFill (cmd : Nat) (s : State) : Host.Outcome State Fault Refusal := .next (s.runMover cmd 5)

/-- MCAST as a mover command (R286). -/
def execMcastCommand (cmd : Nat) (s : State) : Host.Outcome State Fault Refusal := .next (s.runMover cmd 2)

/-- QFENCE (R247): it ends in the cycle in which it starts. A QFENCE of the collective engine starts once everything pushed before it to
its queue and the queues of QM has completed. -/
def execQfenceCommand (cmd : Nat) (s : State) : Host.Outcome State Fault Refusal :=
  .next
    (match s.cmds.find? cmd with
     | none => s
     | some c =>
       if c.isFence && !c.finished && (c.running || (c.unit != .mover && s.eligible cmd c)) then
         { s with cmds := s.cmds.insert cmd (c.finish 0) }
       else s)

/-! ### Credits and completion (R66, R249, R282) -/

/-- ENGINE_CREDIT (R66, R282): the next credit of a command, which may still be running, with the arrival that follows it. A refusal is a fault of the
command. It credits the granule at CBAR whether or not a region of the launch holds it (log 63). -/
def execEngineCredit (cmd : Nat) (s : State) : Host.Outcome State Fault Refusal :=
  .next
    (match s.cmds.find? cmd with
     | none => s
     | some c =>
       match c.credits with
       | [] => s
       | (a, n, arrive) :: rest =>
         let (k, o) := s.barHome (s.launchOf c) c.ctx a
         if ((s.ctx? c.ctx).map fun x => s.portClosed x .dsp a).getD false then s
         else
           let (t, e) := if n = 0 then (s, 0) else s.creditBar k o n 0
           if e ≠ 0 then t.cmdFault cmd e .dsp a true
           else
             let (t, e) := if arrive then t.arriveBar k o 1 0 else (t, 0)
             if e ≠ 0 then t.cmdFault cmd e .dsp a true
             else { t with cmds := t.cmds.insert cmd { c with credits := rest } })

/-- COMMAND_COMPLETE (R249): everything has performed and every credit has been applied; the entry is free. -/
def execCommandComplete (cmd : Nat) (s : State) : Host.Outcome State Fault Refusal :=
  .next
    (match s.cmds.find? cmd with
     | none => s
     | some c => if c.finished && c.credits.isEmpty then { s with cmds := s.cmds.erase cmd } else s)

end Sys2Proof.Machine
end

