-- ==== Sys2Proof/Machine/SaveArea.lean ====
section
/-! DEFINITION. The save area, `ctxsv` and `ctxld`, and halting, saving and resuming a context (R35 to R38, R99, R100, R168 to R172, R224,
R238, R251, R359). -/

namespace Sys2Proof.Machine

/-! ### The context itself -/

/-- The context without its handler: its own C, clock and landings (R166). -/
def Ctx.own (c : Ctx) : Ctx :=
  match c.susp with
  | none => c
  | some u => { c with cls := { c.cls with q0 := u.c }, time := u.time, landings := u.landings }

/-- Puts the context's own C and landings back, under its handler if that runs. -/
def Ctx.putOwn (c o : Ctx) : Ctx :=
  match c.susp with
  | none => o
  | some u => { o with cls := { o.cls with q0 := c.cls.q0 }, time := c.time, landings := c.landings,
                       susp := some { u with c := o.cls.q0, landings := o.landings } }

/-- The code of a run state (R15). -/
def RunState.code : RunState → Nat
  | .idle => 0
  | .run => 1
  | .qwait => 2
  | .swait => 3
  | .joined => 4
  | .halted => 5
  | .istall => 6

/-- The run state of a code. -/
def RunState.ofCode : Nat → RunState
  | 0 => .idle
  | 1 => .run
  | 2 => .qwait
  | 3 => .swait
  | 4 => .joined
  | 5 => .halted
  | _ => .istall

/-- CSTAT of a cluster (R15). -/
def Ctx.cstat (c : Ctx) (cl : Cluster) : Word :=
  let x := c.cl cl
  let q := x.run == .qwait
  toWord (x.run.code + x.ret.length * 2 ^ 4 + (if cl == .c then c.forkset.toNat * 2 ^ 8 else 0) +
    (if q && x.qdir then 2 ^ 11 else 0) + (if q then x.qblk.toNat * 2 ^ 12 else 0))

/-- CORE_ID (R93). -/
def coreId (die lcore : Nat) : Word :=
  toWord (lcore + lcore % 8 * 2 ^ 7 + lcore / 8 * 2 ^ 10 + die * 2 ^ 14 + Config.ncore die * 2 ^ 16 + Config.lspLat die * 2 ^ 24 +
    Config.sphalf die * 2 ^ 28)

/-! ### Records (R37, R169) -/

/-- The writing cluster of a queue (R28). -/
def queueWriter (q : Nat) : Nat :=
  match q with
  | 0 | 1 | 2 => 0
  | 3 | 6 => 1
  | 4 | 7 => 2
  | _ => 3

/-- A record of a gate or hold whose condition does not hold, or of a withdrawn request without a landing (R140, R238, R330). -/
def holdRecord (data : List Byte) (hold : Option Hold) : Saved := ⟨0, 0, 3, 63, 0, false, 0, 0, some data, none, hold⟩

/-- The slot of a ticketed request or skip that is being retried (R330); OP, AOP, and W with SP in one byte (log 18). -/
def Packet.retrySlot (p : Packet) : List Byte :=
  let sp := if p.space == .mem then 1 else if p.space == .csp then 2 else 0
  let (op, aop, w, data) :=
    match p.act with
    | .ticket aop half t v => ((if p.land.isSome then 0x6B else 0x6C), aop, (if half then 1 else 0), t.toNat * 2 ^ 32 + v.toNat)
    | .winSkip t => (0x6E, 0, 0, t.toNat)
    | _ => (0, 0, 0, 0)
  [0x01, BitVec.ofNat 8 op, BitVec.ofNat 8 aop, BitVec.ofNat 8 (w + 2 * sp)] ++ List.replicate 4 0 ++ toBytes p.addr 8 ++ toBytes data 8 ++
    List.replicate 232 0

/-- The requests of a context that are being retried, by serial number. -/
def State.retried (s : State) (k : Nat) : List (Nat × Packet) :=
  s.net.items.filter fun e => decide (e.2.ctx = k) && e.2.stage == .retry

/-- The record of a landing whose request is being retried holds the request in its slot. -/
def State.withRetry (s : State) (k : Nat) (l : Landing) (r : Saved) : Saved :=
  match (s.retried k).find? fun e => e.2.land = some l.id with
  | none => r
  | some e => { r with data := some e.2.retrySlot }

/-- Puts a record with the serial number of its word behind those of a smaller offset, or of the same offset issued no later. -/
def insertSaved (r : Nat × Saved) : List (Nat × Saved) → List (Nat × Saved)
  | [] => [r]
  | a :: l => if a.2.d < r.2.d || a.2.d = r.2.d && a.1 ≤ r.1 then a :: insertSaved r l else r :: a :: l

/-- The records of a context in ascending offset, ties in issue order (R169). -/
def State.records (s : State) (k : Nat) (c : Ctx) : List Saved :=
  let l := (c.landings.filter fun l => !l.discarded).flatMap fun l => (l.records c).map fun r => (l.id, s.withRetry k l r)
  let skips := ((s.retried k).filter fun e => e.2.land.isNone).map fun e => (e.1, holdRecord e.2.retrySlot none)
  let holds := (c.holds.filter fun h => !s.holdMet k c h).map fun h => (s.serial, holdRecord (List.replicate 256 0) (some h))
  ((l ++ skips ++ holds).foldl (fun a r => insertSaved r a) []).map fun e => e.2

/-- Numbers the data slots of records in order, from `n` on. The records of one landing whose data has not arrived share the slot that it will come to;
`at_` are the slots of such landings so far (R168, R172). -/
def slotted : Nat → List (Nat × Nat) → List Saved → List (Saved × Option Nat)
  | _, _, [] => []
  | n, at_, r :: l =>
    if r.data.isNone then (r, none) :: slotted n at_ l
    else
      match if r.arr then none else r.land with
      | none => (r, some n) :: slotted (n + 1) at_ l
      | some i =>
        match at_.find? fun e => e.1 = i with
        | some e => (r, some e.2) :: slotted n at_ l
        | none => (r, some n) :: slotted (n + 1) ((i, n) :: at_) l

/-- The data slots of records, each once. -/
def slotImage (recs : List (Saved × Option Nat)) : List Byte :=
  (range 0 recs.length).flatMap fun n => ((recs.find? fun e => e.2 == some n).bind fun e => e.1.data).getD []

/-! ### The images of the parts -/

/-- Bytes cut or filled with zeros to a length. -/
def fit (n : Nat) (l : List Byte) : List Byte := (l ++ List.replicate n 0).take n

/-- Words as bytes. -/
def wordsImage (l : List Word) : List Byte := l.flatMap fun w => toBytes w.toNat 8

/-- The three words of a loop counter. -/
def LoopState.words (l : LoopState) : List Word := [l.count.setWidth 64, l.start, l.stop]

/-- Part 0 of one cluster (R169). -/
def Ctx.clusterImage (c : Ctx) (cl : Cluster) : List Byte :=
  let x := c.cl cl
  let files := if cl == .c then 6 else 2
  fit 0x100 (wordsImage
    ([x.pc, c.epc.get cl, c.cstat cl, toWord (x.preds.toNat / 2 * 2)] ++ x.lc0.words ++ x.lc1.words ++
      [if cl == .c then c.forkset.setWidth 64 else 0, toWord x.ret.length] ++ x.ret.reverse)) ++
  fit 0x300 (wordsImage ((range 0 files).flatMap fun f => (range 0 8).map (x.file f)))

/-- The image of a queue: the count of landed entries, then those entries (R169). -/
def Ctx.queueImage (c : Ctx) (q : Nat) : List Byte :=
  let l := (c.queue q).filterMap fun e => e.value
  fit 128 (wordsImage (toWord l.length :: l))

/-- The header (R168). -/
def Ctx.header (c : Ctx) (mask nrec : Nat) : List Byte :=
  fit 0x100 (wordsImage
    [toWord (1 + mask * 2 ^ 16), coreId c.who.die c.who.lcore, c.coreCtl, c.cause, toWord c.time, c.ctr.freeze, c.ctr.late,
     c.ctr.uninit, c.ctr.uninitAddr, c.ctr.pwin, toWord nrec, c.rgn.q0, c.rgn.q1, c.rgn.q2, c.rgn.q3, c.xroot, c.traceBase])

/-- A set of truth values as a byte string, bit n of the string telling of n. -/
def bitImage (n : Nat) (f : Nat → Bool) : List Byte :=
  (range 0 (n / 8)).map fun b => BitVec.ofNat 8 ((range 0 8).foldl (fun a j => a + (if f (8 * b + j) then 2 ^ j else 0)) 0)

/-- Reads bytes of an area or chunk. -/
def State.getArea (s : State) (a off n : Nat) : List Byte := (s.core (areaHome a).1).getBytes ((areaHome a).2 + off) n

/-- A word of an area. -/
def State.areaWord (s : State) (a off : Nat) : Word := toWord (ofBytes (s.getArea a off 8))

/-- An entry of the chunk table. -/
def State.chunk (s : State) (a n : Nat) : Nat := (s.areaWord a (0x100 + 8 * n)).toNat

/-- The addresses of the chunks, six of the MRF and four of the regions (R168). -/
def State.chunks (s : State) (a : Nat) : List Nat := (range 0 10).map (s.chunk a)

/-- The first line and the number of lines of a half's region. -/
def Ctx.regionLines (c : Ctx) (h : Nat) : Nat × Nat := ((c.region h).1 / 64, (c.region h).2 / 64)

/-- Part 2: the MRF's valid rows with their bits (R168). -/
def State.saveMrf (s : State) (a : Nat) (chunks : List Nat) (c : Ctx) : State :=
  let s := s.putArea a 0xC800 (fit 2048 (bitImage 6144 c.mrf.valid.has))
  (c.mrf.valid.elems.filter fun r => decide (r < 6144) && chunks.getD (r / 1024) 0 != 0).foldl
    (fun s r =>
      s.putArea (chunks.getD (r / 1024) 0) (r % 1024 * 256) ((range 0 128).flatMap fun i => toBytes (c.mrf.get (r * 128 + i)).toNat 2)) s

/-- Part 3: the valid lines of the regions with their bits (R168). -/
def State.saveRegions (s : State) (a : Nat) (chunks : List Nat) (c : Ctx) : State :=
  (range 0 4).foldl
    (fun s h =>
      let (l0, n) := c.regionLines h
      let m := s.core c.core
      let s := s.putArea a (0xD000 + 0x2000 * h) (bitImage 65536 fun l => decide (l < n) && m.lines.has (l0 + l))
      ((range 0 n).filter fun l => chunks.getD (6 + h) 0 != 0 && m.lines.has (l0 + l)).foldl
        (fun s l => s.putArea (chunks.getD (6 + h) 0) (64 * l) (m.getBytes ((l0 + l) * 64) 64)) s) s

/-- Where the array spill area of a context lies (R224). -/
def Ctx.spillAt (c : Ctx) : Nat := (c.region 3).1 + (c.region 3).2 - spillBytes

/-- Writes the array state into the spill area (R224). -/
def State.spill (s : State) (c : Ctx) : State :=
  if c.who.au then c.array.spill.foldl (fun s p => s.modCore c.core fun m => m.putBytes (c.spillAt + p.1) p.2) s else s

/-- Saves the header, telling of the parts `head`, and the parts of a mask of a context at an area, with given records. -/
def State.saveWith (s : State) (c : Ctx) (a head mask : Nat) (recs : List (Saved × Option Nat)) : State :=
    let chunks := s.chunks a
    let s := (s.putArea a 0 (c.header head recs.length)).putArea a 0x180 (List.replicate 0xE80 0)
    let s := if mask % 2 = 1 then s.putArea a 0x1000 (allClusters.flatMap c.clusterImage) else s
    let s :=
      if mask / 2 % 2 = 1 then
        (((s.putArea a 0x2000 (fit 2048 ((range 0 10).flatMap c.queueImage))).putArea a 0x2800
          (fit 0x2000 (recs.flatMap recordImage)))).putArea a 0x4800 (fit 0x8000 (slotImage recs))
      else s
    let s := if mask / 4 % 2 = 1 then s.saveMrf a chunks c else s
    if mask / 8 % 2 = 1 then (s.spill c).saveRegions a chunks c else s

/-- Saves the header and the parts of a mask of a context at an area. -/
def State.saveParts (s : State) (k a mask : Nat) : State :=
  match s.ctx? k with
  | none => s
  | some c => s.saveWith c.own a mask mask (slotted 0 [] (s.records k c.own))

/-! ### Loading -/

/-- The words of one cluster from its image: every address among them has zero in its three low bits (R11, R91). -/
def State.loadCluster (s : State) (a : Nat) (c : Ctx) (cl : Cluster) : Ctx :=
  let w := fun n => s.areaWord a (0x1000 + 0x400 * clIndex cl + 8 * n)
  let pc := fun n : Nat => w n / 8 * 8
  let loop := fun n : Nat => (⟨(w n).setWidth 32, pc (n + 1), pc (n + 2)⟩ : LoopState)
  let st := w 2
  let files := if cl == .c then 6 else 2
  let depth := min 8 (w 11).toNat
  let x : ClusterState :=
    { pc := pc 0, run := .ofCode (bits st 0 3), qblk := BitVec.ofNat 4 (bits st 12 4), qdir := bits st 11 1 = 1,
      preds := BitVec.ofNat 8 (bits (w 3) 1 7 * 2), lc0 := loop 4, lc1 := loop 7,
      ret := ((range 0 depth).map fun n => pc (12 + n)).reverse,
      files := ((range 0 (8 * files)).map fun n => (n, w (32 + n))).foldl (fun (f : FMap Word) e => f.insert e.1 e.2) .empty,
      lastAccess := (c.cl cl).lastAccess }
  let c := { c.setCl cl x with epc := c.epc.set cl (pc 1) }
  if cl == .c then { c with forkset := BitVec.ofNat 3 (w 10).toNat } else c

/-- A record from its bytes in an area. -/
def State.loadRecord (s : State) (a n : Nat) : Saved :=
  let w := fun i => s.areaWord a (0x2800 + 32 * n + 8 * i)
  let kind := bits (w 0) 60 4
  let slot := bits (w 1) 32 7
  let arr := bits (w 1) 0 1 = 1
  { d := bits (w 0) 0 32, kind := kind, cl := bits (w 0) 58 2, code := bits (w 0) 52 6,
    pos := if kind = 2 then bits (w 0) 37 3 else bits (w 0) 37 15, arr := arr, cause := reportable (bits (w 1) 16 8),
    value := w 2, data := if !arr || kind = 3 then some (s.getArea a (0x4800 + 256 * slot) 256) else none,
    land := none, hold := none }

/-- The cluster of a code (R169). -/
def clusterOf : Nat → Cluster
  | 0 => .c
  | 1 => .v
  | 2 => .m
  | _ => .x

/-- The landing of a record that no request is to answer: it holds its value, or never has one, and is pending from the next cycle of the context on
(R38). A record of an MRF operand has no lane mask, and its landing writes all 128 lanes (log 18). `access` is the last access of its cluster that
the area tells of. -/
def Saved.landing (r : Saved) (id t access : Nat) : Landing :=
  let l := Landing.blank id (clusterOf r.cl) t (t + r.d) access
  let l := { l with since := t, q1 := id, q2 := id + 1, cause := BitVec.ofNat 8 r.cause, missing := if r.arr then 0 else 1 }
  if r.kind = 3 then
    let code := BitVec.ofNat 15 r.pos
    { l with operand := some code, elems := elems16 code, vals := (pieces 2 128 (r.data.getD [])).map fun b => BitVec.ofNat 16 (ofBytes b) }
  else { l with d1 := BitVec.ofNat 6 r.code, v1 := r.value }

/-- A queue with an entry put at a position. -/
def insertAt (e : QEntry) (n : Nat) (l : List QEntry) : List QEntry := l.take n ++ [e] ++ l.drop n

/-- The landing of a context that a record was made of, if it is still there. -/
def Ctx.twin (c : Ctx) (r : Saved) : Option Landing := c.landings.find? fun l => (l.records c).any fun q => q.word0 = r.word0

/-- The id of the queue entry that a record reserves: that of the outstanding request's landing, or the record's own. -/
def Ctx.entryId (old : Ctx) (r : Saved) (id : Nat) : Nat :=
  match r.arr, old.twin r with
  | false, some l => if l.d1.toNat = r.code then l.q1 else l.q2
  | _, _ => id

/-- A queue entry that a record reserves, put at its position. -/
def Ctx.reserveSaved (old : Ctx) (c : Ctx) (e : Nat × Saved) : Ctx :=
  let q := outQueue (clusterOf e.2.cl) (e.2.code % 8)
  c.setQueue q (insertAt ⟨old.entryId e.2 e.1, none, 0⟩ e.2.pos (c.queue q))

/-- The core time in which the last access of a cluster that records tell of performs (R30, R38); 0 when they tell of none. -/
def lastSaved (t : Nat) (recs : List Saved) (cl : Nat) : Nat :=
  ((recs.filter fun r => decide (r.kind = 3) && decide (r.cl = cl)).map fun r => t + r.d).foldl max 0

/-- The part of an MRF landing that writes the elements of another one: those that the saved word writes (R178). -/
def Landing.within (l x : Landing) : Landing :=
  let p := (List.zip l.elems l.vals).filter fun e => x.elems.contains e.1
  { l with elems := p.map (·.1), vals := p.map (·.2) }

/-- One record loaded into a context: a record of an outstanding request of `old` stays that request's landing, with all it writes; one of a landing
of `old` that has its data writes what that landing writes, with the area's values (log 18). A record of a gate keeps the gates while the condition
does not hold. -/
def Ctx.loadSaved (old : Ctx) (s : State) (k : Nat) (last : Nat → Nat) (e : Ctx × Bool) (r : Nat × Saved) : Ctx × Bool :=
  let (c, gate) := e
  let (id, r) := r
  let fresh := r.landing id old.time (last r.cl)
  match r.arr, old.twin r with
  | false, some l => (if c.landings.any fun x => x.id = l.id then c else { c with landings := c.landings ++ [l] }, gate)
  | false, none =>
    if r.code = 63 && r.kind = 0 then (c, gate || !(old.holds.all (s.holdMet k old)))
    else ({ c with landings := c.landings ++ [fresh] }, gate)
  | true, none => if r.code = 63 && r.kind = 0 && r.cause = 0 then (c, gate) else ({ c with landings := c.landings ++ [fresh] }, gate)
  | true, some x =>
    ({ c with landings := c.landings ++ [{ (if r.kind = 3 then fresh.within x else fresh) with
        access := x.access, faddr := x.faddr, finfo := x.finfo, lbuf := x.lbuf, acquire := x.acquire, peer := x.peer, sem := x.sem
        put := if c.landings.any fun y => y.put.isSome && y.put = x.put && y.due = x.due then none else x.put }] }, gate)

/-- Part 1: the queue images, the entries that records reserve, from the front of each queue on, then the landings in the order of their
records. An entry of an image that the context's queue holds too keeps the cycle from which it is visible; another one is visible once the accesses of
its writer that the records tell of have performed (R30, R38, log 18). -/
def State.loadQueues (s : State) (k a : Nat) (c : Ctx) : Ctx × Nat :=
  let n := min 256 (s.areaWord a 0x50).toNat
  let recs := (range 0 n).map (s.loadRecord a)
  let last := lastSaved c.time recs
  let images := (range 0 10).foldl
    (fun (m : FMap (List QEntry)) q =>
      let n := min 8 (s.areaWord a (0x2000 + 0x80 * q)).toNat
      let late := if last (queueWriter q) = 0 then 0 else last (queueWriter q) + 1
      let old := (c.queue q).filter fun e => e.value.isSome
      m.insert q ((range 0 n).map fun i =>
        let v := s.areaWord a (0x2008 + 0x80 * q + 8 * i)
        let seen := ((old[i]?.filter fun e => e.value == some v).map QEntry.seen).getD late
        ⟨s.serial + 8 * q + i, some v, seen⟩)) .empty
  let ids := (List.zip (range 0 n) recs).map fun e => (s.serial + 80 + 2 * e.1, e.2)
  let front := (range 0 8).flatMap fun p => ids.filter fun e => decide (e.2.kind = 2) && decide (e.2.pos = p)
  let d := allClusters.foldl (fun d cl => d.setCl cl { d.cl cl with lastAccess := last (clIndex cl) })
    { c with queues := images, landings := [] }
  let e := ids.foldl (c.loadSaved s k last) (front.foldl c.reserveSaved d, false)
  ({ e.1 with holds := if e.2 then c.holds else [] }, s.serial + 80 + 2 * n)

/-- Part 2. -/
def State.loadMrf (s : State) (a : Nat) (c : Ctx) : Ctx :=
  let vb := s.getArea a 0xC800 768
  let rows := (range 0 6144).filter fun r => (vb.getD (r / 8) 0).getLsbD (r % 8)
  let m := rows.foldl
    (fun (m : Mrf) r =>
      m.puts ((range 0 128).map fun i => r * 128 + i)
        ((pieces 2 128 (s.getArea (s.chunk a (r / 1024)) (r % 1024 * 256) 256)).map fun b => BitVec.ofNat 16 (ofBytes b))) ⟨.empty, .empty⟩
  { c with mrf := m }

/-- A line of a region as part 3 loads it: its saved valid bit and bytes, but a tagged granule keeps its bytes and its tag (R271). -/
def State.loadLine (s : State) (core line : Nat) (bytes : Option (List Byte)) : State :=
  s.modCore core fun m =>
    let tagged := (range (4 * line) 4).any m.tags.has
    match bytes with
    | some b => m.putFree (64 * line) b
    | none => if tagged then m.putFree (64 * line) (List.replicate 64 0) else m.clearLines line 1

/-- Part 3: every line of the regions gets its saved valid bit, a valid line its bytes. -/
def State.loadRegions (s : State) (a : Nat) (c : Ctx) : State :=
  (range 0 4).foldl
    (fun s h =>
      let (l0, n) := c.regionLines h
      let vb := s.getArea a (0xD000 + 0x2000 * h) 0x2000
      (range 0 n).foldl
        (fun s l =>
          s.loadLine c.core (l0 + l)
            (if (vb.getD (l / 8) 0).getLsbD (l % 8) then some (s.getArea (s.chunk a (6 + h)) (64 * l) 64) else none)) s) s

/-- The array as the spill area of a context holds it (R224). -/
def State.unspilled (s : State) (c : Ctx) : MatrixArray :=
  if c.who.au then .unspill fun o n => (s.core c.core).getBytes (c.spillAt + o) n else c.array

/-- Loads the parts of a mask from an area into a context (R100). -/
def State.loadParts (s : State) (k a mask : Nat) : State :=
  match s.ctx? k with
  | none => s
  | some h =>
    let c := h.own
    let c := if mask % 2 = 1 then allClusters.foldl (s.loadCluster a) c else c
    let (c, n) := if mask / 2 % 2 = 1 then s.loadQueues k a c else (c, s.serial)
    let c := if mask / 4 % 2 = 1 then s.loadMrf a c else c
    let s := if mask / 8 % 2 = 1 then s.loadRegions a c else s
    let c := if mask / 8 % 2 = 1 then { c with array := s.unspilled c } else c
    { s.setCtx k (h.putOwn c) with serial := max s.serial n }

/-! ### The words (R99, R100, R170) -/

/-- Two address ranges share a byte. -/
def rangesMeet (a m b n : Nat) : Bool := decide (0 < m) && decide (0 < n) && decide (a < b + n) && decide (b < a + m)

/-- The bytes from an address lie in the populated offsets of one half of one core of a die. -/
def areaFits (die a n : Nat) : Bool :=
  decide (a / 2 ^ 33 = 0) && decide (dspDie a = die) && decide (dspCore a < Config.ncore die) &&
    decide (dspOff a % 2 ^ 22 + n ≤ Config.halfBytes die)

/-- The chunks that a mask needs, with their lengths. -/
def Ctx.neededChunks (c : Ctx) (mask : Nat) : List (Nat × Nat) :=
  (if mask / 4 % 2 = 1 then (range 0 6).map fun n => (n, 0x40000) else []) ++
    (if mask / 8 % 2 = 1 then ((range 0 4).map fun h => (6 + h, (c.region h).2)).filter fun e => e.2 != 0 else [])

/-- The checks of `ctxsv`, and of `ctxld` when `load` is set, in their order (R99, R100, R170). -/
def State.areaFault (s : State) (c : Ctx) (a b : Word) (load : Bool) : Option Cause :=
  let o := a.toNat
  let need := (c.neededChunks b.toNat).map fun e => (s.chunk o e.1, e.2)
  if bits b 4 60 ≠ 0 then some causeIllegalOp
  else if bits a 0 12 ≠ 0 then some causeMisalign
  else if !areaFits c.who.die o 1 then some causeSpaceFault
  else if load && ((bits (s.areaWord o 8) 14 2 = 0) != (c.who.die = 0)) then some causeIllegalOp
  else if !areaFits c.who.die o 0x15000 then some causeSpaceFault
  else if need.any fun e => e.1 % 4096 != 0 then some causeMisalign
  else if need.any fun e => e.1 == 0 || !areaFits c.who.die e.1 e.2 then some causeSpaceFault
  else none

/-- A line that a load of the parts of a mask reads holds an uncorrectable error (R100). -/
def State.areaBad (s : State) (c : Ctx) (a mask : Nat) : Bool :=
  ((a, 0x15000) :: (c.neededChunks mask).map fun e => (s.chunk a e.1, e.2)).any fun e =>
    let m := s.core (areaHome e.1).1
    m.bad.elems.any fun l => m.lines.has l && rangesMeet (l * 64) 64 (areaHome e.1).2 e.2

/-- C issues no word until the transfer of the word in focus has ended, at a die time that the spec leaves open (R99, R140). -/
def State.holdTransfer (s : State) : State :=
  { s.modCtx s.focus.1 fun c => { c with holds := c.holds ++ [.transfer ((s.die c.who.die).time + Config.transferCycles s.serial)] } with
    serial := s.serial + 1 }

/-- What `ctxsv` and `ctxld` share. -/
def areaBody (load : Bool) (go : Nat → Nat → State → State) (a b : Word) (s : State) : Body :=
  insideHandler s
    (withCtx s fun c =>
      match s.areaFault c a b load with
      | some e => s.fault e
      | none =>
        if load && s.areaBad c a.toNat b.toNat then s.fault causeEccUe
        else .ok ((go a.toNat b.toNat s).holdTransfer))

/-- The sources of a word of format S2 on ib. -/
def usesIb2 (f : FmtS2) : Uses where
  sa := some (aFile .c .ib, f.sa)
  sb := some (bFile .c .ib, f.sb)

/-- `ctxsv` (R99): saves the interrupted context. -/
def execCtxsv (h : Hdr) (f : FmtS2) (s : State) : Host.Outcome State Fault Refusal :=
  word (.ctxsv h f) h { usesIb2 f with priv := true }
    (fun a b _ t => areaBody false (fun a b t => t.saveParts t.focus.1 a b) a b t) s

/-- `ctxld` (R100): the loaded state takes effect at `eret`. -/
def execCtxld (h : Hdr) (f : FmtS2) (s : State) : Host.Outcome State Fault Refusal :=
  word (.ctxld h f) h { usesIb2 f with priv := true }
    (fun a b _ t => areaBody true (fun a b t => t.loadParts t.focus.1 a b) a b t) s

/-- `eret` (R98): the cycle ends with the handler. -/
def execEret (h : Hdr) (s : State) : Host.Outcome State Fault Refusal :=
  word (.eret h) h { priv := true } (fun _ _ _ t => insideHandler t (.finish (t.eret t.focus.1))) s

/-! ### Save areas of the scheduler (R359) -/

/-- The entries of the list at SAVEPOOL. -/
def Die.poolSize (d : Die) : Nat := bits d.savepool 40 8

/-- The first free entry of the list, by index. -/
def Die.freeArea (d : Die) : Option Nat := (range 0 d.poolSize).find? fun n => (d.areas.find? n).isNone

/-- The free entry that the die takes next (log 21). -/
def State.chooseArea (s : State) (die : Nat) : Option Nat :=
  pick (Config.saveArea s.serial) (range 0 (s.die die).poolSize) fun n =>
    decide (n < (s.die die).poolSize) && ((s.die die).areas.find? n).isNone

/-- The number of free entries. -/
def Die.freeAreas (d : Die) : Nat := ((range 0 d.poolSize).filter fun n => (d.areas.find? n).isNone).length

/-- The address in an entry of a die's list. -/
def State.poolEntry (s : State) (die n : Nat) : Nat :=
  (s.areaWord (bits (s.die die).savepool 12 21 * 2 ^ 12) (8 * n)).toNat % 2 ^ 33

/-! ### Register writes that take time (R120, R140) -/

/-- Keeps the bits of a mask. -/
def maskWord (v : Word) (m : Nat) : Word := v &&& toWord m

/-- A decode region of a die. -/
def Die.region (d : Die) (n : Nat) : DecodeRegion := d.regions.getD n .zero

/-- A region that a write would leave enabled is refused (R120). -/
def State.regionRefused (s : State) (die n : Nat) (r : DecodeRegion) : Bool :=
  let inside := fun a len => decide (a / 2 ^ 40 = die) && s.installedAll a len
  decide (24 ≤ r.fmt) || r.nvec == 0 || r.kb == 0 || !inside r.vbase r.viewSize || !inside r.sbase r.srcSize ||
    (r.scaleSize != 0 && !inside r.kbase r.scaleSize) || rangesMeet r.vbase r.viewSize r.sbase r.srcSize ||
    rangesMeet r.vbase r.viewSize r.kbase r.scaleSize ||
    (s.die die).regions.items.any fun e => e.1 != n && e.2.en && rangesMeet r.vbase r.viewSize e.2.vbase e.2.viewSize

/-- The LLC of a die holds no decoded line of a region any more. -/
def Die.dropSegments (d : Die) (n : Nat) : Die := { d with segments := d.segments.filter fun k _ => k / 2 ^ 40 != n }

/-- A write of DRC[n] (R119, R120). -/
def State.writeDrc (s : State) (die n : Nat) (v : Word) : State :=
  let old := (s.die die).region n
  let v := maskWord v 0xFFFFFFFFFF000F3F
  let put := fun (x : Word) => s.modDie die fun d => 
    let d := { d with regions := d.regions.insert n { old with drc := x } }
    if bits x 0 1 = bits old.drc 0 1 then d else d.dropSegments n
  let new := { old with drc := if old.en then setBits old.drc 0 1 1 else v }
  if bits v 0 1 = 1 then
    if s.regionRefused die n new then s.modDie die fun d => { d with regions := d.regions.insert n { old with drc := old.drc ||| 0x1000 } }
    else put (setBits new.drc 12 1 0)
  else if old.en then put (setBits old.drc 0 1 0)
  else put (setBits v 12 1 (bits old.drc 12 1))

/-- A register write that takes time ends (R140): of XINV, which drops the translations (R159), or of a DRC. -/
def State.endSlow (s : State) (k : Nat) (crn : BitVec 12) (v : Word) : State :=
  if crn = 0x046 then s.modCtx k fun c => { c with tlb := .empty } else s.writeDrc (k / 2 ^ 24) ((crn.toNat - 0x100) / 4) v

/-- What an abandoned handler leaves of its holds (R140): a transfer goes on until its end, and a register write that it has started runs to its
end, which comes here. -/
def State.abandonHolds (s : State) (k : Nat) : State :=
  match s.ctx? k with
  | none => s
  | some c =>
    c.holds.foldl (fun s h =>
      match h with
      | .write crn v => s.endSlow k crn v
      | _ => s) (s.setCtx k { c with holds := c.holds.filter fun h => !h.fixed || h.transfers })

/-- Halts a context at the boundary where it stands (R35, R171): a running handler is abandoned, its CAUSE stays pending. -/
def State.halt (s : State) (k : Nat) : State :=
  let s :=
    match s.ctx? k with
    | some c => if c.inHandler then (s.leaveHandler k false).abandonHolds k else s.modCtx k fun c => { c with epc := ⟨c.cls.q0.pc, c.cls.q1.pc, c.cls.q2.pc, c.cls.q3.pc⟩ }
    | none => s
  s.modCtx k fun c => { c with status := .halted, phase := .rest }

/-- Removes a free area from the list, writes its address into CTX_AREA and asks the core to halt (R359). -/
def State.requestSave (s : State) (k : Nat) : State :=
  match s.ctx? k with
  | none => s
  | some c =>
    if c.status ≠ .live then s
    else
      match s.chooseArea c.who.die with
      | none => s
      | some n =>
        let a := s.poolEntry c.who.die n
        let s := s.modDie c.who.die fun d => { d with areas := d.areas.insert n a }
        { (s.setCtx k { c with ctxArea := toWord a, saveSlot := some n }).halt k with serial := s.serial + 1 }

/-- PREEMPTION_REQUEST (R35, R171): the request reaches the core of a context that may be halted. -/
def execPreemptionRequest (ctx : Nat) (s : State) : Host.Outcome State Fault Refusal :=
  .next
    (match s.ctx? ctx with
     | none => s
     | some c => if c.who.nopre then s else s.requestSave ctx)

/-- A request of a halted context need not have been answered before the save (R171, R238, R284, R347). -/
def Packet.savedOpen (p : Packet) : Bool :=
  p.stage == .retry || p.stage == .parked || (!p.act.writes && (p.space == .peer || p.space == .host)) ||
    (match p.act with
     | .barWait _ | .mail _ _ => true
     | _ => false)

/-- The transfers that an abandoned handler has started have ended (R140). -/
def State.transferred (s : State) (k : Nat) : Bool :=
  match s.ctx? k with
  | none => true
  | some c => c.holds.all fun h => !h.transfers || s.holdMet k c h

/-- What the save of a halted context waits for of a hold (R238): everything but loads of PEER and HOST, and commands of engines other than the
mover. -/
def Hold.nearPart : Hold → Option Hold
  | .gate g => some (.gate { g with loads := g.loads.filter fun sp => sp != .peer && sp != .host, cmds := 0 })
  | .peerFlush node => some (.peerFlush node)
  | _ => none

/-- The near parts of the holds of a context are over. -/
def State.nearHeld (s : State) (k : Nat) : Bool :=
  match s.ctx? k with
  | none => true
  | some c =>
    (c.holds.filterMap Hold.nearPart).all fun h =>
      match h with
      | .peerFlush node => s.flushedTo c node
      | h => s.holdMet k c h

/-- Step 2 of R171 is over: near landings have their data, stores and atomics have performed, the flushes of gates have ended, and the mover buffers
are empty (R238, R251). -/
def State.settled (s : State) (k : Nat) : Bool :=
  s.transferred k && s.nearHeld k && (s.net.vals.all fun p => decide (p.ctx ≠ k) || p.savedOpen) && s.cmds.vals.all fun c => decide (c.ctx ≠ k) || c.unit != .mover

/-- A fault that a command met after the halt is the pending CAUSE (R251). -/
def Ctx.pendFault (c : Ctx) : Ctx :=
  match c.async.find? fun i => bits i.finfo 4 1 = 1 with
  | some i => if c.cause = 0 then { c with cause := i.word, async := c.async.erase i } else c
  | none => c

/-- The regions of two contexts share a byte. -/
def Ctx.overlaps (a b : Ctx) : Bool :=
  (range 0 4).any fun h =>
    let (x, m) := a.region h
    let (y, n) := b.region h
    decide (0 < m) && decide (0 < n) && decide (x < y + n) && decide (y < x + m)

/-- A context that shares the physical core from another logical core has regions that overlap those of a context (R340). -/
def State.sharesPlace (s : State) (c : Ctx) : Bool :=
  s.ctxs.vals.any fun d =>
    d.who.die == c.who.die && d.who.lcore != c.who.lcore && (s.die c.who.die).pcore d.who.lcore == (s.die c.who.die).pcore c.who.lcore &&
      d.overlaps c

/-- CONTEXT_SAVE (R171, R224, R238, R340, R363): until step 2 is over, the flushes that the gates of the context need are started; then parts 0, 1 and 2 and the header at CTX_AREA, the array in its spill area; part 3 stays resident
unless the context moves to another physical core, or another logical core uses its place there in turn. -/
def execContextSave (ctx : Nat) (s : State) : Host.Outcome State Fault Refusal :=
  .next
    (match s.ctx? ctx with
     | none => s
     | some c =>
       if c.status == .halted && s.settled ctx then
         let s := (s.modCtx ctx fun c => { c.pendFault with holds := c.holds.filter fun h => !h.transfers }).spill c
         let recs :=
           match s.ctx? ctx with
           | some d => slotted 0 [] (s.records ctx d)
           | none => []
         let all := c.moves || s.sharesPlace c
         (s.saveParts ctx c.ctxArea.toNat (if all then 15 else 7)).modCtx ctx fun c =>
           { c with status := .saved, records := recs, moves := all }
       else if c.status == .halted then s.setCtx ctx (c.holds.foldl Ctx.flushFor c)
       else s)

/-- Returns the save area of a context to the list (R359). -/
def State.returnArea (s : State) (k : Nat) : State :=
  match s.ctx? k with
  | none => s
  | some c =>
    let s := s.setCtx k { c with ctxArea := 0, saveSlot := none }
    match c.saveSlot with
    | none => s
    | some n => s.modDie c.who.die fun d => { d with areas := d.areas.erase n }

/-- The core loads parts 0, 1 and 2 from the save area of a context (R172, R359): what the area holds is what the save and the answers
since left there, unless it has been written otherwise. The array comes back from its spill area (R224), and no translation is cached
(R159). -/
def State.loadSaved (s : State) (k : Nat) : State :=
  match s.ctx? k with
  | none => s
  | some c =>
    let a := c.ctxArea.toNat
    let s := s.setCtx k { c with records := [], tlb := .empty, array := s.unspilled c }
    if a = 0 || (s.saveWith c a (if c.moves then 15 else 7) 7 c.records).cores = s.cores then s else s.loadParts k a 7

/-- A saved context runs again (R98, R172): a pending CAUSE enters the handler before the first resumed cycle, FADDR and FINFO
reading zero (R233). -/
def State.resumeCtx (s : State) (k : Nat) : State :=
  let s := (s.loadSaved k).returnArea k
  match s.ctx? k with
  | none => s
  | some c =>
    let t := s.setCtx k { c with status := .live, phase := .rest, moves := false }
    if c.cause = 0 then t.modCtx k Ctx.resume
    else (t.modCore c.core fun m => { m with faddr := 0, finfo := 0 }).enterHandler k

/-- The gang of a context has been pre-empted as a whole. -/
def State.gangSaved (s : State) (k : Nat) : Bool := s.gangs.vals.any fun g => g.saved && g.ctxs.contains k

/-- Another context occupies the physical core of a context (R171, R340). -/
def State.coreBusy (s : State) (k : Nat) (c : Ctx) : Bool :=
  let d := s.die c.who.die
  s.ctxs.items.any fun e =>
    e.1 != k && e.2.who.die == c.who.die && d.pcore e.2.who.lcore == d.pcore c.who.lcore && e.2.status != .saved && !e.2.status.over &&
      s.hasTurn c.who.die e.2.who.lcore

/-- CONTEXT_RESUME (R172): a saved context resumes unless its gang is to resume as a whole or another logical core has the turn. -/
def execContextResume (ctx : Nat) (s : State) : Host.Outcome State Fault Refusal :=
  .next
    (match s.ctx? ctx with
     | none => s
     | some c =>
       if c.status == .saved && !s.gangSaved ctx && !c.away && s.hasTurn c.who.die c.who.lcore && !s.coreBusy ctx c then
         s.resumeCtx ctx
       else s)

/-! ### Writes through the network port (R153, R272, R405, R409) -/

/-- A write of 64 bytes that a word of a context makes through the network port: tagged granules keep their bytes, and BARRIER_CLOBBER is deferred, as
that of an access with the serial number `seq` (R272, log 19). -/
def State.netWrite (s : State) (k core seq a : Nat) (bytes : List Byte) : State :=
  let t := s.modCore core fun m => m.putFree a bytes
  match (range (a / 16) 4).find? (s.core core).tags.has with
  | none => t
  | some g => t.deferFault k seq .store (.landing causeBarrierClobber .c (toWord (16 * g)) (finfoOf 0 true))

/-- What a list of landings writes into the scratchpad, each write with the serial number of its word. -/
def putsOf (l : List Landing) : List (Nat × Nat × List Byte) := l.filterMap fun x => x.put.map fun e => (x.id, e)

/-- Writes through the network port, in their order. -/
def State.netWrites (s : State) (k core : Nat) (l : List (Nat × Nat × List Byte)) : State :=
  l.foldl (fun s e => s.netWrite k core e.1 e.2.1 e.2.2) s

/-! ### Leaving the core (R101, R102) -/

/-- `yield` (R101): the context halts at the boundary after the word when SAVEPOOL can supply an area. -/
def execYield (h : Hdr) (s : State) : Host.Outcome State Fault Refusal :=
  word (.yield h) h {}
    (fun _ _ _ t =>
      outsideHandler t (.ok (t.modCtx t.focus.1 fun c => { c with yields := !c.who.nopre && (t.die c.who.die).freeArea.isSome }))) s

/-- `exit` (R102): the context ends after the cycle. -/
def execExit (h : Hdr) (s : State) : Host.Outcome State Fault Refusal :=
  word (.exit h) h {} (fun _ _ _ t => outsideHandler t (.ok (t.modCtx t.focus.1 fun c => { c with ends := true }))) s

/-- A discarded landing still writes the MRF, and writes nothing else (R102). -/
def Landing.discard (l : Landing) : Landing := { l with d1 := 63, d2 := 63, pmask := 0, lbuf := false, discarded := true }

/-- The context ends: its pending landings into files, predicates and queues are discarded, and every queue entry (R102). -/
def Ctx.finish (c : Ctx) : Ctx :=
  { c with
    status := .ending
    phase := .rest
    queues := .empty
    landings := c.landings.map Landing.discard
    holds := [] }

/-- The context ends on its core: the scratchpad writes of its pending landings are performed, and an uncorrectable error in one of them is logged
(R102, R394). -/
def State.finishCtx (s : State) (k : Nat) (c : Ctx) : State :=
  let s := (c.landings.filter fun l => !l.discarded && l.cause == causeEccUe).foldl
    (fun s l => s.report c.who.die 2 causeEccUe (ueLoc l.finfo l.faddr)) s
  (s.netWrites k c.core (putsOf c.landings)).modCtx k Ctx.finish

end Sys2Proof.Machine
end

