-- ==== Sys2Proof/Machine/Registers.lean ====
section
/-! DEFINITION. Control registers: what each reads as and what a write of each does (R6, R15, R91 to R94, R117 to R120, R150, R159 to R161,
R233, R331, R339, R360, R368, R375, R381, R428, R442, R456). -/

namespace Sys2Proof.Machine

/-! ### Reading -/

/-- ZONE_LAT from one die to another; the diagonal reads 0 (R368). -/
def State.zoneLat (s : State) (src dst : Nat) : BitVec 16 := if src = dst then 0 else s.zone.getD (src * 4 + dst) 0

/-- A row of ZONE_LAT. -/
def State.zoneRow (s : State) (src : Nat) : Word :=
  toWord ((s.zoneLat src 0).toNat + (s.zoneLat src 1).toNat * 2 ^ 16 + (s.zoneLat src 2).toNat * 2 ^ 32)

/-- A link after a change: when it stops carrying its lines, or carries them again, they move, with the serial number `n` (R302). -/
def Link.moving (old new : Link) (n : Nat) : Link := if old.closed = new.closed then new else { new with movedAt := n }

/-- Changes a link. -/
def State.modLink (s : State) (l : Nat) (f : Link → Link) : State :=
  { s with links := s.links.insert l ((s.link l).moving (f (s.link l)) s.serial) }

/-- LNK_CTL (R375). -/
def Link.ctl (l : Link) : Word :=
  toWord (l.cap.toNat + l.capb.toNat * 2 ^ 8 + l.rlim.toNat * 2 ^ 16 + l.owner.toNat * 2 ^ 24 + (if l.cfgerr then 2 ^ 48 else 0))

/-- The entry of the heddle table for a logical core (R339). -/
def Die.heddleEntry (d : Die) (l : Nat) : Heddle := d.heddle.getD l ⟨BitVec.ofNat 7 l, false⟩

/-- A heddle register: PCORE, SHARED and CFGERR. -/
def Die.heddleWord (d : Die) (die l : Nat) : Word :=
  let e := d.heddleEntry l
  let shared := (range 0 (Config.ncore die)).any fun m => decide (m ≠ l) && decide (d.pcore m = d.pcore l)
  toWord (e.pcore.toNat + (if shared then 2 ^ 8 else 0) + (if e.cfgerr then 2 ^ 9 else 0))

/-- Whether the pool entry of a child or of a rebuild task is in use (R346, R437): it has not completed, or is not yet reaped. -/
def Run.pooled (r : Run) : Bool := (r.parent.isSome || r.injected.isSome) && !(r.reaped && (r.phase == .done || r.phase == .failed || r.phase == .cancelled))

/-- Entries of a die's pool in use: those of children, and in deterministic mode those an instance reserves (R346, R352). -/
def State.poolUsed (s : State) (die : Nat) : Nat :=
  let holders := s.ctxs.items.filter fun e => e.2.who.die == die && !e.2.status.over && e.2.who.lres != 0
  (holders.map fun e => e.2.who.lres).foldl (· + ·) 0 +
    (s.runs.vals.filter fun r =>
      decide (r.die = die) && r.pooled && !(holders.any fun e => r.parent == some e.1)).length

/-- The peer entry that PEER_ENT shows (R442). -/
def State.peerIndex (s : State) : Nat := bits s.fab.peerSel 0 10

/-- The value of a control register for a cluster of a context (R91). -/
def State.readReg (s : State) (c : Ctx) (cl : Cluster) (crn : BitVec 12) : Word :=
  let d := s.die c.who.die
  let m := s.core c.core
  let n := crn.toNat
  if n = 0x000 then coreId c.who.die c.who.lcore
  else if n = 0x001 then c.coreCtl
  else if n = 0x002 then toWord c.coreTime
  else if n = 0x003 then toWord d.time
  else if n = 0x004 then c.ctr.freeze
  else if n = 0x005 then c.ctr.late
  else if n = 0x006 then c.cause
  else if n = 0x008 then c.cstat .c
  else if n = 0x009 then c.cstat .v
  else if n = 0x00A then c.cstat .m
  else if n = 0x00B then c.cstat .x
  else if n = 0x00C then (c.cl cl).lc0.count.setWidth 64
  else if n = 0x00D then (c.cl cl).lc1.count.setWidth 64
  else if n = 0x010 then c.epc.q0
  else if n = 0x011 then c.epc.q1
  else if n = 0x012 then c.epc.q2
  else if n = 0x013 then c.epc.q3
  else if n = 0x040 then c.ctr.uninit
  else if n = 0x041 then c.ctr.uninitAddr
  else if n = 0x042 then c.ctr.pwin
  else if n = 0x044 then c.ctxArea
  else if n = 0x045 then c.xroot
  else if n = 0x047 then c.traceBase
  else if n = 0x048 then c.rgn.q0
  else if n = 0x049 then c.rgn.q1
  else if n = 0x04A then c.rgn.q2
  else if n = 0x04B then c.rgn.q3
  else if n = 0x04C then toWord c.lndcnt
  else if n = 0x050 then m.faddr
  else if n = 0x051 then m.finfo
  else if n = 0x060 then d.atpool
  else if n = 0x061 then c.ctr.retry
  else if n = 0x070 then toWord c.who.num
  else if n = 0x071 then toWord (c.who.task + c.who.gid * 2 ^ 16 + c.who.depth * 2 ^ 32)
  else if n = 0x072 then toWord (s.poolUsed c.who.die)
  else if n = 0x073 then d.hslice.setWidth 64
  else if n = 0x074 then d.savepool
  else if 0x080 ≤ n && n ≤ 0x082 then s.zoneRow (n - 0x080)
  else if 0x084 ≤ n && n ≤ 0x086 then (s.link (n - 0x084)).ctl
  else if n = 0x088 then d.win.seqSeen.setWidth 64
  else if n = 0x089 then d.win.seqDone.setWidth 64
  else if n = 0x090 then s.depthTab
  else if n = 0x091 then s.qzero
  else if n = 0x092 then toWord s.pq.length
  else if n = 0x094 then s.kvGeom
  else if n = 0x0A0 then s.fab.node
  else if n = 0x0A2 then s.fab.peerSel
  else if n = 0x0A3 then s.fab.ents.getD s.peerIndex 0
  else if n = 0x0A4 then s.fab.replCtl
  else if 0x100 ≤ n && n ≤ 0x13F then
    let r := d.region ((n - 0x100) / 4)
    match n % 4 with
    | 0 => r.drv
    | 1 => r.drs
    | 2 => r.drk
    | _ => r.drc
  else if 0x200 ≤ n && n ≤ 0x24F then d.heddleWord c.who.die (n - 0x200)
  else 0

/-- The registers that `crr` may read: column U. -/
def crrReadable (crn : BitVec 12) : Bool :=
  let n := crn.toNat
  n ≤ 0x005 || (0x008 ≤ n && n ≤ 0x00D) || (0x040 ≤ n && n ≤ 0x042) || (0x048 ≤ n && n ≤ 0x04C) || n == 0x061 ||
    (0x070 ≤ n && n ≤ 0x072) || (0x080 ≤ n && n ≤ 0x082) || (0x088 ≤ n && n ≤ 0x089) || (0x090 ≤ n && n ≤ 0x092) || n == 0x0A0

/-- A register that only other dies assign (R64, R117, R339). -/
def crnForeign (die : Nat) (crn : BitVec 12) : Bool :=
  let n := crn.toNat
  die = 0 && ((0x100 ≤ n && n ≤ 0x13F) || (0x220 ≤ n && n ≤ 0x24F))

/-! ### Writing -/

/-- CORE_CTL after a write: WMODE 3 and UMODE 2 or 3 leave their fields (R25, R160). -/
def coreCtlAfter (old v : Word) : Word :=
  let w := if bits v 0 2 = 3 then bits old 0 2 else bits v 0 2
  let u := if 2 ≤ bits v 2 2 then bits old 2 2 else bits v 2 2
  toWord (w + u * 4 + bits v 4 2 * 16)

/-- The offered write of ATPOOL is refused (R331). -/
def atpoolRefused (v : Word) : Bool :=
  let f := fun n => bits v (8 * n) 8
  decide (192 < f 0 + f 2 + f 4) || decide (f 1 < f 0) || decide (192 < f 1) || decide (f 3 < f 2) || decide (192 < f 3) ||
    decide (f 5 < f 4) || decide (192 < f 5) || decide (f 2 < 16)

/-- ATPOOL after a write. -/
def atpoolAfter (old v : Word) : Word := if atpoolRefused v then old ||| 2 ^ 48 else maskWord v 0xFFFFFFFFFFFF

/-- A write of one of the base registers of a region, which an enabled region ignores (R118, R120). -/
def State.writeRegionBase (s : State) (die n field : Nat) (v : Word) : State :=
  let old := (s.die die).region n
  let new :=
    match field with
    | 0 => { old with drv := maskWord v 0xFFFFFFFFFF000 }
    | 1 => { old with drs := maskWord v 0xFFFFFFFFFFFC0 }
    | _ => { old with drk := maskWord v 0xFFFFFFFFFFFC0 }
  if old.en then s else s.modDie die fun d => { d with regions := d.regions.insert n new }

/-- The live contexts of a logical core. -/
def State.liveOn (s : State) (die l : Nat) : List Nat :=
  s.ctxs.items.filterMap fun e =>
    if e.2.who.die = die && e.2.who.lcore = l && !e.2.status.over then some e.1 else none

/-- A heddle write is refused (R339). -/
def State.heddleRefused (s : State) (die l pcore : Nat) : Bool :=
  let live := s.liveOn die l
  let nopre := fun k => ((s.ctx? k).map fun c => c.who.nopre).getD false
  decide (Config.ncore die ≤ pcore) ||
    (!live.isEmpty && (decide (pcore / 8 ≠ (s.die die).pcore l / 8) || decide ((s.die die).freeAreas = 0) || live.any nopre)) ||
    (range 0 (Config.ncore die)).any fun m =>
      decide (m ≠ l) && decide ((s.die die).pcore m = pcore) && (s.liveOn die m).any nopre

/-- A heddle write (R339): an accepted one pre-empts every context of the logical core and remaps it. Part 3 of a context that goes to
another physical core is in its save (R363). The physical core that it leaves is retired or replaced, with its RETIRE entry (R394, R396). -/
def State.writeHeddle (s : State) (die l : Nat) (v : Word) : State :=
  let p := bits v 0 7
  let put := fun (s : State) (e : Heddle) => s.modDie die fun d => { d with heddle := d.heddle.insert l e }
  if s.heddleRefused die l p then put s { (s.die die).heddleEntry l with cfgerr := true }
  else
    let old := (s.die die).pcore l
    let move := fun (s : State) (k : Nat) => s.modCtx k fun c => { c with moves := decide (p ≠ old) }
    let t := put ((s.liveOn die l).foldl (fun s k => (move s k).requestSave k) s) ⟨BitVec.ofNat 7 p, false⟩
    if p = old then t else t.report die 5 0 l

/-- Asks for a retrain of a link, unless it is down (R374, R377). -/
def State.askRetrain (s : State) (l : Nat) (r : Retrain) : State := s.modLink l fun x => if x.down then x else { x with want := x.want ++ [r] }

/-- A write of LNK_CTL (R375): the retrain at a CAP below the rate never raises it (R371). -/
def State.writeLnkCtl (s : State) (l : Nat) (v : Word) : State :=
  if (s.link l).capb.toNat < bits v 0 3 then s.modLink l fun x => { x with cfgerr := true }
  else
    let s := s.modLink l fun x =>
      { x with cap := BitVec.ofNat 3 (bits v 0 3), rlim := BitVec.ofNat 8 (bits v 16 8), owner := BitVec.ofNat 24 (bits v 24 24),
               cfgerr := false }
    if bits v 0 3 < (s.link l).rate then s.askRetrain l ⟨some (bits v 0 3), false, false⟩ else s

/-- A write of FAB_NODE, which changes nothing while a peer entry is valid (R442). -/
def State.writeFabNode (s : State) (v : Word) : State :=
  if s.fab.ents.vals.any fun e => bits e 0 1 = 1 then s else { s with fab := { s.fab with node := maskWord v 0x103FF } }

/-- A write of PEER_ENT (R442). -/
def State.writePeerEnt (s : State) (v : Word) : State :=
  let n := s.peerIndex
  let old := s.fab.ents.getD n 0
  let root := bits v 12 40 * 2 ^ 12
  let put := fun (f : Fabric) (w : Word) => { f with ents := f.ents.insert n w }
  if (bits v 0 1 = 1 && n = bits s.fab.node 0 10) || (bits v 2 1 = 1 && !s.installedAll root 4096) then
    { s with fab := put s.fab (old ||| 8) }
  else
    let f :=
      if bits old 0 1 = 0 && bits v 0 1 = 1 then
        { s.fab with tx := s.fab.tx.insert n 0, rx := s.fab.rx.insert n 0, ack := s.fab.ack.insert n 0,
                     early := s.fab.early.erase n, held := s.fab.held.erase n, lost := s.fab.lost.del n }
      else s.fab
    { s with fab := put f (maskWord v 0xFFFFFFFFFF007) }

/-- A write of REPL_CTL is refused (R456). -/
def State.replRefused (s : State) (v : Word) : Bool :=
  let part := bits v 4 10
  let e := s.fab.ents.getD part 0
  part == bits s.fab.node 0 10 || bits e 0 3 != 7 ||
    (bits s.fab.replCtl 0 1 == 1 && (bits v 16 16 != bits s.fab.replCtl 16 16 || part != bits s.fab.replCtl 4 10))

/-- A write of REPL_CTL (R456, R460). -/
def State.writeReplCtl (s : State) (v : Word) : State :=
  if s.replRefused v then { s with fab := { s.fab with replCtl := s.fab.replCtl ||| 4 } }
  else
    let start := bits s.fab.replCtl 0 1 = 0 && bits v 0 1 = 1
    let keep := if start then 0 else maskWord s.fab.replCtl 0xFFFFFFFF00000008
    { s with fab := { s.fab with
        replCtl := maskWord v 0xFFFF3FF1 ||| keep
        digest := if start then 0 else s.fab.digest
        refusing := false } }

/-- A write of SAVEPOOL, ignored while an area of the list is in use (R359). -/
def State.writeSavepool (s : State) (die : Nat) (v : Word) : State :=
  s.modDie die fun d => if d.areas.items.isEmpty then { d with savepool := maskWord v 0xFF01FFFFF000 } else d

/-- A write of HSLICE: below 1,024 it is raised (R360). -/
def State.writeHslice (s : State) (die : Nat) (v : Word) : State :=
  s.modDie die fun d => { d with hslice := BitVec.ofNat 32 (max 1024 (bits v 0 32)) }

/-- A write of ATPOOL. -/
def State.writeAtpool (s : State) (die : Nat) (v : Word) : State := s.modDie die fun d => { d with atpool := atpoolAfter d.atpool v }

/-- A write to ESC: the handler ends, and CAUSE is offered to the task level (R167), never with a reserved code (R8, log 18). -/
def State.escalate (s : State) (k : Nat) : State :=
  match s.ctx? k with
  | none => s
  | some c =>
    if !c.inHandler then s
    else
      let m := s.core c.core
      let lnd := bits c.cause 8 1 = 1
      let i : TrapInfo :=
        ⟨BitVec.ofNat 8 (reportable (bits c.cause 0 8)), clusterOf (bits c.cause 10 2), bits c.cause 9 1 = 1, BitVec.ofNat 8 (bits c.cause 16 8), lnd,
          if lnd then m.faddr else 0, if lnd then m.finfo else 0⟩
      (s.leaveHandler k true).offerTask k i

/-- A write of a register of the core or of the context itself (R91, R161, R233, R331). -/
def Ctx.writeOwn (c : Ctx) (n : Nat) (v : Word) : Ctx :=
  let pc := maskWord v 0xFFFFFFFFFFFFFFF8
  match n with
  | 0x001 => { c with coreCtl := coreCtlAfter c.coreCtl v }
  | 0x004 => { c with ctr := { c.ctr with freeze := v } }
  | 0x005 => { c with ctr := { c.ctr with late := v } }
  | 0x006 => { c with cause := maskWord v 0xFF0FFF }
  | 0x010 => { c with epc := { c.epc with q0 := pc } }
  | 0x011 => { c with epc := { c.epc with q1 := pc } }
  | 0x012 => { c with epc := { c.epc with q2 := pc } }
  | 0x013 => { c with epc := { c.epc with q3 := pc } }
  | 0x040 => { c with ctr := { c.ctr with uninit := v } }
  | 0x041 => { c with ctr := { c.ctr with uninitAddr := maskWord v 0xE0000001FFFFFFFF } }
  | 0x042 => { c with ctr := { c.ctr with pwin := v } }
  | 0x044 => { c with ctxArea := maskWord v 0x1FFFFF000 }
  | 0x045 => { c with xroot := maskWord v 0xFFFFFFFFFF000 }
  | 0x046 => { c with tlb := .empty }
  | 0x047 => { c with traceBase := maskWord v 0xFFFF000, traced := 0 }
  | 0x061 => { c with ctr := { c.ctr with retry := v } }
  | _ => c

/-- A write of a control register by a context (R6, R92): read-only registers and fields keep their value. -/
def State.writeReg (s : State) (k : Nat) (crn : BitVec 12) (v : Word) : State :=
  match s.ctx? k with
  | none => s
  | some c =>
    let n := crn.toNat
    let die := c.who.die
    if n = 0x043 then s.escalate k
    else if n = 0x050 then s.modCore c.core fun m => { m with faddr := v }
    else if n = 0x051 then s.modCore c.core fun m => { m with finfo := maskWord v 0xFFFFFFFF }
    else if n = 0x060 then s.writeAtpool die v
    else if n = 0x073 then s.writeHslice die v
    else if n = 0x074 then s.writeSavepool die v
    else if 0x084 ≤ n && n ≤ 0x086 then s.writeLnkCtl (n - 0x084) v
    else if n = 0x090 then { s with depthTab := v }
    else if n = 0x091 then { s with qzero := v }
    else if n = 0x094 then { s with kvGeom := v }
    else if n = 0x0A0 then s.writeFabNode v
    else if n = 0x0A2 then { s with fab := { s.fab with peerSel := maskWord v 0x3FF } }
    else if n = 0x0A3 then s.writePeerEnt v
    else if n = 0x0A4 then s.writeReplCtl v
    else if 0x100 ≤ n && n ≤ 0x13F then
      if n % 4 = 3 then s.writeDrc die ((n - 0x100) / 4) v else s.writeRegionBase die ((n - 0x100) / 4) (n % 4) v
    else if 0x200 ≤ n && n ≤ 0x24F then s.writeHeddle die (n - 0x200) v
    else s.setCtx k (c.writeOwn n v)

/-- A write of XINV, or one of DRC that enables or disables a region, takes time and holds C (R140). -/
def State.slowWrite (s : State) (die : Nat) (crn : BitVec 12) (v : Word) : Bool :=
  let n := (crn.toNat - 0x100) / 4
  let r := (s.die die).region n
  crn == 0x046 ||
    (decide (0x100 ≤ crn.toNat) && decide (crn.toNat ≤ 0x13F) && crn.toNat % 4 == 3 && (bits v 0 1 = 1) != r.en &&
      !(bits v 0 1 = 1 && s.regionRefused die n { r with drc := maskWord v 0xFFFFFFFFFF000F3F }))

/-- A write that a `crw` has made comes to its register, or holds C until the operation that it starts has ended (R92, R140). -/
def State.startWrite (s : State) (k : Nat) (crn : BitVec 12) (v : Word) : State :=
  match s.ctx? k with
  | none => s
  | some c =>
    if s.slowWrite c.who.die crn v then s.setCtx k { c with holds := c.holds ++ [.write crn v] } else s.writeReg k crn v

/-! ### The words (R92) -/

/-- The executing die lacks a register. -/
def State.lacksReg (s : State) (crn : BitVec 12) : Bool := crnForeign s.dieOf crn

/-- Delivers a register's value. -/
def regBody (f : FmtCR) (s : State) (go : Ctx → Word → State → Body) : Body :=
  withCtx s fun c =>
    let v := s.readReg c s.focus.2 f.crn
    go c v (s.deliver f.d1 f.d2 v 1)

/-- `crr` (R92): a listed register without U traps with PRIVILEGE. -/
def execCrr (h : Hdr) (f : FmtCR) (s : State) : Host.Outcome State Fault Refusal :=
  word (.crr h f) h { d1 := f.d1, d2 := f.d2, dieIllegal := s.lacksReg f.crn }
    (fun _ _ _ t => if crrReadable f.crn then regBody f t fun _ _ t => .ok t else t.fault causePrivilege) s

/-- `crrp` (R92). -/
def execCrrp (h : Hdr) (f : FmtCR) (s : State) : Host.Outcome State Fault Refusal :=
  word (.crrp h f) h { d1 := f.d1, d2 := f.d2, priv := true, dieIllegal := s.lacksReg f.crn }
    (fun _ _ _ t => regBody f t fun _ _ t => .ok t) s

/-- `crw` (R92): delivers the old value; the write is seen from the next cycle on. ESC is the handler's alone (R97). -/
def execCrw (h : Hdr) (f : FmtCR) (s : State) : Host.Outcome State Fault Refusal :=
  word (.crw h f) h { sa := some (aFile .c .ib, f.sa), d1 := f.d1, d2 := f.d2, priv := true, dieIllegal := s.lacksReg f.crn }
    (fun a _ _ t =>
      regBody f t fun c _ u =>
        if f.crn = 0x043 && !c.inHandler then u.fault causeIllegalOp
        else .ok (u.modCtx u.focus.1 fun c => { c with staged := c.staged ++ [.reg f.crn a] })) s

/-! ### Writes as steps of their own

A write that a `crw` has made and that is still to take effect, taken out of its cycle. -/

/-- A context has a register write under way. -/
def Ctx.writing (c : Ctx) (crn : BitVec 12) (v : Word) : Bool := c.staged.contains (.reg crn v) || c.holds.contains (.write crn v)

/-- A register write of a context that is under way takes effect: the hold that it was ends. -/
def State.takeWrite (s : State) (k : Nat) (crn : BitVec 12) (v : Word) : State :=
  match s.ctx? k with
  | none => s
  | some c =>
    if c.staged.contains (.reg crn v) then (s.setCtx k { c with staged := c.staged.erase (.reg crn v) }).writeReg k crn v
    else if c.holds.contains (.write crn v) then (s.setCtx k { c with holds := c.holds.erase (.write crn v) }).writeReg k crn v
    else s

/-- The context of a die, or of any die when none is named, that has a register write under way. -/
def State.writer (s : State) (die : Option Nat) (crn : BitVec 12) (v : Word) : Option Nat :=
  (s.ctxs.items.find? fun e =>
    e.2.writing crn v && (match die with
      | none => true
      | some d => decide (e.2.who.die = d))).map fun e => e.1

/-- The register writes that a context has started take effect (R140). -/
def State.endWrites (s : State) (k : Nat) : State :=
  match s.ctx? k with
  | none => s
  | some c =>
    (c.holds.filterMap fun h =>
      match h with
      | .write crn v => some (crn, v)
      | _ => none).foldl (fun s e => s.takeWrite k e.1 e.2) s

/-- The staged write of a die's or package's register takes effect. -/
def State.takeDieWrite (s : State) (die : Option Nat) (crn : Nat) (v : Word) : State :=
  match s.writer die (BitVec.ofNat 12 crn) v with
  | none => s
  | some k => s.takeWrite k (BitVec.ofNat 12 crn) v

/-- XINV_WRITE (R159). -/
def execXinvWrite (ctx : Nat) (v : Word) (s : State) : Host.Outcome State Fault Refusal := .next (s.takeWrite ctx 0x046 v)

/-- ESC_WRITE (R167). -/
def execEscWrite (ctx : Nat) (v : Word) (s : State) : Host.Outcome State Fault Refusal := .next (s.takeWrite ctx 0x043 v)

/-- DECODE_REGION_ENABLE (R120): a write of DRC[n] with EN set. -/
def execDecodeRegionEnable (die n : Nat) (v : Word) (s : State) : Host.Outcome State Fault Refusal :=
  .next (if n < 16 ∧ bits v 0 1 = 1 then s.takeDieWrite (some die) (0x103 + 4 * n) v else s)

/-- DECODE_REGION_DISABLE (R120): a write of DRC[n] with EN clear. -/
def execDecodeRegionDisable (die n : Nat) (v : Word) (s : State) : Host.Outcome State Fault Refusal :=
  .next (if n < 16 ∧ bits v 0 1 = 0 then s.takeDieWrite (some die) (0x103 + 4 * n) v else s)

/-- DECODE_FILL (R121): the LLC of a die fills a segment of an enabled region that it does not hold (R126). -/
def execDecodeFill (die n vec seg : Nat) (s : State) : Host.Outcome State Fault Refusal :=
  .next
    (let r := (s.die die).region n
     if r.en && decide (vec < r.nvec) && decide (seg < r.segs) then s.fillFor die (r.vbase + (vec * r.segs + seg) * 384) 1 else s)

/-- HEDDLE_WRITE (R339). -/
def execHeddleWrite (die l : Nat) (v : Word) (s : State) : Host.Outcome State Fault Refusal :=
  .next (if l < 80 then s.takeDieWrite (some die) (0x200 + l) v else s)

/-- SAVEPOOL_WRITE (R359, R360). -/
def execSavepoolWrite (die : Nat) (v : Word) (s : State) : Host.Outcome State Fault Refusal := .next (s.takeDieWrite (some die) 0x074 v)

/-- HSLICE_WRITE (R360). -/
def execHsliceWrite (die : Nat) (v : Word) (s : State) : Host.Outcome State Fault Refusal := .next (s.takeDieWrite (some die) 0x073 v)

/-- ATPOOL_WRITE (R331). -/
def execAtpoolWrite (die : Nat) (v : Word) (s : State) : Host.Outcome State Fault Refusal := .next (s.takeDieWrite (some die) 0x060 v)

/-- LNK_CTL_WRITE (R375). -/
def execLnkCtlWrite (link : Nat) (v : Word) (s : State) : Host.Outcome State Fault Refusal :=
  .next (if link < 3 then s.takeDieWrite none (0x084 + link) v else s)

/-- FAB_NODE_WRITE (R442). -/
def execFabNodeWrite (v : Word) (s : State) : Host.Outcome State Fault Refusal := .next (s.takeDieWrite none 0x0A0 v)

/-- PEER_ENT_WRITE (R442). -/
def execPeerEntWrite (v : Word) (s : State) : Host.Outcome State Fault Refusal := .next (s.takeDieWrite none 0x0A3 v)

/-- REPL_CTL_WRITE (R456). -/
def execReplCtlWrite (v : Word) (s : State) : Host.Outcome State Fault Refusal := .next (s.takeDieWrite none 0x0A4 v)

/-- REGISTER_WRITE (R6, R92): a register by its number. -/
def execRegisterWrite (ctx : Nat) (crn : BitVec 12) (v : Word) (s : State) : Host.Outcome State Fault Refusal := .next (s.takeWrite ctx crn v)

end Sys2Proof.Machine
end

