-- ==== Sys2Proof/Machine/Cycle.lean ====
section
/-! DEFINITION. The end of a core-time cycle (R32, R92, R101, R102, R138, R152, R160, R162). -/

namespace Sys2Proof.Machine

/-- A store or clear of the cycle performs (R152, R239). -/
def CoreState.perform (m : CoreState) : Staged → CoreState
  | .store o b => m.putFree o b
  | .clear l n => m.clearLines l n
  | .message _ _ _ | .reg _ _ => m

/-- A cluster waits in a state that the deadlock count counts (R32). -/
def ClusterState.stuck (x : ClusterState) : Bool := x.run == .qwait || x.run == .swait || x.run == .joined

/-- The deadlock count after a cycle (R32). -/
def Ctx.deadlockAfter (c : Ctx) : Nat :=
  let l := allClusters.map c.cl
  if !c.issuedCls.isEmpty then 0
  else if l.any fun x => x.run == .istall then c.deadlock
  else if c.cls.q0.run == .qwait && decide (12 ≤ c.cls.q0.qblk.toNat) then c.deadlock
  else if l.any ClusterState.stuck then c.deadlock + 1
  else c.deadlock

/-- The window census of a cycle under WMODE 2 (R160). -/
def Ctx.census (c : Ctx) : Ctx :=
  let n := ((allClusters.map c.cl).filter fun x => x.run == .istall).length
  if c.chk && c.wmode = 2 then { c with ctr := { c.ctr with pwin := (List.replicate n ()).foldl (fun w _ => satInc w) c.ctr.pwin } } else c

/-- The trace record of a cycle (R162): the core time, then the word index of each cluster's issued word. -/
def Ctx.traceRecord (c : Ctx) : List Byte :=
  toBytes c.time 8 ++ allClusters.flatMap fun cl =>
    toBytes (if c.issuedCls.contains cl then bits (c.issuedPcs.get cl) 3 13 + 2 ^ 15 else 0) 2

/-- Appends a trace record to the ring at TRACE_BASE; a ring outside the task's region drops it (R162). -/
def State.appendTrace (s : State) (k : Nat) (c : Ctx) : State :=
  let base := bits c.traceBase 12 12 * 2 ^ 12
  let n := 2 ^ (bits c.traceBase 24 4 + 4)
  if !c.trace || c.issuedCls.isEmpty then s
  else if !(c.owns base (16 * n) && populated c.who.die base && populated c.who.die (base + 16 * n - 1)) then s
  else
    (s.modCore c.core fun m => m.putFree (base + c.traced % n * 16) c.traceRecord).modCtx k fun c => { c with traced := c.traced + 1 }

/-- C has halted and each other cluster is idle or halted (R89). -/
def Ctx.allHalted (c : Ctx) : Bool :=
  c.cls.q0.run == .halted && [c.cls.q1, c.cls.q2, c.cls.q3].all fun x => x.run == .halted || x.run == .idle

/-- What is written into the scratchpad through the network port in a cycle, after the stores of the core port: messages, and the records whose
landings are those of the next cycle (R153, R405, R409). -/
def Ctx.netWrites (c : Ctx) : List (Nat × Nat × List Byte) :=
  (c.staged.filterMap fun e =>
    match e with
    | .message n o b => some (n, o, b)
    | _ => none) ++ putsOf (c.landings.filter fun l => l.due = c.time + 1)

/-- Nothing of a cycle is left over. -/
def Ctx.clearCycle (c : Ctx) : Ctx :=
  { c with phase := .rest, verdict := .none, bundle := false, issuedCls := [], xPort := [], claims := 0, staged := [], freed := [] }

/-- The counts and the clock of a context after a cycle that ran. A handler's cycles count only its own time (R38). -/
def Ctx.tickOver (c : Ctx) : Ctx :=
  if c.inHandler then { c.clearCycle with time := c.time + 1 }
  else { c.census.clearCycle with time := c.time + 1, deadlock := c.deadlockAfter, ends := c.ends || c.allHalted }

/-- The register writes of a cycle are seen from the next one on (R92, R140). -/
def State.applyWrites (s : State) (k : Nat) : List Staged → State
  | .reg crn v :: l => (s.startWrite k crn v).applyWrites k l
  | _ :: l => s.applyWrites k l
  | [] => s

/-- A gang of which every context has halted goes back to the ready pool, and its ready time restarts (R101, R344). -/
def State.noteYield (s : State) (k : Nat) : State :=
  let halted := fun n => ((s.ctx? n).map fun c => c.status == .halted || c.status == .saved || c.status.over).getD true
  { s with gangs := s.gangs.map fun g =>
      if g.ctxs.contains k && g.ctxs.all halted then { g with saved := true, readyAt := (s.die (k / 2 ^ 24)).time } else g }

/-- A context that yielded halts at the boundary after its word (R101). -/
def State.takeYield (s : State) (k : Nat) : State :=
  match s.ctx? k with
  | none => s
  | some c => if c.yields then ((s.setCtx k { c with yields := false }).requestSave k).noteYield k else s

/-- The end of a cycle of a context: a fault or a return has ended it, a gate held it, or it ran. -/
def State.endCycle (s : State) (k : Nat) : State :=
  match s.ctx? k with
  | none => s
  | some c =>
    match c.verdict with
    | .trapped => s.setCtx k c.clearCycle
    | .gated => s.setCtx k { c.frozen.clearCycle with staged := [] }
    | _ =>
      let s := (s.modCore c.core fun m => c.staged.foldl CoreState.perform m).netWrites k c.core c.netWrites
      let s := if c.inHandler then s else s.appendTrace k c
      ((s.modCtx k Ctx.tickOver).applyWrites k c.staged).takeYield k

end Sys2Proof.Machine
end

