-- ==== Sys2Proof/Machine/Graph.lean ====
section
/-! DEFINITION. Graph records and task descriptors, the checks of an upload, and index spaces (R332 to R336, R352). -/

namespace Sys2Proof

open Machine

/-- A field of a dword of a graph record. -/
def GraphImage.field (g : GraphImage) (dword lo n : Nat) : Nat := bits (nth g.dwords dword) lo n

/-! ### The header (R332) -/

def GraphImage.gid (g : GraphImage) : Nat := g.field 0 0 16
def GraphImage.ntask (g : GraphImage) : Nat := g.field 0 16 10
def GraphImage.det (g : GraphImage) : Bool := g.field 0 32 1 = 1
def GraphImage.gpol (g : GraphImage) : Nat := g.field 0 33 2
def GraphImage.gretry (g : GraphImage) : Nat := g.field 0 35 2
def GraphImage.pbsize (g : GraphImage) : Nat := g.field 1 0 13
def GraphImage.sembase (g : GraphImage) : Nat := g.field 1 16 12
def GraphImage.semn (g : GraphImage) : Nat := g.field 1 28 13

/-! ### Task descriptors (R333) -/

/-- A field of dword `d` of the descriptor of task `t`. -/
def GraphImage.tfield (g : GraphImage) (t d lo n : Nat) : Nat := g.field (8 + 16 * t + d) lo n

def GraphImage.entryPc (g : GraphImage) (t cl : Nat) : Nat := g.tfield t 0 (16 * cl) 16
def GraphImage.imageOf (g : GraphImage) (t : Nat) : Nat := g.tfield t 1 0 32
def GraphImage.sys (g : GraphImage) (t : Nat) : Bool := g.tfield t 1 32 1 = 1
def GraphImage.nopre (g : GraphImage) (t : Nat) : Bool := g.tfield t 1 33 1 = 1
def GraphImage.twin (g : GraphImage) (t : Nat) : Bool := g.tfield t 1 34 1 = 1
def GraphImage.au (g : GraphImage) (t : Nat) : Bool := g.tfield t 1 35 1 = 1
def GraphImage.devonly (g : GraphImage) (t : Nat) : Bool := g.tfield t 1 36 1 = 1
def GraphImage.lfix (g : GraphImage) (t : Nat) : Bool := g.tfield t 1 37 1 = 1
def GraphImage.prio (g : GraphImage) (t : Nat) : Nat := g.tfield t 1 38 3
def GraphImage.retry (g : GraphImage) (t : Nat) : Nat := g.tfield t 1 41 2
def GraphImage.gang (g : GraphImage) (t : Nat) : Nat := g.tfield t 1 48 16
def GraphImage.ctl (g : GraphImage) (t : Nat) : Nat := g.tfield t 2 0 6
def GraphImage.lbase (g : GraphImage) (t : Nat) : Nat := g.tfield t 2 8 7
def GraphImage.dieMask (g : GraphImage) (t : Nat) : Nat := g.tfield t 2 16 3
def GraphImage.lres (g : GraphImage) (t : Nat) : Nat := g.tfield t 2 20 12
def GraphImage.pboff (g : GraphImage) (t : Nat) : Nat := g.tfield t 2 32 24
def GraphImage.pol (g : GraphImage) (t : Nat) : Nat := g.tfield t 2 56 8
def GraphImage.len (g : GraphImage) (t h : Nat) : Nat := g.tfield t 3 (16 * h) 16
def GraphImage.base (g : GraphImage) (t h : Nat) : Nat := g.tfield t 4 (16 * h) 16
def GraphImage.loopN (g : GraphImage) (t l : Nat) : Nat := g.tfield t 5 (16 * l) 16
def GraphImage.loopK (g : GraphImage) (t l : Nat) : Nat := g.tfield t 5 (48 + 2 * l) 2
def GraphImage.dep (g : GraphImage) (t n : Nat) : Nat := g.tfield t (6 + n / 4) (16 * (n % 4)) 16

/-- No parameter block copy. -/
def pbNone : Nat := 0xFFFFFF

/-- The dies that a task names. -/
def GraphImage.dies (g : GraphImage) (t : Nat) : List Nat := setBitsOf (g.dieMask t) 0 3

/-- Every die that a graph names. -/
def GraphImage.allDies (g : GraphImage) : List Nat :=
  (range 0 3).filter fun d => (range 0 g.ntask).any fun t => (g.dies t).contains d

/-- The number of instances along the level of a kind, 1 when there is none. -/
def GraphImage.along (g : GraphImage) (t k : Nat) : Nat :=
  match (range 0 3).find? fun l => g.loopK t l = k with
  | some l => g.loopN t l
  | none => 1

/-- The instances of a step along cores and dies. -/
def GraphImage.coreCount (g : GraphImage) (t : Nat) : Nat := g.along t 2
def GraphImage.hasDies (g : GraphImage) (t : Nat) : Bool := (range 0 3).any fun l => g.loopK t l = 3

/-- The tasks that a task depends on. -/
def GraphImage.deps (g : GraphImage) (t : Nat) : List Nat := ((range 0 8).map (g.dep t)).filter (· ≠ 0xFFFF)

/-- The images of a graph, by handle. -/
def GraphImage.kernel (g : GraphImage) (t : Nat) : Option KernelImage :=
  (g.images.find? fun e => e.1 = g.imageOf t).map (·.2)

/-! ### The checks of an upload (R334, R352) -/

/-- The header breaks R332 or R334. -/
def GraphImage.badHeader (g : GraphImage) : Bool :=
  g.dwords.length != 8 + 16 * g.ntask || g.ntask == 0 || g.field 0 26 6 != 0 || g.field 0 37 27 != 0 || g.field 1 13 3 != 0 ||
    g.field 1 41 23 != 0 || decide (4096 < g.pbsize) || g.pbsize % 8 != 0 || decide (4096 < g.semn) ||
    decide (4096 < g.sembase + g.semn) || (range 4 4).any fun n => g.field n 0 64 != 0

/-- The must-be-zero bits and ranges of a descriptor. -/
def GraphImage.badFields (g : GraphImage) (t : Nat) : Bool :=
  (range 0 4).any (fun c => decide (0xE000 ≤ g.entryPc t c) || g.entryPc t c % 8 != 0) || g.tfield t 1 43 5 != 0 ||
    g.tfield t 2 6 2 != 0 || g.tfield t 2 15 1 != 0 || g.tfield t 2 19 1 != 0 || g.ctl t % 4 == 3 || decide (2 ≤ g.ctl t / 4 % 4) ||
    g.dieMask t == 0 || (g.pboff t != pbNone && g.pboff t % 64 != 0) || g.tfield t 5 54 10 != 0 ||
    (range 8 8).any fun d => g.tfield t d 0 64 != 0

/-- The image of a task is missing, or a code stream is too long. -/
def GraphImage.badImage (g : GraphImage) (t : Nat) : Bool :=
  match g.kernel t with
  | none => true
  | some k => [k.c, k.v, k.m, k.x].any fun l => decide (0xE000 < 8 * l.length)

/-- The lines of a half on every die of a task. -/
def GraphImage.halfLines (g : GraphImage) (t : Nat) : Nat := if (g.dies t).all (· = 0) then 2 ^ 16 else 2 ^ 14

/-- The regions of a descriptor break R334. -/
def GraphImage.badRegions (g : GraphImage) (t : Nat) : Bool :=
  (range 0 4).any (fun h => decide (g.halfLines t < g.base t h + g.len t h)) || (g.au t && decide (g.len t 3 < 0x16C0)) ||
    (g.pboff t != pbNone && decide (64 * g.len t 0 < g.pboff t + g.pbsize))

/-- The loop levels of a descriptor break R334. -/
def GraphImage.badLevels (g : GraphImage) (t : Nat) : Bool :=
  let used := fun l => g.loopK t l != 0
  (range 0 3).any (fun l => (used l) != (g.loopN t l != 0)) || (!used 0 && (used 1 || used 2)) || (!used 1 && used 2) ||
    decide (1 < ((range 0 3).filter fun l => g.loopK t l = 2).length) || decide (1 < ((range 0 3).filter fun l => g.loopK t l = 3).length) ||
    g.along t 3 != (g.dies t).length

/-- The least NCORE of the dies of a task. -/
def GraphImage.coreLimit (g : GraphImage) (t : Nat) : Nat := (g.dies t).foldl (fun m d => min m (Config.ncore d)) 80

/-- The placement limits of R336 cannot be met. -/
def GraphImage.badPlace (g : GraphImage) (t : Nat) : Bool :=
  let n := g.coreCount t
  decide (g.coreLimit t < n) || (decide (8 < n) && n % 8 != 0) ||
    (g.lfix t &&
      (if n ≤ 8 then decide (8 < g.lbase t % 8 + n) else g.lbase t % 8 != 0) || (g.lfix t && decide (g.coreLimit t < g.lbase t + n)))

/-- A dependence of a task is not allowed. -/
def GraphImage.badDeps (g : GraphImage) (t : Nat) : Bool :=
  (g.deps t).any fun d => decide (g.ntask ≤ d) || d == t || g.devonly d

/-- Tasks left once every task whose dependences are gone has been taken away, a number of times. -/
def GraphImage.peel (g : GraphImage) : Nat → List Nat → List Nat
  | 0, l => l
  | n + 1, l => g.peel n (l.filter fun t => (g.deps t).any l.contains)

/-- Two tasks of one gang that differ where R334 forbids it. -/
def GraphImage.badGangs (g : GraphImage) : Bool :=
  (range 0 g.ntask).any fun a => (range 0 g.ntask).any fun b =>
    g.gang a != 0 && g.gang a == g.gang b &&
      (g.pol a / 64 != g.pol b / 64 || g.dieMask a != g.dieMask b || g.devonly a != g.devonly b)

/-- An upload is refused whole (R334, R352). -/
def GraphImage.refused (g : GraphImage) : Bool :=
  g.badHeader ||
    (range 0 g.ntask).any (fun t =>
      g.badFields t || g.badImage t || (g.nopre t && !g.sys t) || g.badRegions t || g.badLevels t || g.badPlace t || g.badDeps t ||
        (g.det && !g.lfix t)) ||
    !(g.peel g.ntask (range 0 g.ntask)).isEmpty || g.badGangs

/-- The dwords that a graph takes of scheduler memory. -/
def GraphImage.size (g : GraphImage) : Nat :=
  g.dwords.length + (g.pbsize + 7) / 8 +
    (g.images.map fun e => e.2.c.length + e.2.v.length + e.2.m.length + e.2.x.length + (e.2.data.length + 7) / 8).foldl (· + ·) 0

/-! ### Instances and steps (R336) -/

/-- The index tuples of a task, an unused level having the index 0. -/
def GraphImage.tuples (g : GraphImage) (t : Nat) : List (List Nat) :=
  let n := fun l => max 1 (g.loopN t l)
  (range 0 (n 0)).flatMap fun a => (range 0 (n 1)).flatMap fun b => (range 0 (n 2)).map fun c => [a, b, c]

/-- The level below the last temporal one: instances that agree in the levels above it form a step. -/
def GraphImage.cut (g : GraphImage) (t : Nat) : Nat :=
  if g.loopK t 2 = 1 then 3 else if g.loopK t 1 = 1 then 2 else if g.loopK t 0 = 1 then 1 else 0

/-- What a tuple must agree in with the others of its step. -/
def GraphImage.stepOf (g : GraphImage) (t : Nat) (x : List Nat) : List Nat := x.take (g.cut t)

/-- Whether the temporal levels let a tuple start: every instance one index earlier at such a level has ended. -/
def GraphImage.mayStart (g : GraphImage) (t : Nat) (ended : List (List Nat)) (x : List Nat) : Bool :=
  (range 0 3).all fun l =>
    g.loopK t l != 1 || x.getD l 0 == 0 ||
      (g.tuples t).all fun y => !(y.take l == x.take l && y.getD l 0 + 1 == x.getD l 0) || ended.contains y

/-- The first step of a run that may start and has not: its tuples. -/
def GraphImage.nextStep (g : GraphImage) (t : Nat) (r : Run) : List (List Nat) :=
  match (g.tuples t).find? fun x => !r.started.contains x && g.mayStart t (r.ended.map (·.1)) x with
  | none => []
  | some x => (g.tuples t).filter fun y => g.stepOf t y == g.stepOf t x

/-- The die of an instance: the d-th that the task names along the level over dies, otherwise its one die. -/
def GraphImage.dieOf (g : GraphImage) (t : Nat) (x : List Nat) : Nat :=
  let d := match (range 0 3).find? fun l => g.loopK t l = 3 with
    | some l => x.getD l 0
    | none => 0
  (g.dies t).getD d 0

/-- The place of an instance along the level over cores. -/
def GraphImage.coreIndex (g : GraphImage) (t : Nat) (x : List Nat) : Nat :=
  match (range 0 3).find? fun l => g.loopK t l = 2 with
  | some l => x.getD l 0
  | none => 0

/-- The bases at which a task may be placed, lowest first (R336). -/
def GraphImage.bases (g : GraphImage) (t : Nat) : List Nat :=
  let n := g.coreCount t
  let m := if 8 < n then 8 else if 4 < n then 8 else if 2 < n then 4 else if 1 < n then 2 else 1
  if g.lfix t then [g.lbase t]
  else ((range 0 80).filter fun b => b % m = 0 && decide (b + n ≤ g.coreLimit t))

/-- The cores that a run's next step takes at a base: the step's own when the base is fixed already, all along the level over cores
otherwise. -/
def GraphImage.cores (g : GraphImage) (r : Run) (step : List (List Nat)) (base : Nat) : List Nat :=
  match r.lbase with
  | some _ => step.map fun x => coreKey (g.dieOf r.task x) (base + g.coreIndex r.task x)
  | none => (step.map (g.dieOf r.task)).eraseDups.flatMap fun d => (range base (g.coreCount r.task)).map (coreKey d)

/-- The lowest base at which cores that satisfy `ok` hold a run's next step. -/
def GraphImage.baseFor (g : GraphImage) (r : Run) (ok : Nat → Bool) : Option Nat :=
  (match r.lbase with
   | some b => [b]
   | none => g.bases r.task).find? fun b => (g.cores r (g.nextStep r.task r) b).all ok

/-- The regions of a task as RGN.A0 to RGN.B1 hold them (R161, R333). -/
def GraphImage.regions (g : GraphImage) (t : Nat) : Quad Word :=
  let r := fun h => toWord (g.base t h * 2 ^ 6 + g.len t h * 2 ^ 32)
  ⟨r 0, r 1, r 2, r 3⟩

end Sys2Proof
end

