-- ==== Sys2Proof/Machine/Launch.lean ====
section
/-! DEFINITION. The scheduler words of C: device-side launch, semaphores and digests (R346 to R351). -/

namespace Sys2Proof.Machine

/-- The graph record that a graph launch runs, as the scheduler memory of a die holds it. -/
def State.graphOf (s : State) (die launch : Nat) : Option Graph :=
  match s.launches.find? launch with
  | none => none
  | some l => (s.die die).graphs.find? l.gid

/-- A landing fault of a word that names no address: FADDR and the place bits of FINFO are free (R233, log 19). -/
def unplaced (cause : Cause) (id : Nat) : TrapInfo :=
  .landing cause .c (Config.faultAddr id) ((Config.faultPlace id).setWidth 64)

/-- A landing that takes a fault. -/
def Landing.take (l : Landing) (i : TrapInfo) : Landing := { l with cause := i.cause, faddr := i.faddr, finfo := i.finfo }

/-- What a scheduler word reads and delivers: both sources and both deliveries on ib (R347). -/
def usesSched (f : FmtRR) (lat : Nat) : Uses where
  sa := some (aFile .c .ib, f.sa)
  sb := some (bFile .c .ib, f.sb)
  d1 := f.d1
  d2 := f.d2
  lat := lat

/-- The landing of a scheduler word: it takes a landing-buffer entry and has its values (R347). -/
def State.landWord (s : State) (d1 d2 : BitVec 6) (v1 v2 : Word) (lat : Nat) (f : Landing → Landing) : State :=
  s.addLanding (fun l => f { l with d1 := d1, d2 := d2, v1 := v1, v2 := v2, lbuf := true }) lat

/-- A word that lands needs a free landing-buffer entry (R141, R347). -/
def landingBody (s : State) (b : Ctx → Body) : Body :=
  withCtx s fun c => if 64 ≤ c.lndcnt then s.fault causeLandingLimit else b c

/-! ### Children (R346, R348, R349) -/

/-- The unreaped children of a context, with handle `h` unless that is 0. -/
def State.children (s : State) (k h : Nat) : List (Nat × Run) :=
  s.runs.items.filter fun e => e.2.parent == some k && !e.2.reaped && (h = 0 || e.2.handle = h)

/-- A run has come to its end. -/
def Run.isOver (r : Run) : Bool := r.phase == .done || r.phase == .failed || r.phase == .cancelled

/-- The pool refuses a launch (R346). -/
def State.poolRefuses (s : State) (k : Nat) (c : Ctx) (det : Bool) : Bool :=
  if det then decide (c.who.lres ≤ (s.children k 0).length) else decide (4096 ≤ s.poolUsed c.who.die)

/-- A run of a task that is ready from now on. -/
def Run.fresh (launch task die arg depth now : Nat) (phase : RunPhase) : Run where
  launch := launch
  task := task
  die := die
  parent := none
  handle := 0
  arg := toWord arg
  depth := depth
  phase := phase
  readyAt := now
  lbase := none
  started := []
  ended := []
  twin := 0
  digest0 := 0
  retries := 0
  restarts := []
  cause := 0
  reaped := false
  injected := none

/-- What the scheduler answers to a `launch`: a landing fault, or a handle and a status with the child it makes ready (R348). -/
def State.launchAnswer (s : State) (k : Nat) (c : Ctx) (task : Nat) (arg : Word) (h : Nat) :
    Except Cause (Word × Word × Option Run) :=
  match s.graphOf c.who.die c.who.launch with
  | none => .error causeSpaceFault
  | some g =>
    let i := g.image
    if i.ntask ≤ task || !(i.dies task).contains c.who.die || i.hasDies task then .error causeSpaceFault
    else if i.sys task && !c.priv then .error causePrivilege
    else if 24 < c.who.depth + 1 then .ok (0, 2, none)
    else if s.poolRefuses k c i.det then .ok (0, 1, none)
    else
      .ok (toWord h, 0,
        some { Run.fresh c.who.launch task c.who.die arg.toNat (c.who.depth + 1) (s.die c.who.die).time .ready with
                 parent := some k, handle := h })

/-- A `launch` reaches the scheduler. -/
def State.launchChild (s : State) (d1 d2 : BitVec 6) (task : Nat) (arg : Word) : State :=
  let k := s.focus.1
  match s.ctx? k with
  | none => s
  | some c =>
    let h := c.launches + 1
    let t := s.setCtx k { c with launches := h }
    match s.launchAnswer k c task arg h with
    | .error e => t.landWord d1 d2 0 0 64 fun l => l.take (unplaced e s.serial)
    | .ok (v1, v2, child) =>
      let t :=
        match child with
        | none => t
        | some r => { t with runs := t.runs.insert t.serial r, serial := t.serial + 1 }
      t.landWord d1 d2 v1 v2 64 id

/-- `launch` (R348). -/
def execLaunch (h : Hdr) (f : FmtRR) (s : State) : Host.Outcome State Fault Refusal :=
  word (.launch h f) h (usesSched f 64)
    (fun a b _ t =>
      if bits a 16 48 ≠ 0 then t.fault causeIllegalOp
      else landingBody t fun _ => t.gateWord (t.releaseGate 2) fun t => .ok (t.launchChild f.d1 f.d2 (bits a 0 16) b)) s

/-- The status of children that have all ended: the cause of the lowest failed handle, or 0 (R349). -/
def State.childStatus (s : State) (kids : List Nat) : Word :=
  let failed := (kids.filterMap s.runs.find?).filter fun r => r.phase == .failed
  match failed with
  | [] => 0
  | a :: l => ((l.foldl (fun a b => if b.handle < a.handle then b else a) a).cause.setWidth 64)

/-- Children are reaped: entries of runs that have ended go (R346). -/
def State.reap (s : State) (kids : List Nat) : State :=
  { s with runs := kids.foldl (fun m n => m.modify n fun r => { r with reaped := true }) s.runs }

/-- Every one of some children has ended. -/
def State.allOver (s : State) (kids : List Nat) : Bool := kids.all fun n => ((s.runs.find? n).map Run.isOver).getD true

/-- Answers the waits whose children have all ended (R349). -/
def State.serveChildren (s : State) : State :=
  s.childWaits.foldl
    (fun s w =>
      if s.allOver w.kids then
        let v := s.childStatus w.kids
        ({ s.answer w.ctx w.land (fun l => l.arrive v v) with childWaits := s.childWaits.filter (· ≠ w) }).reap w.kids
      else s) s

/-- A `wchild` takes its status, or waits for it (R349). -/
def State.waitChild (s : State) (c : Ctx) (d1 d2 : BitVec 6) (lat h : Nat) (test : Bool) : State :=
  let kids := (s.children c.key h).map (·.1)
  let land := fun (s : State) (v : Word) => s.landWord d1 d2 v v lat id
  if kids.isEmpty then land s (if h = 0 then 0 else 0x100)
  else if s.allOver kids then land (s.reap kids) (s.childStatus kids)
  else if test then land s 0x200
  else
    { s.landWord d1 d2 0 0 lat (fun l => { l with missing := 1, acquire := true }) with
      childWaits := s.childWaits ++ [⟨c.key, s.serial, kids⟩] }

/-- `wchild` (R349). -/
def execWchild (h : Hdr) (f : FmtRR) (s : State) : Host.Outcome State Fault Refusal :=
  word (.wchild h f) h (usesSched f (64 * (1 + f.fn.toNat)))
    (fun a b _ t =>
      if bits b 1 63 ≠ 0 then t.fault causeIllegalOp
      else landingBody t fun c => .ok (t.waitChild c f.d1 f.d2 (64 * (1 + f.fn.toNat)) a.toNat (bits b 0 1 = 1))) s

/-! ### Semaphores (R350) -/

/-- A semaphore of a die. -/
def Die.sem (d : Die) (n : Nat) : Sem := d.sems.getD n ⟨0, false, []⟩

/-- Replaces a semaphore. -/
def State.setSem (s : State) (die n : Nat) (x : Sem) : State := s.modDie die fun d => { d with sems := d.sems.insert n x }

/-- A wait takes its status: status 1 is BROKEN where nothing is delivered (R350). -/
def SemWait.status (w : SemWait) (v : Word) (s : State) : State :=
  s.answer w.ctx w.land fun l =>
    if v = 1 && l.d1 = 63 && l.d2 = 63 && l.cause = 0 then { l.arrive v v with cause := causeBroken } else l.arrive v v

/-- Splits the oldest waits that a count serves from the others: what is left of the count, the served, the rest. -/
def serveWaits (count : Nat) : List SemWait → Nat × List SemWait × List SemWait
  | [] => (count, [], [])
  | w :: l =>
    if w.n ≤ count then
      let (c, a, b) := serveWaits (count - w.n) l
      (c, w :: a, b)
    else (count, [], w :: l)

/-- Serves the waits of a semaphore, strictly in arrival order. -/
def State.serveSem (s : State) (die n : Nat) (x : Sem) : State :=
  let (c, a, b) := serveWaits x.count.toNat x.waits
  a.foldl (fun s w => w.status 0 s) (s.setSem die n { x with count := BitVec.ofNat 32 c, waits := b })

/-- `sem.sig` at the semaphore; the flag says that it was refused. -/
def State.semSignal (s : State) (die n b : Nat) : State × Bool :=
  let x := (s.die die).sem n
  if x.broken then (s, false)
  else if 2 ^ 32 ≤ x.count.toNat + b then (s, true)
  else (s.serveSem die n { x with count := x.count + BitVec.ofNat 32 b }, false)

/-- `sem.wait` at the semaphore. -/
def State.semWait (s : State) (die n : Nat) (w : SemWait) : State :=
  let x := (s.die die).sem n
  if x.broken then w.status 1 s else s.serveSem die n { x with waits := x.waits ++ [w] }

/-- Every queued wait of a semaphore takes status 1. -/
def State.releaseWaits (s : State) (die n : Nat) (x : Sem) : State :=
  ((s.die die).sem n).waits.foldl (fun s w => w.status 1 s) (s.setSem die n { x with waits := [] })

/-- Containment breaks a semaphore. -/
def State.breakSem (s : State) (die n : Nat) : State :=
  let x := (s.die die).sem n
  if x.broken then s else s.releaseWaits die n { x with broken := true }

/-- Count 0 and not broken: an admission or a restart (R342, R357). -/
def State.resetSem (s : State) (die n : Nat) : State :=
  let x := (s.die die).sem n
  s.setSem die n { x with count := 0, broken := false }

/-- The absolute number of semaphore `a` of the context's graph launch, none when it has no such semaphore. -/
def State.semNumber (s : State) (c : Ctx) (a : Word) : Option Nat :=
  match s.graphOf c.who.die c.who.launch with
  | none => none
  | some g => if a.toNat < g.image.semn then some (g.image.sembase + a.toNat) else none

/-- A word that names a semaphore of its graph launch. -/
def semBody (s : State) (a : Word) (b : Ctx → Nat → Body) : Body :=
  withCtx s fun c =>
    match s.semNumber c a with
    | none => s.fault causeSpaceFault
    | some n => b c n

/-- A refusal of `sem.sig`, MORE being set when an earlier one is still to be taken (R232, R350). -/
def Ctx.refuseSignal (c : Ctx) (id : Nat) : Ctx :=
  match c.semFault with
  | none => { c with semFault := some (unplaced causeBarrierOverflow id) }
  | some i => { c with semFault := some { i with finfo := i.finfo ||| 0x80 } }

/-- `sem.sig` (R350). -/
def execSemSig (h : Hdr) (f : FmtS2) (s : State) : Host.Outcome State Fault Refusal :=
  word (.semSig h f) h (usesIb2 f)
    (fun a b _ t =>
      if bits b 32 32 ≠ 0 then t.fault causeIllegalOp
      else
        semBody t a fun c n =>
          t.gateWord (t.releaseGate 2) fun t =>
            match c.semFault with
            | some i => .trapWith (fun c => { c with semFault := none }) i
            | none =>
              let (u, refused) := t.semSignal c.who.die n (bits b 0 32)
              .ok (if refused then { t.modCtx t.focus.1 (fun c => c.refuseSignal t.serial) with serial := t.serial + 1 } else u)) s

/-- The landing of `sem.wait` and `sem.rd`, at which a refused `sem.sig` is taken (R350). -/
def State.landSem (s : State) (d1 d2 : BitVec 6) (v : Word) (lat : Nat) (f : Landing → Landing) : State :=
  s.landWord d1 d2 v v lat fun l => { f l with sem := true }

/-- `sem.wait` (R350). -/
def execSemWait (h : Hdr) (f : FmtRI) (s : State) : Host.Outcome State Fault Refusal :=
  word (.semWait h f) h { sa := some (aFile .c .ib, f.sa), d1 := f.d1, d2 := f.d2, lat := 64 * (1 + f.fn.toNat) }
    (fun a _ _ t =>
      semBody t a fun c n =>
        landingBody t fun _ =>
          .ok ((t.landSem f.d1 f.d2 0 (64 * (1 + f.fn.toNat)) fun l => { l with missing := 1, acquire := true }).semWait
            c.who.die n ⟨c.key, t.serial, f.imm.toNat⟩)) s

/-- `sem.init` (R350). -/
def execSemInit (h : Hdr) (f : FmtS2) (s : State) : Host.Outcome State Fault Refusal :=
  word (.semInit h f) h { usesIb2 f with priv := true }
    (fun a b _ t =>
      if bits a 12 52 ≠ 0 || bits b 32 32 ≠ 0 then t.fault causeIllegalOp
      else withCtx t fun c => .ok (t.releaseWaits c.who.die a.toNat ⟨BitVec.ofNat 32 b.toNat, false, []⟩)) s

/-- What `sem.rd` delivers. -/
def Sem.word (x : Sem) : Word := toWord (x.count.toNat + if x.broken then 2 ^ 32 else 0)

/-- `sem.rd` (R350). -/
def execSemRd (h : Hdr) (f : FmtRR) (s : State) : Host.Outcome State Fault Refusal :=
  word (.semRd h f) h { usesSched f 64 with sb := none }
    (fun a _ _ t =>
      semBody t a fun c n => landingBody t fun _ => .ok (t.landSem f.d1 f.d2 ((t.die c.who.die).sem n).word 64 id)) s

/-! ### Digests (R351) -/

/-- The gate of the digest words: CSP, DSP and MEM accesses issued and commands pushed before. -/
def State.digestGate (s : State) (c : Ctx) : Gate :=
  ⟨s.serial, [.csp, .dsp, .mem], [.csp, .dsp, .mem], 3, c.pushes, true, false, false, none⟩

/-- `dgst.rd` (R351). -/
def execDgstRd (h : Hdr) (f : FmtRR) (s : State) : Host.Outcome State Fault Refusal :=
  word (.dgstRd h f) h { usesSched f 1 with sb := none }
    (fun a _ _ t =>
      if bits a 1 63 ≠ 0 then t.fault causeIllegalOp
      else
        withCtx t fun c =>
          t.gateWord (t.digestGate c) fun t =>
            .ok (t.deliver f.d1 f.d2 (toWord (if a = 0 then c.digest.toNat else c.digest.toNat / 2 ^ 64)) 1)) s

/-- `dgst.clr` (R351). -/
def execDgstClr (h : Hdr) (s : State) : Host.Outcome State Fault Refusal :=
  word (.dgstClr h) h { priv := true }
    (fun _ _ _ t =>
      withCtx t fun c => t.gateWord (t.digestGate c) fun t => .ok (t.modCtx t.focus.1 fun c => { c with digest := 0 })) s

end Sys2Proof.Machine
end

