-- ==== Sys2Proof/Machine/Collective.lean ====
section
/-! DEFINITION. The collective engine: COLL commands, their ranks, their reduction and their end (R450 to R454). -/

namespace Sys2Proof.Machine

/-! ### The command and its record (R450, R451) -/

/-- A COLL command and its record that the push refuses. -/
def badColl (w r : Quad Word) : Bool :=
  let space := fun n => n == 0 || n == 2 || n == 3
  badFlags w || kindOf w != 7 || issueTime w != 0 || bits r.q0 3 1 != 0 || bits r.q0 7 1 != 0 || bits r.q0 14 2 != 0 ||
    bits r.q0 27 5 != 0 || bits r.q0 42 6 != 0 || bits r.q1 32 32 != 0 || bits r.q2 24 40 != 0 || bits r.q2 0 3 != 0 || r.q3 != 0 ||
    !space (bits r.q0 0 3) || !space (bits r.q0 4 3) || bits r.q0 8 2 == 3 || bits r.q0 10 2 == 3 || bits r.q0 12 2 == 3 ||
    (bits r.q0 8 2 == 1 && bits r.q0 10 2 != 0) || decide (bits r.q0 16 11 < 2) || decide (1024 < bits r.q0 16 11) ||
    decide (bits r.q0 16 11 ≤ bits r.q0 32 10) || bits r.q1 0 32 == 0 || decide (2 ^ 24 < bits r.q1 0 32)

/-- The fields of a collective record. -/
def collOp (r : Quad Word) : Nat := bits r.q0 8 2
def collRed (r : Quad Word) : Nat := bits r.q0 10 2
def collTy (r : Quad Word) : Nat := bits r.q0 12 2
def collRanks (r : Quad Word) : Nat := bits r.q0 16 11
def collRank (r : Quad Word) : Nat := bits r.q0 32 10
def collTag (r : Quad Word) : Nat := bits r.q0 48 16
def collCount (r : Quad Word) : Nat := bits r.q1 0 32
def collTable (r : Quad Word) : Nat := bits r.q2 0 24

/-- The size of an element in bytes (R453). -/
def collSize (r : Quad Word) : Nat := if collTy r = 1 then 2 else 4

/-- The bytes of a rank's SRC and of its DST (R453). -/
def collSrcBytes (r : Quad Word) : Nat := collSize r * (if collOp r = 2 then collRanks r * collCount r else collCount r)
def collDstElems (r : Quad Word) : Nat := if collOp r = 1 then collRanks r * collCount r else collCount r

/-- Node and die of a rank table entry. -/
def rankNode (e : Word) : Nat := bits e 0 10
def rankDie (e : Word) : Nat := bits e 16 2

/-! ### Elements (R453) -/

/-- Reduces the elements of the ranks, in rank order. -/
def collReduce (r : Quad Word) : List Nat → Nat
  | [] => 0
  | x :: l =>
    if collTy r = 2 then
      let f := fun a b : Int =>
        if collRed r = 0 then (BitVec.ofInt 32 (a + b)).toInt else if collRed r = 1 then max a b else min a b
      (BitVec.ofInt 32 (l.foldl (fun a b => f a (signed b 32)) (signed x 32))).toNat
    else
      let g := if collTy r = 1 then bf16 else fp32
      let f := fun a b : FVal => if collRed r = 0 then (a.add .rne b).to32 else if collRed r = 1 then a.max b else a.min b
      g.ofVal .rne (l.foldl (fun a b => f a (g.decode b)) (g.decode x))

/-- Element `n` of a rank's bytes. -/
def collElem (r : Quad Word) (b : List Byte) (n : Nat) : Nat := ofBytes ((b.drop (n * collSize r)).take (collSize r))

/-- DST element `n` of rank `my` from the bytes of every rank. -/
def collResult (r : Quad Word) (all : List (List Byte)) (my n : Nat) : List Byte :=
  toBytes
    (match collOp r with
     | 0 => collReduce r (all.map fun b => collElem r b n)
     | 1 => collElem r (all.getD (n / collCount r) []) (n % collCount r)
     | _ => collReduce r (all.map fun b => collElem r b (my * collCount r + n)))
    (collSize r)

/-! ### Ranks (R452) -/

/-- A command that has read its table and waits for, or exchanges with, the other ranks. -/
def Cmd.exchanging (c : Cmd) : Bool := c.unit == .coll && kindOf c.words == 7 && c.running && !c.finished && c.note == 1

/-- The rank of this package that a table entry names: the running command of the same queue number on that die (log 24). -/
def State.rankCmd (s : State) (q : Nat) (e : Word) : Option (Nat × Cmd) :=
  s.cmds.items.find? fun x => x.2.exchanging && decide (x.2.die = rankDie e) && decide (x.2.q = q)

/-- The entries of a table that name this package. -/
def State.ownRanks (s : State) (table : List Word) : List Word := table.filter fun e => decide (rankNode e = bits s.fab.node 0 10)

/-- Two commands give one header, but for the table. -/
def Cmd.sameRecord (a b : Cmd) : Bool :=
  collOp a.shape == collOp b.shape && collRed a.shape == collRed b.shape && collTy a.shape == collTy b.shape &&
    collRanks a.shape == collRanks b.shape && collCount a.shape == collCount b.shape && collTag a.shape == collTag b.shape

/-- Two commands have one header. -/
def Cmd.sameHeader (a b : Cmd) : Bool := a.sameRecord b && a.notes == b.notes

/-- A pushed command `a` is a rank of the exchange of `b`: it has the same header, or stands at its rank in the table of the one that has
read it; while neither has, the record decides (R452, R454, log 24). -/
def State.sameExchange (s : State) (a b : Cmd) : Bool :=
  let seat := fun (x y : Cmd) =>
    let e := nth y.notes (collRank x.shape)
    decide (rankNode e = bits s.fab.node 0 10) && decide (rankDie e = x.die)
  a.unit == .coll && kindOf a.words == 7 && !a.finished && decide (a.q = b.q) && a.sameRecord b && collRank a.shape != collRank b.shape &&
    (if a.exchanging && b.exchanging then a.notes == b.notes else (!b.exchanging || seat a b) && (!a.exchanging || seat b a))

/-- No entry of a table stands twice. -/
def distinctRanks : List Word → Bool
  | [] => true
  | a :: l => (l.all fun b => rankNode a != rankNode b || rankDie a != rankDie b) && distinctRanks l

/-- A rank table that the engine refuses. -/
def State.badTable (s : State) (cmd : Cmd) (table : List Word) : Bool :=
  let own := bits s.fab.node 0 10
  let me := nth table (collRank cmd.shape)
  rankNode me != own || rankDie me != cmd.die || !distinctRanks table ||
    table.any fun e => rankDie e == 3 || (rankNode e != own && bits (s.fab.ents.getD (rankNode e) 0) 0 3 != 7)

/-- A command takes a fault that lies at no address: where FADDR and FINFO point is free (R233, log 19). -/
def State.cmdFaultFree (s : State) (id : Nat) (cause : Cause) : State :=
  let p := Config.faultPlace s.serial
  { s with serial := s.serial + 1 }.cmdFault id cause (spaceOf (p.toNat % 8)) (Config.faultAddr s.serial).toNat (p.getLsbD 3)

/-- The other ranks of an exchange in this package break: BROKEN, or REMOTE_ABORT (R454). A command that is pushed and has not started is a
rank too. -/
def State.breakRanks (s : State) (id : Nat) (cause : Cause) : State :=
  match s.cmds.find? id with
  | none => s
  | some c =>
    if c.unit != .coll || kindOf c.words != 7 || c.finished then s
    else
      (s.cmds.items.filter fun e => decide (e.1 ≠ id) && s.sameExchange e.2 c).foldl
        (fun s e => if (s.cmds.find? e.1).isSome then s.cmdFaultFree e.1 cause else s) s

/-! ### Running (R452 to R454) -/

/-- The start: alignment and the rank table. -/
def State.startColl (s : State) (id : Nat) (cmd : Cmd) (c : Ctx) : Except ElemFault State :=
  let r := cmd.shape
  if cmd.words.q0.toNat % collSize r ≠ 0 then .error ⟨causeMisalign, ssOf r, cmd.words.q0.toNat, false⟩
  else if cmd.words.q1.toNat % collSize r ≠ 0 then .error ⟨causeMisalign, dsOf r, cmd.words.q1.toNat, true⟩
  else
    match s.engineRead c .lsp (collTable r) (8 * collRanks r) with
    | .error x => .error x
    | .ok (s, b) =>
      let table := (pieces 8 (collRanks r) b).map fun x => toWord (ofBytes x)
      if s.badTable cmd table then .error ⟨causeSpaceFault, .lsp, collTable r, false⟩
      else .ok { s with cmds := s.cmds.insert id { cmd with running := true, note := 1, notes := table } }

/-- Reads the SRC of the ranks of this package: the command that faults with its fault, or each rank's bytes. -/
def State.rankSources (s : State) : List (Nat × Cmd) → Except (Nat × ElemFault) (State × List (Nat × List Byte))
  | [] => .ok (s, [])
  | (id, cmd) :: l =>
    match s.ctx? cmd.ctx with
    | none => .error (id, ⟨0, .lsp, 0, false⟩)
    | some c =>
      match s.engineRead c (ssOf cmd.shape) cmd.words.q0.toNat (collSrcBytes cmd.shape) with
      | .error x => .error (id, x)
      | .ok (s, b) =>
        match s.rankSources l with
        | .error x => .error x
        | .ok (s, r) => .ok (s, (collRank cmd.shape, b) :: r)

/-- Writes DST elements in index order until one faults. -/
def State.writeElems (s : State) (c : Ctx) (cmd : Cmd) (all : List (List Byte)) : List Nat → State × Option ElemFault
  | [] => (s, none)
  | n :: l =>
    match s.engineWrite c (dsOf cmd.shape) (cmd.words.q1.toNat + n * collSize cmd.shape)
        (collResult cmd.shape all (collRank cmd.shape) n) with
    | .error x => (s, some x)
    | .ok t => t.writeElems c cmd all l

/-- Writes the DST of each rank of this package and ends its command; none while a network port holds one back. -/
def State.rankResults (s : State) (all : List (List Byte)) : List (Nat × Cmd) → Option State
  | [] => some s
  | (id, cmd) :: l =>
    match s.ctx? cmd.ctx with
    | none => none
    | some c =>
      match s.writeElems c cmd all (range 0 (collDstElems cmd.shape)) with
      | (t, some x) => if x.cause = 0 then none else (t.cmdFault id x.cause x.sp x.addr x.wr).rankResults all l
      | (t, none) =>
        { t with cmds := t.cmds.insert id ({ cmd with note := 2, notes := [] }.finish (collDstElems cmd.shape * collSize cmd.shape)) }.rankResults
          all l

/-- RX moves over the requests applied ahead of it, at most `n` of them (R446). -/
def rxAdvance : Nat → BitVec 32 → NSet → BitVec 32 × NSet
  | 0, rx, m => (rx, m)
  | n + 1, rx, m => if m.has rx.toNat then rxAdvance n (rx + 1) (m.del rx.toNat) else (rx, m)

/-- RX of a node is at least `rx`, and the requests of `m` have been applied ahead of it. -/
def State.setRx (s : State) (node : Nat) (rx : BitVec 32) (m : NSet) : State :=
  let (rx, m) := rxAdvance m.elems.length rx m
  { s with fab := { s.fab with rx := s.fab.rx.insert node rx, early := s.fab.early.insert node m } }

/-- How far ahead of RX a sequence number lies. -/
def State.ahead (s : State) (node : Nat) (sseq : BitVec 32) : Nat := (sseq - s.fab.rx.getD node 0).toNat

/-- A request of a node has been applied or refused. -/
def State.countRx (s : State) (node : Nat) (sseq : BitVec 32) : State :=
  s.setRx node (s.fab.rx.getD node 0) ((s.fab.early.getD node .empty).add sseq.toNat)

/-- The first `k` numbers from `q` on that are not taken, looking at `n` of them. -/
def freeNumbers (taken : BitVec 32 → Bool) : Nat → Nat → BitVec 32 → List (BitVec 32)
  | 0, _, _ => []
  | _, 0, _ => []
  | n + 1, k + 1, q => if taken q then freeNumbers taken n (k + 1) (q + 1) else q :: freeNumbers taken n k (q + 1)

/-- The packets that a collective receives of a node take `k` numbers: of those that no request that has come holds, behind requests that have still to
come (R446, log 23). -/
def State.countPackets (s : State) (node k : Nat) : State :=
  let early := (s.fab.early.getD node .empty).elems
  let held := (s.fab.held.getD node .empty).keys
  let taken := fun q : BitVec 32 => early.contains q.toNat || held.contains q.toNat
  (freeNumbers taken (k + early.length + held.length) k
    (s.fab.rx.getD node 0 + BitVec.ofNat 32 (Config.collGap s.serial % 2 ^ 19))).foldl (fun s q => s.countRx node q) s

/-- The next `k` requests of a node have been applied or refused. -/
def State.countNext (s : State) (node : Nat) (k : BitVec 32) : State :=
  s.setRx node (s.fab.rx.getD node 0 + k)
    ((s.fab.early.getD node .empty).delIf fun q => decide (s.ahead node (BitVec.ofNat 32 q) < k.toNat))

/-- The packets exchanged with other nodes take sequence numbers on both sides (R446, log 23). -/
def State.collTraffic (s : State) (table : List Word) : State :=
  let nodes := ((table.map rankNode).filter fun n => decide (n ≠ bits s.fab.node 0 10)).eraseDups
  nodes.foldl
    (fun s n =>
      let k := Config.collPackets s.serial
      ({ s with serial := s.serial + 1, fab := { s.fab with tx := s.fab.tx.insert n (s.fab.tx.getD n 0 + BitVec.ofNat 32 k) } }.countPackets n
        k).acknowledge n) s

/-- The exchange: every rank of this package has started, and the ranks of other packages contribute `ranks` in table order. -/
def State.exchange (s : State) (cmd : Cmd) (ranks : List RankInput) : State :=
  let r := cmd.shape
  let own := s.ownRanks cmd.notes
  let mine := own.filterMap (s.rankCmd cmd.q)
  let others := cmd.notes.length - own.length
  if mine.length < own.length || ranks.length ≠ others ||
      !(ranks.all fun x => !x.same || decide (x.data.length = collSrcBytes r)) then s
  else if !(mine.all fun e => e.2.sameHeader cmd) || !(ranks.all fun x => x.same) then
    mine.foldl (fun s e => s.cmdFaultFree e.1 causeBroken) s
  else
    match s.rankSources mine with
    | .error (id, x) => if x.cause = 0 then s else s.cmdFault id x.cause x.sp x.addr x.wr
    | .ok (t, srcs) =>
      let ext := (cmd.notes.zipIdx.filter fun e => decide (rankNode e.1 ≠ bits s.fab.node 0 10)).map (·.2)
      let from_ := srcs ++ ext.zip (ranks.map (·.data))
      let all := (range 0 (collRanks r)).map fun n => ((from_.find? fun e => e.1 = n).map (·.2)).getD []
      match t.rankResults all mine with
      | none => s
      | some u => u.collTraffic cmd.notes

/-- COLL (R450 to R454): the command starts; or, with what the other packages contribute, the exchange of all its ranks takes place. -/
def execColl (cmd : Nat) (ranks : List RankInput) (s : State) : Host.Outcome State Fault Refusal :=
  .next
    (match s.cmds.find? cmd with
     | none => s
     | some x =>
       match s.ctx? x.ctx with
       | none => s
       | some c =>
         if x.unit != .coll || kindOf x.words != 7 then s
         else if x.exchanging then s.exchange x ranks
         else if s.eligible cmd x && s.cmds.items.all fun e => !(e.2.sameQueue x && decide (e.1 < cmd)) then
           match s.startColl cmd x c with
           | .error e => if e.cause = 0 then s else s.cmdFault cmd e.cause e.sp e.addr e.wr
           | .ok t => t
         else s)

end Sys2Proof.Machine
end

