-- ==== Sys2Proof/Machine/Scheduler.lean ====
section
/-! DEFINITION. The scheduler of a die: doorbells, admission, choosing and placing tasks, starting and ending instances, turns and
throttling (R336 to R345, R353, R354, R358, R359, R381, R382). -/

namespace Sys2Proof.Machine

/-! ### Doorbells and admission (R341, R342, R382) -/

/-- A completion record joins those that a die is to write (R383). -/
def State.complete (s : State) (die : Nat) (hseq : BitVec 32) (gid : Nat) (status : BitVec 8) (cause : Cause) (task : BitVec 16) : State :=
  s.modDie die fun d =>
    { d with win := { d.win with
        held := d.win.held ++ [⟨hseq, BitVec.ofNat 16 gid, status, cause, task, d.time, 0⟩] } }

/-- The key of a launch: the die of its doorbell and its HSEQ. -/
def launchKey (die : Nat) (hseq : BitVec 32) : Nat := die * 2 ^ 32 + hseq.toNat

/-- The number that `n` bytes from place `o` of a record hold. -/
def recordField (r : List Byte) (o n : Nat) : Nat := ofBytes ((r.drop o).take n)

/-- The patch entries of a doorbell, none when one is malformed (R341). -/
def patchList (pbsize : Nat) : List (List Byte) → Option (List (Nat × List Byte))
  | [] => some []
  | e :: l =>
    let off := recordField e 0 4
    if off % 8 ≠ 0 || decide (pbsize ≤ off) || recordField e 4 4 ≠ 0 then none
    else (patchList pbsize l).map fun r => (off, e.drop 8) :: r

/-- The parameter block of a launch: the graph's, with the patches in list order; none when the doorbell is refused. Whether the host answers the
read of the list is open (log 53). -/
def State.parameterBlock (s : State) (g : GraphImage) (npatch plist : Nat) : Option Mem :=
  if 256 < npatch || plist % 16 ≠ 0 || (npatch ≠ 0 && Config.listReadFails s.serial) then none
  else
    let entries := (range 0 npatch).map fun n => s.hostMem.readBytes ((plist + 16 * n) % 2 ^ 64) 16
    (patchList g.pbsize entries).map fun ps =>
      ps.foldl (fun (m : Mem) p => m.writeBytes p.1 p.2) (Mem.writeBytes .empty 0 (g.pbinit.take g.pbsize))

/-- A doorbell that passed the check of R382. -/
def State.parseDoorbell (s : State) (die : Nat) (r : List Byte) (hseq : BitVec 32) : State :=
  let gid := recordField r 0 2
  if s.logFull then s.complete die hseq gid 4 0 0xFFFF
  else
    match (s.die die).graphs.find? gid with
    | none => s.complete die hseq gid 1 0 0xFFFF
    | some g =>
      match s.parameterBlock g.image (recordField r 2 2) (recordField r 8 8) with
      | none => s.complete die hseq gid 1 0 0xFFFF
      | some pb =>
        { s.modDie die fun d => { d with pendings := d.pendings ++ [⟨hseq, gid, pb, s.serial⟩] } with serial := s.serial + 1 }

/-- DOORBELL (R341, R381, R382): one write of 16 bytes to the window of a die. -/
def execDoorbell (die : Nat) (r : List Byte) (s : State) : Host.Outcome State Fault Refusal :=
  .next
    (let hseq := BitVec.ofNat 32 (recordField r 4 4)
     if r.length ≠ 16 || 3 ≤ die || (s.die die).resetting || (s.die 1).resetting || hseq ≠ (s.die die).win.seqSeen + 1 then s
     else
       (s.modDie die fun d => { d with win := { d.win with seqSeen := hseq } }).parseDoorbell die r hseq)

/-- A launch of a graph has not ended. -/
def State.outstanding (s : State) (gid : Nat) : Bool := s.launches.vals.any fun l => l.gid == gid && !l.finished

/-- A pending launch may be admitted: no earlier doorbell of its graph waits on any die, and a graph with semaphores has no launch under
way. -/
def State.mayAdmit (s : State) (p : Pending) (g : GraphImage) : Bool :=
  ((s.dies.vals.flatMap (·.pendings)).all fun q => !(decide (q.gid = p.gid) && decide (q.order < p.order))) &&
    (g.semn == 0 || !s.outstanding p.gid)

/-- Every semaphore of a graph's range is reset on every die that the graph names. -/
def State.resetSems (s : State) (g : GraphImage) : State :=
  g.allDies.foldl (fun s d => (range g.sembase g.semn).foldl (fun s n => s.resetSem d n) s) s

/-- Adds runs to the scheduler; their numbers. -/
def State.addRuns (s : State) : List Run → State × List Nat
  | [] => (s, [])
  | r :: l =>
    let (t, ns) := State.addRuns { s with runs := s.runs.insert s.serial r, serial := s.serial + 1 } l
    (t, s.serial :: ns)

/-- The runs of the tasks of a launch, those without dependence being ready. -/
def State.launchRuns (s : State) (key : Nat) (g : GraphImage) : List Run :=
  ((range 0 g.ntask).filter fun t => !g.devonly t).map fun t =>
    let d := (g.dies t).headD 0
    Run.fresh key t d 0 0 (s.die d).time (if (g.deps t).isEmpty then .ready else .blocked)

/-! ### The life of a run (R336, R338, R342) -/

/-- Changes a run. -/
def State.modRun (s : State) (n : Nat) (f : Run → Run) : State := { s with runs := s.runs.modify n f }

/-- The run of a task of a launch. -/
def State.runOf (s : State) (l : Launch) (task : Nat) : Option Run :=
  (l.runs.filterMap s.runs.find?).find? fun r => r.task = task

/-- A blocked task becomes ready, or is cancelled, by what became of the tasks it depends on. -/
def State.unblock (s : State) (l : Launch) (g : GraphImage) (n : Nat) : State :=
  s.modRun n fun r =>
    if r.phase ≠ .blocked then r
    else
      let ds := (g.deps r.task).filterMap (s.runOf l)
      if ds.any fun d => d.phase == .failed || d.phase == .cancelled then { r with phase := .cancelled }
      else if ds.all fun d => d.phase == .done then { r with phase := .ready, readyAt := (s.die r.die).time }
      else r

/-- A launch whose tasks have all completed or been cancelled is completed (R342). -/
def State.endLaunch (s : State) (key : Nat) : State :=
  match s.launches.find? key with
  | none => s
  | some l =>
    if !l.finished && (l.runs.filterMap s.runs.find?).all Run.isOver then
      { s.complete l.die l.hseq l.gid l.status l.cause l.task with launches := s.launches.insert key { l with finished := true } }
    else s

/-- A pending launch becomes a launch; one without a task that counts is completed at once (R342). -/
def State.takeUp (s : State) (die : Nat) (p : Pending) (g : Graph) : State :=
  let key := launchKey die p.hseq
  let s := (s.modDie die fun d => { d with pendings := d.pendings.erase p }).resetSems g.image
  let (t, ns) := s.addRuns (s.launchRuns key g.image)
  let l : Launch := { die := die, host := g.host, gid := p.gid, hseq := p.hseq, order := s.serial, pb := p.pb, runs := ns, retries := 0,
                      finished := false, status := 0, cause := 0, task := 0xFFFF }
  { t with launches := t.launches.insert key l }.endLaunch key

/-- LAUNCH_ADMIT (R342). -/
def execLaunchAdmit (launch : Nat) (s : State) : Host.Outcome State Fault Refusal :=
  .next
    (let die := launch / 2 ^ 32
     match (s.die die).pendings.find? fun p => launchKey die p.hseq = launch with
     | none => s
     | some p =>
       match (s.die die).graphs.find? p.gid with
       | none => s
       | some g => if s.mayAdmit p g.image then s.takeUp die p g else s)

/-- The tasks of a launch move on after one of them has come to its end: as many rounds as there are tasks. -/
def State.advance (s : State) (key : Nat) : State :=
  match s.launches.find? key with
  | none => s
  | some l =>
    match s.graphOf l.die key with
    | none => s.endLaunch key
    | some g =>
      let round := fun s => l.runs.foldl (fun s n => s.unblock l g.image n) s
      ((l.runs.foldl (fun s _ => round s) s).serveChildren).endLaunch key

/-- A run completes. -/
def State.runDone (s : State) (n : Nat) : State :=
  match s.runs.find? n with
  | none => s
  | some r => (s.modRun n fun r => { r with phase := .done }).advance r.launch

/-- The image of the graph of a run. -/
def State.imageOf (s : State) (r : Run) : Option GraphImage := (s.graphOf r.die r.launch).map (·.image)

/-- Every instance of a run has ended. -/
def Run.allEnded (r : Run) (g : GraphImage) : Bool := (g.tuples r.task).all (r.ended.map (·.1)).contains

/-- The sum of the digests of the instances of a run (R354). -/
def Run.digest (r : Run) : BitVec 128 := (r.ended.map (·.2)).foldl (· + ·) 0

/-- A run is ready: it has a step that may start. -/
def State.startable (s : State) (r : Run) : Bool :=
  r.phase == .ready &&
    match s.imageOf r with
    | none => false
    | some g => !(g.nextStep r.task r).isEmpty

/-- An instance of a run has ended with a digest. A task that runs once completes with its last instance (R338); after the last instance
of a twin run the digests are compared (R354). A step that was ready goes on waiting (R344). -/
def State.endOne (s : State) (n : Nat) (index : List Nat) (digest : BitVec 128) : State :=
  match s.runs.find? n with
  | none => s
  | some r =>
    let waits := s.startable r
    let r := { r with ended := r.ended ++ [(index, digest)], readyAt := if waits then r.readyAt else (s.die r.die).time }
    let t := { s with runs := s.runs.insert n r }
    match s.imageOf r with
    | none => t
    | some g => if r.allEnded g && !g.twin r.task && r.phase == .ready then t.runDone n else t

/-- TWIN_RUN_END (R353, R354): after run 0 the task starts again, after run 1 the digests decide. -/
def execTwinRunEnd (run : Nat) (s : State) : Host.Outcome State Fault Refusal :=
  .next
    (match s.runs.find? run with
     | none => s
     | some r =>
       match s.imageOf r with
       | none => s
       | some g =>
         if !(g.twin r.task && r.allEnded g && r.phase == .ready && decide (r.twin < 2)) then s
         else if r.twin = 0 then
           s.modRun run fun r => { r with twin := 1, digest0 := r.digest, started := [], ended := [] }
         else if r.digest = r.digest0 then s.runDone run
         else
           { s.modRun run (fun r => { r with twin := 2 }) with
             offers := s.offers ++ [⟨0, run, r.launch, causeDigestMismatch, false, false⟩] })

/-! ### Candidates of a scheduling step (R344) -/

/-- What may be placed: a saved gang, or the next steps of the runs of a new gang; with its effective and base priority, its graph, its
launch's place in admission order and its task. -/
structure Cand where
  gang : Option Nat
  runs : List Nat
  eff : Nat
  base : Nat
  gid : Nat
  order : Nat
  task : Nat
  deriving DecidableEq, Repr

/-- Effective priority (R344). -/
def effPrio (base now ready : Nat) : Nat := min 7 (base + (now - ready) / Config.cycles64us)

/-- Of runs with their tasks, the first of each task. -/
def firstOfTask : List (Nat × Nat) → List (Nat × Nat)
  | [] => []
  | e :: l => e :: (firstOfTask l).filter fun x => x.2 != e.2

/-- The runs that form a gang with a ready run: itself, and one of every other task of the same launch and non-zero GANG that is ready too (R336,
log 34). -/
def State.gangRuns (s : State) (n : Nat) (r : Run) : List Nat :=
  match s.imageOf r with
  | none => [n]
  | some g =>
    if g.gang r.task = 0 then [n]
    else
      n :: (firstOfTask (s.runs.items.filterMap fun e =>
        if e.2.task ≠ r.task && e.2.launch = r.launch && g.gang e.2.task = g.gang r.task && s.startable e.2 then some (e.1, e.2.task)
        else none)).map (·.1)

/-- The candidate that a ready run of a die makes. -/
def State.runCand (s : State) (die n : Nat) (r : Run) : Option Cand :=
  match s.imageOf r, s.launches.find? r.launch with
  | some g, some l =>
    if r.die = die && s.startable r then
      some ⟨none, s.gangRuns n r, effPrio (g.prio r.task) (s.die die).time r.readyAt, g.prio r.task, l.gid, l.order, r.task⟩
    else none
  | _, _ => none

/-- The die of a gang. -/
def Gang.die (g : Gang) : Nat := (g.ctxs.headD 0) / 2 ^ 24

/-- The candidate that a saved gang makes. -/
def State.gangCand (s : State) (die n : Nat) (g : Gang) : Option Cand :=
  match s.launches.find? g.launch with
  | none => none
  | some l =>
    if g.saved && g.die = die && g.ctxs.all fun k => (s.ctx? k).any fun c => c.status == .saved || c.status.over then
      some ⟨some n, g.runs, effPrio g.prio (s.die die).time g.readyAt, g.prio, l.gid, l.order,
        ((g.runs.filterMap s.runs.find?).map (·.task)).headD 0⟩
    else none

/-- `a` is chosen before `b`: by effective priority, then by graph in rotation, then by launch and task (R344). -/
def Die.before (d : Die) (a b : Cand) : Bool :=
  let turn := fun (c : Cand) =>
    match d.lastGid.find? c.eff with
    | some l => if l < c.gid then c.gid else c.gid + 2 ^ 16
    | none => c.gid
  decide (b.eff < a.eff) ||
    (a.eff == b.eff && (decide (turn a < turn b) ||
      (turn a == turn b && (decide (a.order < b.order) || (a.order == b.order && decide (a.task < b.task))))))

/-- Puts a candidate behind those that are not to come after it. -/
def Die.insertCand (d : Die) (c : Cand) : List Cand → List Cand
  | [] => [c]
  | a :: l => if d.before c a then c :: a :: l else a :: d.insertCand c l

/-- The candidates of a die in the order of choice. -/
def State.candidates (s : State) (die : Nat) : List Cand :=
  let d := s.die die
  ((s.gangs.items.filterMap fun e => s.gangCand die e.1 e.2) ++ (s.runs.items.filterMap fun e => s.runCand die e.1 e.2)).foldl
    (fun l c => d.insertCand c l) []

/-! ### Placement (R336, R339, R346) -/

/-- The entries of a logical cluster name one physical cluster, and the die is not resetting. -/
def State.usable (s : State) (die l : Nat) : Bool :=
  let d := s.die die
  !d.resetting && (range (l / 8 * 8) 8).all fun m => decide (Config.ncore die ≤ m) || decide (d.pcore m / 8 = d.pcore l / 8)

/-- A context stands in the way on its logical core, unless its gang is among `gone` or saved, or its instance has ended and its own launch is to go
on there (R338, log 54). -/
def State.blocks (s : State) (launch : Nat) (gone : List Nat) (k : Nat) (c : Ctx) : Bool :=
  !(c.status == .left && decide (c.who.launch = launch)) &&
    !(s.gangs.items.any fun e => e.2.ctxs.contains k && (gone.contains e.1 || (e.2.saved && (c.status == .saved || c.status.over))))

/-- A logical core is free for a launch, but for the gangs `gone`. -/
def State.coreFree (s : State) (launch : Nat) (gone : List Nat) (die l : Nat) : Bool :=
  s.usable die l && s.ctxs.items.all fun e => !(e.2.who.die == die && e.2.who.lcore == l && s.blocks launch gone e.1 e.2)

/-- Bases for the next steps of runs on cores that satisfy `ok`, each core used once: runs with their bases and the cores used. -/
def State.placeRuns (s : State) (ok : Nat → Bool) : List Nat → List Nat → Option (List (Nat × Nat) × List Nat)
  | [], used => some ([], used)
  | n :: l, used =>
    match s.runs.find? n with
    | none => none
    | some r =>
      match s.imageOf r with
      | none => none
      | some g =>
        match g.baseFor r fun k => ok k && !used.contains k with
        | none => none
        | some b => (s.placeRuns ok l (used ++ g.cores r (g.nextStep r.task r) b)).map fun e => ((n, b) :: e.1, e.2)

/-- The pool of a die can supply what the instances of runs reserve (R346). -/
def State.poolSupplies (s : State) (runs : List Nat) : Bool :=
  let need := fun d =>
    (runs.map fun n =>
      match s.runs.find? n with
      | none => 0
      | some r =>
        match s.imageOf r with
        | none => 0
        | some g => if g.det then g.lres r.task * ((g.nextStep r.task r).filter fun x => g.dieOf r.task x = d).length else 0).foldl (· + ·) 0
  (range 0 3).all fun d => decide (need d = 0) || decide (s.poolUsed d + need d ≤ 4096)

/-- The cores on which a candidate can stand when the cores `ok` are free: with the bases of its runs. -/
def State.placeCand (s : State) (ok : Nat → Bool) (c : Cand) : Option (List (Nat × Nat) × List Nat) :=
  match c.gang with
  | none => if s.poolSupplies c.runs then s.placeRuns ok c.runs [] else none
  | some n =>
    match s.gangs.find? n with
    | none => none
    | some g =>
      let cores := (g.ctxs.filterMap s.ctx?).map Ctx.core
      if cores.all ok then some ([], cores) else none

/-- The launch of a candidate. -/
def State.candLaunch (s : State) (c : Cand) : Nat := ((s.runs.find? (c.runs.headD 0)).map (·.launch)).getD 0

/-- The cores that are free for a candidate. -/
def State.freeFor (s : State) (c : Cand) (gone : List Nat) (k : Nat) : Bool := s.coreFree (s.candLaunch c) gone (k / 128) (k % 128)

/-- A core is reserved for a head, of whichever die, of higher effective priority (R344). -/
def State.heldFrom (s : State) (eff k : Nat) : Bool := s.dies.vals.any fun d => d.reserved.contains k && decide (eff < d.reservedFor)

/-- The dies on which a candidate is to stand. -/
def State.candDies (s : State) (c : Cand) : List Nat :=
  match c.gang.bind s.gangs.find? with
  | some g => (g.ctxs.map (· / 2 ^ 24)).eraseDups
  | none =>
    ((c.runs.filterMap s.runs.find?).flatMap fun r => ((s.imageOf r).map fun g => g.dies r.task).getD []).eraseDups

/-- Running gangs on the dies of a head that it may pre-empt: lowest base priority first, then the latest started (R344). -/
def State.victims (s : State) (c : Cand) : List (Nat × Gang) :=
  let may := fun (g : Gang) =>
    !g.saved && decide (g.prio < c.base) && (g.ctxs.any fun k => (s.candDies c).contains (k / 2 ^ 24)) && g.ctxs.all fun k =>
      ((s.ctx? k).map fun c => !c.who.nopre && c.status != .placed && c.status != .loaded && c.status != .stopped).getD false
  let first := fun (a b : Nat × Gang) => decide (a.2.prio < b.2.prio) || (a.2.prio == b.2.prio && decide (b.2.startedAt < a.2.startedAt))
  (s.gangs.items.filter fun e => may e.2).foldl
    (fun l e => (l.takeWhile fun a => !first e a) ++ [e] ++ l.dropWhile fun a => !first e a) []

/-- The shortest run of victims whose cores let a candidate be placed. -/
def State.victimsFor (s : State) (c : Cand) (done : List Nat) : List (Nat × Gang) → Option (List Nat)
  | [] => none
  | e :: l =>
    let gone := done ++ [e.1]
    if (s.placeCand (s.freeFor c gone) c).isSome then some gone else s.victimsFor c gone l

/-- The list at SAVEPOOL of every die holds the areas that a gang needs (R358). -/
def State.areasFor (s : State) (g : Gang) : Bool :=
  let live := g.ctxs.filter fun k => ((s.ctx? k).map fun c => c.status == .live).getD false
  (range 0 3).all fun d => decide ((live.filter fun k => k / 2 ^ 24 = d).length ≤ (s.die d).freeAreas)

/-- Pre-empts a gang: a request to every core of it in one die-time cycle (R358). -/
def State.preemptGang (s : State) (n : Nat) : State :=
  match s.gangs.find? n with
  | none => s
  | some g =>
    if s.areasFor g then
      let t := g.ctxs.foldl State.requestSave s
      { t with gangs := t.gangs.insert n { g with saved := true, readyAt := (s.die g.die).time } }
    else s

/-- Gangs whose pre-emption is under way. -/
def State.leaving (s : State) : List Nat :=
  s.gangs.items.filterMap fun e =>
    if e.2.saved && e.2.ctxs.all fun k => ((s.ctx? k).map fun c => c.status == .halted || c.status == .saved || c.status.over).getD true then some e.1 else none

/-- A head that cannot be placed reserves cores and pre-empts gangs of lower base priority (R344). It reserves the cores on which it
will stand once the gangs that leave have left, or else those at its lowest base. -/
def State.reserve (s : State) (die : Nat) (c : Cand) : State :=
  let leaving := s.leaving
  let put := fun (s : State) (l : List Nat) => s.modDie die fun d => { d with reserved := l, reservedFor := c.eff }
  match s.placeCand (s.freeFor c leaving) c with
  | some (_, cores) => put s cores
  | none =>
    match s.victimsFor c leaving (s.victims c) with
    | some gone =>
      let cores := ((s.placeCand (s.freeFor c gone) c).map (·.2)).getD []
      put ((gone.filter fun n => !leaving.contains n).foldl State.preemptGang s) cores
    | none => put s (((s.placeCand (fun k => s.usable (k / 128) (k % 128)) c).map (·.2)).getD [])

/-! ### Placing a gang -/

/-- A context number for a start: one that the die has not assigned since its reset (R337); once it has assigned them all, one that no context
has (log 21). -/
def State.freshNum (s : State) (die : Nat) : Nat :=
  let used := (s.die die).used
  let free := fun n => n ≠ 0 && decide (n < 2 ^ 24) && (s.ctx? (ctxKey die n)).isNone
  ((pick (Config.ctxNumber s.serial) (range 1 (used.elems.length + 1)) fun n => free n && !used.has n).or
    ((range 1 (s.ctxs.items.length + 1)).find? free)).getD 1

/-- The code store of a stream, by word index. -/
def codeStore (l : List Word) : FMap Word := ⟨List.zip (range 0 l.length) l⟩

/-- A context for an instance of a run at a base, not yet started. -/
def State.newCtx (s : State) (l : Launch) (n base : Nat) (r : Run) (g : GraphImage) (index : List Nat) : Ctx :=
  let t := r.task
  let die := g.dieOf t index
  let who : Identity :=
    { die := die, lcore := base + g.coreIndex t index, num := s.freshNum die, launch := r.launch, task := t, gid := l.gid, host := l.host,
      run := n, depth := r.depth, sys := g.sys t, nopre := g.nopre t, au := g.au t, pol := BitVec.ofNat 8 (g.pol t),
      lres := if g.det then g.lres t else 0, index := index }
  let e := fun c => toWord (g.entryPc t c)
  let k := (g.kernel t).getD ⟨[], [], [], [], []⟩
  { Ctx.start who ⟨e 0, e 1, e 2, e 3⟩ ⟨codeStore k.c, codeStore k.v, codeStore k.m, codeStore k.x⟩ with
    coreCtl := toWord (g.ctl t)
    xroot := ((s.hostCtxs.find? l.host).map (·.xroot)).getD 0
    rgn := g.regions t }

/-- Places the instances of a run's next step at a base: the contexts made. -/
def State.placeStep (s : State) (n base : Nat) : State × List Nat :=
  match s.runs.find? n with
  | none => (s, [])
  | some r =>
    match s.imageOf r, s.launches.find? r.launch with
    | some g, some l =>
      let step := g.nextStep r.task r
      let s := s.modRun n fun r => { r with lbase := some base, started := r.started ++ step }
      step.foldl
        (fun (e : State × List Nat) x =>
          let c := e.1.newCtx l n base r g x
          ({ (e.1.setCtx c.key c).modDie c.who.die (fun d => { d with used := d.used.add c.who.num }) with
               serial := e.1.serial + 1 }, e.2 ++ [c.key])) (s, [])
    | _, _ => (s, [])

/-- A new gang stands on its cores; its instances are still to start. -/
def State.placeGang (s : State) (die : Nat) (c : Cand) (bases : List (Nat × Nat)) : State :=
  let (t, ks) := bases.foldl
    (fun (e : State × List Nat) b => let (t, l) := e.1.placeStep b.1 b.2; (t, e.2 ++ l)) (s, [])
  let now := (s.die die).time
  { t with
    gangs := t.gangs.insert t.serial ⟨s.candLaunch c, c.runs, ks, c.base, now, false, now, 0⟩
    serial := t.serial + 1 }

/-! ### Sharing a scratchpad between a live and a saved context (R171, R340) -/

/-- An offset lies in a region of a context. -/
def Ctx.inRegions (c : Ctx) (o : Nat) : Bool := let (b, n) := c.region (halfOf o); decide (b ≤ o) && decide (o < b + n)

/-- What a core holds at the offsets that satisfy a test. -/
def CoreState.part (m : CoreState) (p : Nat → Bool) : CoreState :=
  { m with
    bytes := m.bytes.filter fun o _ => p o
    lines := m.lines.delIf fun l => !p (64 * l)
    bad := m.bad.delIf fun l => !p (64 * l)
    tags := m.tags.delIf fun g => !p (16 * g)
    windows := m.windows.filter fun w _ => p (4 * w) }

/-- A core with the offsets that satisfy a test as another one holds them. -/
def CoreState.graft (m : CoreState) (p : Nat → Bool) (a : CoreState) : CoreState :=
  let rest := m.part fun o => !p o
  let from_ := a.part p
  { rest with
    bytes := from_.bytes.items.foldl (fun b e => b.insert e.1 e.2) rest.bytes
    lines := rest.lines.addAll from_.lines.elems
    bad := rest.bad.addAll from_.bad.elems
    tags := rest.tags.addAll from_.tags.elems
    windows := from_.windows.items.foldl (fun b e => b.insert e.1 e.2) rest.windows }

/-- A context is no more, nor its place in its gang. -/
def State.eraseCtx (s : State) (k : Nat) : State :=
  { s with
    cores := s.cores.erase (awayKey k)
    ctxs := s.ctxs.erase k
    gangs := (s.gangs.map fun g => { g with ctxs := g.ctxs.filter (· ≠ k) }).filter fun _ g => !g.ctxs.isEmpty }

/-- Saves part 3 of the contexts of a core whose regions another context is to use, and takes the regions out of their place. Those of an instance that
has ended are no more, unless its gang is to come back (R338, log 54). -/
def State.displace (s : State) (k : Nat) (c : Ctx) : State :=
  s.ctxs.items.foldl
    (fun s e =>
      if e.1 ≠ k && decide (e.2.core = c.core) && !e.2.away && e.2.overlaps c && e.2.status == .left && !s.gangSaved e.1 then s.eraseCtx e.1
      else if e.1 ≠ k && decide (e.2.core = c.core) && !e.2.away && e.2.overlaps c then
        let a := e.2.ctxArea.toNat
        let s := if a = 0 then s else (s.saveRegions a (s.chunks a) e.2).putArea a 0 (toBytes 0xF0001 8)
        let m := s.core c.core
        let s := s.setCore (awayKey e.1) { m.part e.2.inRegions with mail := .empty, faddr := 0, finfo := 0 }
        (s.setCore c.core (m.part fun o => !e.2.inRegions o)).modCtx e.1 fun x => { x with away := true }
      else s) s

/-- The regions of a context are in its core again. -/
def State.restore (s : State) (k : Nat) : State :=
  match s.ctx? k with
  | none => s
  | some c =>
    if !c.away then s
    else
      let a := s.core (awayKey k)
      let t := ((s.displace k c).modCore c.core fun m => m.graft c.inRegions a).setCtx k { c with away := false }
      { t with cores := t.cores.erase (awayKey k) }

/-- A saved gang resumes whole (R358, R172), with the regions of those of its instances that have ended. -/
def State.resumeGang (s : State) (n : Nat) : State :=
  match s.gangs.find? n with
  | none => s
  | some g =>
    let t := g.ctxs.foldl State.restore s
    let t := (g.ctxs.filter fun k => (t.ctx? k).any fun c => c.status == .saved).foldl State.resumeCtx t
    { t with gangs := t.gangs.insert n { g with saved := false, startedAt := (s.die g.die).time } }

/-- A candidate that can be placed is. -/
def State.take (s : State) (die : Nat) (c : Cand) (bases : List (Nat × Nat)) : State :=
  let s := s.modDie die fun d => { d with lastGid := d.lastGid.insert c.eff c.gid, reserved := [] }
  match c.gang with
  | some n => s.resumeGang n
  | none => s.placeGang die c bases

/-- The cores on which a candidate can stand now: with the bases of its runs. -/
def State.placeNow (s : State) (c : Cand) : Option (List (Nat × Nat) × List Nat) :=
  s.placeCand (fun k => s.freeFor c [] k && !s.heldFrom c.eff k) c

/-- The candidates after a head that cannot be placed: the first that can, none of lower effective priority on a reserved core. -/
def State.takeOther (s : State) (die : Nat) : List Cand → State
  | [] => s
  | c :: l =>
    let d := s.die die
    match s.placeNow c with
    | some (bases, _) => (s.take die c bases).modDie die fun e => { e with reserved := d.reserved, reservedFor := d.reservedFor }
    | none => s.takeOther die l

/-- A scheduling step (R344). -/
def State.schedule (s : State) (die : Nat) : State :=
  match s.candidates die with
  | [] => s.modDie die fun d => { d with reserved := [] }
  | c :: l =>
    match s.placeNow c with
    | some (bases, _) => s.take die c bases
    | none => (s.reserve die c).takeOther die l

/-- SCHEDULING_STEP (R344, R358). -/
def execSchedulingStep (die : Nat) (s : State) : Host.Outcome State Fault Refusal :=
  .next (if (s.die die).resetting then s else s.schedule die)

/-- GANG_RESUME (R358): the scheduling step in which a saved gang is the first choice of its die. -/
def execGangResume (gang : Nat) (s : State) : Host.Outcome State Fault Refusal :=
  .next
    (match s.gangs.find? gang with
     | none => s
     | some g =>
       match s.candidates g.die with
       | c :: _ => if c.gang = some gang then s.schedule g.die else s
       | [] => s)

/-! ### Starting an instance (R337) -/

/-- Allocates the regions of a context: their lines are invalid and hold no tag, and saved contexts lose the place. -/
def State.allocate (s : State) (k : Nat) (c : Ctx) : State :=
  (s.displace k c).modCore c.core fun m => { m.graft c.inRegions .blank with mail := .empty }

/-- Writes bytes at the start of a part of the A0 region, as far as it reaches. -/
def State.fillRegion (s : State) (c : Ctx) (off : Nat) (bytes : List Byte) : State :=
  let (b, n) := c.region 0
  s.modCore c.core fun m => m.putBytes (b + off) (bytes.take (n - off))

/-- Steps 2 to 4: the regions, the data section and the parameter block. -/
def State.loadRegion (s : State) (k : Nat) (c : Ctx) (g : GraphImage) : State :=
  let s := s.allocate k c
  let s := s.fillRegion c 0 (((g.kernel c.who.task).map (·.data)).getD [])
  if g.pboff c.who.task = pbNone then s
  else
    match s.launches.find? c.who.launch with
    | none => s
    | some l => s.fillRegion c (g.pboff c.who.task) (l.pb.readBytes 0 g.pbsize)

/-- Step 7: ia.a0 holds the argument and ia.a1 to ia.a3 the indices. -/
def Ctx.withArgs (c : Ctx) (arg : Word) : Ctx :=
  c.setCl .c ((List.zip (range 0 4) (arg :: c.who.index.map toWord)).foldl (fun x e => x.setFile 0 e.1 e.2) (c.cl .c))

/-- The instances of a gang issue once each has finished its steps. -/
def State.release (s : State) (k : Nat) : State :=
  match s.gangs.items.find? fun e => e.2.ctxs.contains k with
  | none => s.modCtx k fun c => { c with status := .live }
  | some e =>
    if e.2.ctxs.all fun n => ((s.ctx? n).map fun c => c.status == .loaded).getD false then
      e.2.ctxs.foldl (fun s n => s.modCtx n fun c => { c with status := .live }) s
    else s

/-- INSTANCE_START (R337). The context number, the core registers and the reset array are the context's since it was placed. -/
def execInstanceStart (ctx : Nat) (s : State) : Host.Outcome State Fault Refusal :=
  .next
    (match s.ctx? ctx with
     | none => s
     | some c =>
       if c.status ≠ .placed then s
       else
         match s.graphOf c.who.die c.who.launch with
         | none => s
         | some g =>
           let arg := ((s.runs.find? c.who.run).map (·.arg)).getD 0
           ((s.loadRegion ctx c g.image).modCtx ctx fun c => { c.withArgs arg with status := .loaded }).release ctx)

/-! ### Ending an instance (R102, R338) -/

/-- A refusal still to be taken at `exit`: a deferred fault, or a refused `sem.sig` (R232, R350). -/
def Ctx.exitFault (c : Ctx) : Option (TrapInfo × Ctx) :=
  match c.takeDeferred fun _ => true with
  | some e => some e
  | none => c.semFault.map fun i => (i, { c with semFault := none })

/-- Everything that a context issued or pushed has performed. -/
def State.quiet (s : State) (k : Nat) : Bool :=
  (s.net.vals.all fun p => decide (p.ctx ≠ k)) && s.cmds.vals.all fun c => decide (c.ctx ≠ k)

/-- The release of a completion: at die scope, at package scope for a task over several dies (R338). -/
def State.endGate (s : State) (c : Ctx) : Gate :=
  let wide := ((s.graphOf c.who.die c.who.launch).map fun g => g.image.hasDies c.who.task).getD false
  s.releaseGate (if wide then 3 else 2)

/-- TASK_COMPLETE (R102): the context has ended, and all it issued and pushed has performed. -/
def execTaskComplete (ctx : Nat) (s : State) : Host.Outcome State Fault Refusal :=
  .next
    (match s.ctx? ctx with
     | none => s
     | some c =>
       if c.status ≠ .ending || !s.quiet ctx then s
       else if !s.gateMet ctx c (s.endGate c) then s.setCtx ctx (c.startFlush (s.endGate c))
       else
         match c.exitFault with
         | some (i, c) => (s.setCtx ctx c).offerTask ctx i
         | none => s.setCtx ctx { c with status := .gone })

/-- The die frees the regions of a context: every tagged granule there is broken and untagged, and every window is no more (R338). -/
def State.freeRegions (s : State) (c : Ctx) : State :=
  let m := s.core c.seat
  let tags := m.tags.elems.filter fun g => c.inRegions (16 * g)
  let wins := m.windows.keys.filter fun w => c.inRegions (4 * w)
  let s := tags.foldl (fun s g => s.breakBar c.seat (16 * g)) s
  let s := s.modCore c.seat fun m => { m with tags := m.tags.delIf fun g => tags.contains g }
  wins.foldl (fun s w => s.freeWin (.scratch c.seat (4 * w))) s

/-- What a context held is free: its regions, unless it has not been given them or they are free already, its area, and its hold on its children (R271,
R337, R338, R346, R359). -/
def State.freeHeld (s : State) (k : Nat) (c : Ctx) : State :=
  let s := (if c.status == .placed || c.status == .left then s else s.freeRegions c).returnArea k
  { s with
    runs := s.runs.map fun r => if r.parent = some k then { r with reaped := true } else r
    childWaits := s.childWaits.filter fun w => w.ctx ≠ k }

/-- The instances of gangs of which every one has ended: nothing is left of them. -/
def State.clearLeft (s : State) : State :=
  (s.gangs.vals.flatMap fun g => if g.ctxs.all fun k => (s.ctx? k).all fun c => c.status == .left then g.ctxs else []).foldl State.eraseCtx s

/-- A context is no more. -/
def State.removeCtx (s : State) (k : Nat) : State :=
  match s.ctx? k with
  | none => s
  | some c => ((s.freeHeld k c).eraseCtx k).clearLeft

/-- The instance of a context ends (R338): its regions are freed, but their bytes stand there for the rest of its gang until every instance of it has
ended (R361, R364, log 54). -/
def State.leave (s : State) (k : Nat) (c : Ctx) : State :=
  if s.gangs.vals.any fun g => g.ctxs.contains k then ((s.freeHeld k c).modCtx k fun c => { c with status := .left }).clearLeft
  else s.removeCtx k

/-- INSTANCE_END (R338). -/
def execInstanceEnd (ctx : Nat) (s : State) : Host.Outcome State Fault Refusal :=
  .next
    (match s.ctx? ctx with
     | none => s
     | some c => if c.status == .gone then (s.leave ctx c).endOne c.who.run c.who.index c.digest else s)

/-! ### Turns and throttling (R340, R345) -/

/-- The logical cores of a die that hold contexts on a physical core. -/
def State.sharers (s : State) (die p : Nat) : List Nat :=
  (range 0 (Config.ncore die)).filter fun l => decide ((s.die die).pcore l = p) && s.occupied die l

/-- The logical core whose turn comes after that of `l`. -/
def nextTurn (l : Nat) (all : List Nat) : Option Nat := (all.find? fun m => decide (l < m)).or all.head?

/-- TURN_CHANGE (R340, R359): the turn on a shared physical core has lasted HSLICE die-time cycles. The resident contexts halt and are
saved; without an area for each the core stays theirs. -/
def execTurnChange (die pcore : Nat) (s : State) : Host.Outcome State Fault Refusal :=
  .next
    (let d := s.die die
     let all := s.sharers die pcore
     let now := all.head?.bind fun _ => s.turnOf die pcore
     match now with
     | none => s
     | some l =>
       match nextTurn l all with
       | none => s
       | some m =>
         let live := (s.liveOn die l).filter fun k => ((s.ctx? k).map fun c => c.status == .live).getD false
         let started := d.turnStart.getD pcore 0
         let stay := (s.liveOn die l).any fun k => ((s.ctx? k).map fun c => c.who.nopre).getD false
         if m = l || d.time < started + d.hslice.toNat || d.freeAreas < live.length || stay then s
         else
           (live.foldl State.requestSave s).modDie die fun d =>
             { d with turns := d.turns.insert pcore m, turnStart := d.turnStart.insert pcore d.time })

/-- POWER_THROTTLE (R345): every core of a gang is frozen in the coming die-time cycles. -/
def execPowerThrottle (gang cycles : Nat) (s : State) : Host.Outcome State Fault Refusal :=
  .next { s with gangs := s.gangs.modify gang fun g => { g with throttle := g.throttle + cycles } }

end Sys2Proof.Machine
end

