-- ==== Sys2Proof/Machine/Directory.lean ====
section
/-! DEFINITION. The KV page directory: entries, ring records, quarantine, rebuilding, and the KVOP commands (R430 to R437). -/

namespace Sys2Proof.Machine

/-! ### Sequence slots (R398, R399) -/

/-- A sequence slot. -/
def State.seq (s : State) (n : Nat) : SeqSlot := s.seqs.getD n ⟨0, 0x10000⟩

/-- Replaces a sequence slot. -/
def State.setSeq (s : State) (n : Nat) (x : SeqSlot) : State := { s with seqs := s.seqs.insert n x }

/-- TAIL of a slot. -/
def SeqSlot.tail (x : SeqSlot) : Nat := bits x.seqt 32 32

/-- Sets SEQT[n].TAIL. -/
def State.setTail (s : State) (n h : Nat) : State := s.setSeq n { s.seq n with seqt := setBits (s.seq n).seqt 32 32 h }

/-! ### Entries (R430) -/

/-- PA and NPG of a storage word. -/
def storagePa (w : Word) : Nat := bits w 12 40 * 2 ^ 12
def storageSize (w : Word) : Nat := bits w 0 12 * 4096

/-- Tag slot `n`. -/
def KvEntry.slot (e : KvEntry) (n : Nat) : BitVec 32 := e.tag.getD n 0

/-- The content key of a full page. -/
def KvEntry.key (e : KvEntry) : Nat :=
  ofBytes ((sha384 (toBytes e.parent 4 ++ (range 0 64).flatMap fun n => toBytes (e.slot n).toNat 4)).take 16)

/-- Two pages have one parent and the same 64 tokens. -/
def KvEntry.sameTag (a b : KvEntry) : Bool := a.parent == b.parent && (range 0 64).all fun n => a.slot n == b.slot n

/-- The FREE entries of a stack; handle 0 names none. -/
def State.kvFree (s : State) (stack : Nat) : Nat :=
  2 ^ 20 - (s.kv.keys.filter fun h => h / 2 ^ 28 = stack).length - (if stack = 0 then 1 else 0)

/-- The stack with the most FREE entries, the lowest first (R434). -/
def State.bestStack (s : State) : Nat :=
  (range 1 11).foldl (fun a b => if s.kvFree a < s.kvFree b then b else a) 0

/-- A FREE handle of a stack (log 21). -/
def State.freeHandle (s : State) (stack : Nat) : Option Nat :=
  pick (stack * 2 ^ 28 + Config.kvEntry s.serial) (range (stack * 2 ^ 28) (s.kv.items.length + 2)) fun h =>
    h ≠ 0 && decide (h / 2 ^ 28 = stack) && decide (h % 2 ^ 28 < 2 ^ 20) && (s.kv.find? h).isNone

/-- Puts an entry into a stack, unless none is FREE there. -/
def State.putEntry (s : State) (stack : Nat) (e : KvEntry) : Option (State × Nat) :=
  (s.freeHandle stack).map fun h => ({ s with kv := s.kv.insert h e, serial := s.serial + 1 }, h)

/-- Replaces an entry. -/
def State.setEntry (s : State) (h : Nat) (e : KvEntry) : State := { s with kv := s.kv.insert h e }

/-- An entry becomes FREE. -/
def State.freeEntry (s : State) (h : Nat) : State := { s with kv := s.kv.erase h }

/-- A page whose parent stands in neither QUAR nor REBUILD (R434). -/
def State.parentReady (s : State) (e : KvEntry) : Bool :=
  match s.kv.find? e.parent with
  | none => true
  | some p => p.phase != .quar && p.phase != .rebuild

/-! ### The ring (R433) -/

/-- A write of the package into the scratchpads of a launch, or its fault; cause 0 when it waits at a network port. -/
def State.dspWrite (s : State) (launch who a : Nat) (bytes : List Byte) : Except ElemFault State :=
  let k := coreKey (dspDie a) (dspCore a)
  let homes := (range 0 bytes.length).map fun i => (s.reachScratch launch who k (dspOff a + i)).toOption
  if s.portClosedAt launch k (dspOff a) then .error ⟨0, .dsp, a, true⟩
  else if a / 2 ^ 33 ≠ 0 || dspDie a = 3 then .error ⟨causeSpaceFault, .dsp, a, true⟩
  else if (s.die (dspDie a)).resetting then .error ⟨causeRemoteAbort, .dsp, a, true⟩
  else
    match homes.findIdx? Option.isNone with
    | some i => .error ⟨causeSpaceFault, .dsp, a + i, true⟩
    | none =>
      let l := homes.filterMap id
      if l.any s.taggedAt then .error ⟨causeBarrierClobber, .dsp, a, true⟩ else .ok ((s.pokes l bytes).cleanse l)

/-- What a record says. What is absent has no value in the spec: those bytes are free (log 22). -/
structure RingRecord where
  type : Nat
  status : Option Nat
  op : Option Nat
  flags : Nat
  handle : Option Nat
  slot : Nat
  place : Option (Nat × Nat)
  page : Option KvEntry
  deriving DecidableEq, Repr

/-- The 32 bytes of record `rseq`. -/
def RingRecord.image (r : RingRecord) (id rseq : Nat) : List Byte :=
  let free := fun o n => (range o n).map (Config.ringByte id)
  let num := fun o n (v : Option Nat) => match v with
    | some x => toBytes x n
    | none => free o n
  [BitVec.ofNat 8 r.type] ++ num 1 1 r.status ++ num 2 1 r.op ++ [BitVec.ofNat 8 r.flags] ++ num 4 4 r.handle ++ toBytes r.slot 2 ++
    num 10 2 (r.place.map (·.1)) ++ num 12 2 (r.place.map (·.2)) ++ num 14 2 (r.page.map (·.ref)) ++
    num 16 8 (r.page.map fun e => e.storage.toNat) ++ num 24 4 (r.page.map fun e => e.pos0.toNat) ++ num 28 1 (r.page.map (·.len)) ++
    free 29 1 ++ toBytes rseq 2

/-- A die's ring, while the launch that registered it has not ended. -/
def State.ring (s : State) (die : Nat) : Option KvRing :=
  match s.rings.find? die with
  | none => none
  | some r => if ((s.launches.find? r.launch).map fun l => !l.finished).getD false then some r else none

/-- Appends a record to a die's ring: the state and, when something was written, its address and bytes. -/
def State.append (s : State) (die : Nat) (x : RingRecord) : Except ElemFault (State × List (Nat × List Byte)) :=
  match s.ring die with
  | none => .ok (s, [])
  | some r =>
    let n := r.rseq + 1
    let a := r.addr + 32 * (n % 2 ^ (r.log2 + 7))
    let b := x.image s.serial n
    match s.dspWrite r.launch r.ctx a b with
    | .error e => .error e
    | .ok t => .ok ({ t with rings := t.rings.insert die { r with rseq := n }, serial := t.serial + 1 }, [(a, b)])

/-- A record of TYPE 1 or 2 signals the semaphore of the ring (R433, R440); an overflow is offered at the task level (R356). -/
def State.signalRing (s : State) (die : Nat) : State :=
  match s.ring die with
  | none => s
  | some r =>
    match s.graphOf die r.launch with
    | none => s
    | some g =>
      if !r.semv then s
      else
        let (t, refused) := s.semSignal die (g.image.sembase + r.sem) 1
        if refused then { t with offers := t.offers ++ [⟨0, r.run, r.launch, causeBarrierOverflow, false, false⟩] } else t

/-- Appends a record of TYPE 1, and signals once it has performed; one whose write faults is dropped (log 39). None while it waits at a network
port. -/
def State.notify (s : State) (die : Nat) (x : RingRecord) : Option State :=
  match s.append die x with
  | .ok (t, _) => some (t.signalRing die)
  | .error e => if e.cause = 0 then none else some s

/-! ### Quarantine and rebuilding (R431, R434, R437) -/

/-- The die that holds the storage of a page. -/
def KvEntry.die (e : KvEntry) : Nat := storagePa e.storage / 2 ^ 40

/-- A page in QUAR whose parent is ready enters REBUILD when a task is registered; its injection is due at once, or once the TYPE 1 record that it may
still owe is written (R434, log 39). -/
def State.offerRebuild (s : State) (h : Nat) : State :=
  match s.kv.find? h with
  | none => s
  | some e =>
    if e.phase == .quar && s.parentReady e && (s.ring e.die).isSome then
      s.setEntry h { e with phase := .rebuild, injectAt := some (s.die e.die).time }
    else s

/-- LAYER and HEAD of an offset in a page under KV_GEOM. -/
def State.kvPlace (s : State) (off : Nat) : Nat × Nat :=
  let layers := bits s.kvGeom 0 16
  let heads := bits s.kvGeom 16 16
  let hb := bits s.kvGeom 32 32
  if heads * hb = 0 || layers ≤ off / (heads * hb) then (0xFFFF, 0xFFFF) else (off / (heads * hb), off / hb % heads)

/-- The TYPE 1 record of a page (R433). -/
def KvEntry.faultRecord (e : KvEntry) (h : Nat) (status : Cause) (place : Nat × Nat) : RingRecord :=
  ⟨1, some status.toNat, none, 0, some h, e.ownseq, some place, some e⟩

/-- A page goes to QUAR with an entry in the error log. -/
def State.toQuar (s : State) (h : Nat) (e : KvEntry) (prior : KvPhase) (fault : Cause) (owed : Option Cause) : State :=
  (s.setEntry h { e with phase := .quar, prior := prior, cause := fault, injectAt := none, owed := owed }).report e.die 4 fault h

/-- A page goes to QUAR with a TYPE 1 record and an entry in the error log; none while the record waits. -/
def State.quarantine (s : State) (h : Nat) (e : KvEntry) (prior : KvPhase) (status fault : Cause) (place : Nat × Nat) : Option State :=
  (s.toQuar h e prior fault none).notify e.die (e.faultRecord h status place)

/-- The context that registered is notified (R437, as R378). -/
def State.noticeKv (s : State) (die : Nat) (cause : Cause) : State :=
  match s.ring die with
  | none => s
  | some r =>
    { s.modCtx r.ctx (fun c =>
        if c.status.over then c else c.offerAsync (.issue cause (clusterOf (Config.noticeCluster s.serial).toNat))) with
      serial := s.serial + 1 }

/-- The source address at which a segment of a region goes wrong. -/
def State.faultAt (s : State) (r : DecodeRegion) (seg : Nat) (cause : Cause) : Nat :=
  let v := seg / r.segs
  let k := seg % r.segs * 32 * blocksOf r.tw
  let first := (r.sources seg).headD (0, 0)
  if cause = causeKvUe then
    (((r.sources seg).flatMap fun e => range e.1 e.2).find? fun a => s.poison.has (a / 64)).getD first.1
  else
    match (r.segValues (s.sourceByte viewDepth) v (seg % r.segs)).findIdx? FVal.special with
    | some i => r.sbase + (v * r.klen + k + i) * srcWidth r.fmt / 8
    | none => first.1

/-- The entry whose storage holds a physical address. -/
def State.entryAt (s : State) (pa : Nat) : Option (Nat × KvEntry) :=
  s.kv.items.find? fun e => decide (storagePa e.2.storage ≤ pa) && decide (pa < storagePa e.2.storage + storageSize e.2.storage)

/-- A report of the fill path reaches the directory. -/
def State.kvFault (s : State) (x : KvReport) : State :=
  let t := { s with kvReports := s.kvReports.erase x }
  match (s.die x.die).regions.find? x.region with
  | none => t
  | some r =>
    let pa := s.faultAt r x.seg x.cause
    match s.entryAt pa with
    | none => t.report x.die 4 x.cause 0
    | some (h, e) =>
      if e.phase == .quar || e.phase == .rebuild then t.report x.die 4 x.cause h
      else
        match t.quarantine h e e.phase x.cause x.cause (s.kvPlace (pa - storagePa e.storage)) with
        | none => s
        | some t => (t.noticeKv e.die x.cause).offerRebuild h

/-- KV_FAULT_REPORT (R431, R437, R440). -/
def execKvFaultReport (die n vec seg : Nat) (cause : Cause) (s : State) : Host.Outcome State Fault Refusal :=
  .next
    (let r := ((s.die die).regions.getD n .zero)
     let x : KvReport := ⟨die, n, vec * r.segs + seg, cause⟩
     if s.kvReports.contains x then s.kvFault x else s)

/-- REBUILD_INJECT (R437): the registered task starts as a device-side launch with the handle as its argument; while the pool refuses, it
is tried again every 64 µs. Before that, a TYPE 1 record that waited at a network port is written (R434). -/
def execRebuildInject (handle : Nat) (s : State) : Host.Outcome State Fault Refusal :=
  .next
    (match s.kv.find? handle with
     | none => s
     | some e =>
       match e.owed, e.injectAt, s.ring e.die with
       | some status, _, _ =>
         let y := { e with owed := none }
         ((s.setEntry handle y).notify e.die (y.faultRecord handle status (0xFFFF, 0xFFFF))).getD s
       | none, some t, some r =>
         let now := (s.die e.die).time
         if now < t then s
         else if 4096 ≤ s.poolUsed e.die then s.setEntry handle { e with injectAt := some (now + Config.cycles64us) }
         else
           { s.setEntry handle { e with injectAt := none } with
             runs := s.runs.insert s.serial
               { Run.fresh r.launch r.task e.die handle (r.depth + 1) now .ready with injected := some handle, reaped := true }
             serial := s.serial + 1 }
       | _, _, _ => s)

/-- A rebuild task was terminated: its page returns to QUAR, and its TYPE 1 record is written, now or once its network port lets it (R434). -/
def State.rebuildFailed (s : State) (r : Run) (cause : Cause) : State :=
  match r.injected with
  | none => s
  | some h =>
    match s.kv.find? h with
    | none => s
    | some e =>
      if e.phase == .rebuild then
        (s.quarantine h e e.prior cause e.cause (0xFFFF, 0xFFFF)).getD (s.toQuar h e e.prior e.cause (some cause))
      else s

/-! ### KVOP commands (R432) -/

/-- OP and SLOT of a command. -/
def kvOp (w : Quad Word) : Nat := bits w.q2 0 4
def kvSlot (w : Quad Word) : Nat := bits w.q2 4 12

/-- A KVOP command that the push refuses. -/
def badKv (w : Quad Word) : Bool :=
  let a := w.q0
  let b := w.q1
  let handle := bits a 32 32 != 0
  badFlags w || kindOf w != 9 || issueTime w != 0 || bits w.q2 16 3 != 0 ||
    match kvOp w with
    | 0 => bits a 0 12 != 0 || bits a 33 3 != 0 || bits a 39 25 != 0 || bits b 10 6 != 0 || bits b 29 35 != 0
    | 1 => bits a 52 12 != 0 || bits a 0 12 == 0 || bits b 32 6 != 0
    | 2 => handle || bits b 52 12 != 0
    | 3 => handle || bits b 52 12 != 0
    | 4 | 5 | 8 | 9 => handle || b != 0
    | 6 => handle || bits b 7 57 != 0
    | 7 => handle || bits b 0 6 != 0 || bits b 33 31 != 0
    | _ => true

/-- What an operation comes to: a status with flags, the resulting handle and page where there are such, the bytes that it wrote, and whether its record
is one of TYPE 2. -/
structure KvResult where
  status : Nat
  flags : Nat
  handle : Option Nat
  page : Option KvEntry
  bytes : Nat
  rebuilt : Bool
  deriving DecidableEq, Repr

/-- An operation that changes nothing. -/
def kvFails (status : Nat) : KvResult := ⟨status, 0, none, none, 0, false⟩

/-- The statuses of R433. -/
def kvFull : Nat := 1
def kvNotFull : Nat := 2
def kvBusy : Nat := 3
def kvBadState : Nat := 4
def kvNoHandle : Nat := 5

/-- An operation on a state: its fault, or the state after it with its result. -/
abbrev KvStep := Except ElemFault (State × KvResult)

/-- The result of an operation with flags, about an entry. -/
def kvDone (s : State) (flags h : Nat) (e : KvEntry) : KvStep := .ok (s, ⟨0, flags, some h, some e, 0, false⟩)

/-- The fault of storage that names no installed memory. -/
def noStorage (w : Word) : ElemFault := ⟨causeXlateFault, .mem, storagePa w, true⟩

/-- Storage lies in installed memory. -/
def State.goodStorage (s : State) (w : Word) : Bool := s.installedAll (storagePa w) (storageSize w)

/-- Opens a tail. -/
def State.openTail (s : State) (slot : Nat) (storage : Word) (parent : Nat) (pos0 : BitVec 32) (len : Nat) (tag : FMap (BitVec 32)) :
    Option (State × Nat × KvEntry) :=
  let e : KvEntry := { phase := .tail, storage := storage, parent := parent, pos0 := pos0, len := len, ref := 1, ownseq := slot,
                       prior := .tail, tag := tag, cause := 0, injectAt := none, owed := none }
  (s.putEntry s.bestStack e).map fun x => (x.1.setTail slot x.2, x.2, e)

/-- OPEN. -/
def State.kvOpen (s : State) (w : Quad Word) : KvStep :=
  if !s.goodStorage w.q0 then .error (noStorage w.q0)
  else
    match s.openTail (kvSlot w) w.q0 (bits w.q1 0 32) (BitVec.ofNat 32 (bits w.q1 32 32)) 0 .empty with
    | none => .ok (s, kvFails kvFull)
    | some (t, h, e) => kvDone t 0 h e

/-- An operation on the entry of ARGA. -/
def State.kvOn (s : State) (w : Quad Word) (go : Nat → KvEntry → KvStep) : KvStep :=
  match s.kv.find? (bits w.q0 0 32) with
  | none => .ok (s, kvFails kvNoHandle)
  | some e => go (bits w.q0 0 32) e

/-- QUAR and REBUILD answer BUSY. -/
def KvEntry.busy (e : KvEntry) : Bool := e.phase == .quar || e.phase == .rebuild

/-- Step 6 of SEAL: the next tail. -/
def State.nextTail (s : State) (w : Quad Word) (tail : KvEntry) (h : Nat) : Option State :=
  if w.q1 = 0 then some (s.setTail (kvSlot w) 0)
  else
    (s.openTail (kvSlot w) w.q1 h (tail.pos0 + 64) (tail.len - 64)
      ⟨(tail.tag.items.filter fun x => decide (64 ≤ x.1) && decide (x.1 < tail.len)).map fun x => (x.1 - 64, x.2)⟩).map (·.1)

/-- A full page holds 64 tokens: what its tail carried beyond them is no longer in it. -/
def KvEntry.full (e : KvEntry) (phase : KvPhase) : KvEntry :=
  { e with phase := phase, ref := 1, len := 64, tag := e.tag.filter fun n _ => decide (n < 64) }

/-- SEAL (R435): what the page becomes, then the next tail. -/
def State.kvSeal (s : State) (w : Quad Word) : KvStep :=
  s.kvOn w fun h e =>
    if e.busy then .ok (s, kvFails kvBusy)
    else if e.phase != .tail then .ok (s, kvFails kvBadState)
    else if e.len < 64 then .ok (s, kvFails kvNotFull)
    else if w.q1 ≠ 0 && !s.goodStorage w.q1 then .error (noStorage w.q1)
    else
      let equal := s.kv.items.filter fun x => x.2.phase == .shared && x.2.sameTag e
      let sealed : Option (State × Nat × Nat × KvEntry) :=
        match equal.find? fun x => decide (x.2.ref < 65535) with
        | some (g, x) =>
          let y := { x with ref := x.ref + 1 }
          some ((s.freeEntry h).setEntry g y, 1, g, { y with storage := e.storage })
        | none =>
          if equal.isEmpty then
            ((s.freeEntry h).putEntry (e.key % 12) (e.full .shared)).map fun x => (x.1, 0, x.2, e.full .shared)
          else some (s.setEntry h (e.full .priv), 2, h, e.full .priv)
      match sealed.bind fun x => (x.1.nextTail w e x.2.2.1).map fun t => (t, x.2) with
      | none => .ok (s, kvFails kvFull)
      | some (t, flags, g, y) => kvDone t flags g y

/-- Copies the storage of a page to a spare, byte for byte (R436). -/
def State.copyStorage (s : State) (e : KvEntry) (spare : Word) : Except ElemFault State :=
  let n := storageSize e.storage
  let src := storagePa e.storage
  let dst := storagePa spare
  if !s.installedAll dst n then .error (noStorage spare)
  else
    match (range (src / 64) (n / 64)).find? s.poison.has with
    | some l => .error ⟨causeEccUe, .mem, l * 64, false⟩
    | none =>
      .ok ((range 0 n).foldl
        (fun s i => (s.poke (.mem (dst + i)) (s.hbm.read (src + i))).sealUnder (fun a => s.sealed.getD (a / 64) 0) [(.mem (dst + i), src + i)])
        { s with poison := s.poison.delIf fun l => decide (dst ≤ l * 64) && decide (l * 64 < dst + n) })

/-- A copy of a page as a new entry. -/
def State.forkCopy (s : State) (w : Quad Word) (e : KvEntry) (phase : KvPhase) : KvStep :=
  match s.copyStorage e w.q1 with
  | .error x => .error x
  | .ok t =>
    let y := { e with phase := phase, storage := w.q1, ref := 1, ownseq := kvSlot w }
    match t.putEntry t.bestStack y with
    | none => .ok (s, kvFails kvFull)
    | some (t, h) => .ok (t, ⟨0, 2, some h, some y, storageSize e.storage, false⟩)

/-- FORK (R436). -/
def State.kvFork (s : State) (w : Quad Word) : KvStep :=
  s.kvOn w fun h e =>
    match e.phase with
    | .quar | .rebuild => .ok (s, kvFails kvBusy)
    | .tail => s.forkCopy w e .tail
    | .priv => s.forkCopy w e .priv
    | .shared =>
      if e.ref < 65535 then let y := { e with ref := e.ref + 1 }; kvDone (s.setEntry h y) 0 h y else s.forkCopy w e .priv

/-- RELEASE. -/
def State.kvRelease (s : State) (w : Quad Word) : KvStep :=
  s.kvOn w fun h e =>
    if e.busy then .ok (s, kvFails kvBusy)
    else if e.phase == .shared && 1 < e.ref then let y := { e with ref := e.ref - 1 }; kvDone (s.setEntry h y) 0 h y
    else kvDone (s.freeEntry h) 4 h { e with ref := 0 }

/-- RESOLVE. -/
def State.kvResolve (s : State) (w : Quad Word) : KvStep := s.kvOn w fun h e => kvDone s 0 h e

/-- TRUNC. -/
def State.kvTrunc (s : State) (w : Quad Word) : KvStep :=
  s.kvOn w fun h e =>
    if e.busy then .ok (s, kvFails kvBusy)
    else if e.phase != .tail || e.len < bits w.q1 0 7 then .ok (s, kvFails kvBadState)
    else let y := { e with len := bits w.q1 0 7 }; kvDone (s.setEntry h y) 0 h y

/-- What TAGRD writes. -/
def KvEntry.tagBytes (e : KvEntry) : List Byte :=
  toBytes e.parent 4 ++ toBytes e.pos0.toNat 4 ++ toBytes e.len 4 ++ toBytes 0 4 ++ (range 0 80).flatMap fun n => toBytes (e.slot n).toNat 4

/-- TAGRD. -/
def State.kvTagrd (s : State) (c : Ctx) (w : Quad Word) : KvStep :=
  s.kvOn w fun h e =>
    match s.engineWrite c .dsp w.q1.toNat e.tagBytes with
    | .error x => .error x
    | .ok t => .ok (t, ⟨0, 0, some h, some e, 336, false⟩)

/-- A page has left REBUILD: each of its QUAR children is offered injection in turn (R437). -/
def State.offerChildren (s : State) (h : Nat) : State :=
  (s.kv.items.filter fun e => e.2.parent = h).foldl (fun s e => s.offerRebuild e.1) s

/-- DONE: the page returns to its prior state; its record is of TYPE 2. -/
def State.kvDoneOp (s : State) (w : Quad Word) : KvStep :=
  s.kvOn w fun h e =>
    if e.phase != .rebuild then .ok (s, kvFails kvBadState)
    else
      let y := { e with phase := e.prior, injectAt := none }
      .ok (s.setEntry h y, ⟨0, 0, some h, some y, 0, true⟩)

/-- REBUILD: injects when the parent is ready, and otherwise waits. -/
def State.kvRebuild (s : State) (w : Quad Word) : KvStep :=
  s.kvOn w fun h e =>
    if e.phase != .quar then .ok (s, kvFails kvBadState)
    else let t := s.offerRebuild h; kvDone t 0 h ((t.kv.find? h).getD e)

/-- REGISTER: the ring and rebuild task of the die. -/
def State.kvRegister (s : State) (c : Ctx) (die : Nat) (w : Quad Word) : KvStep :=
  let task := bits w.q1 0 10
  let sem := bits w.q1 16 12
  let semv := bits w.q1 28 1 = 1
  match s.graphOf die c.who.launch with
  | none => .ok (s, kvFails kvBadState)
  | some g =>
    if g.image.ntask ≤ task || !g.image.devonly task || (semv && decide (g.image.semn ≤ sem)) then .ok (s, kvFails kvBadState)
    else
      let r : KvRing := { addr := bits w.q0 0 33, log2 := bits w.q0 36 3, task := task, sem := sem, semv := semv, launch := c.who.launch,
                          ctx := c.key, run := c.who.run, depth := c.who.depth, rseq := 0 }
      .ok ({ s with rings := s.rings.insert die r }, ⟨0, 0, some 0, none, 0, false⟩)

/-- A command of a page-directory port may be applied: it is the oldest of its queue (R432). -/
def State.kvReady (s : State) (id op : Nat) (cmd : Cmd) : Bool :=
  cmd.unit == .kv && kvOp cmd.words == op && !cmd.finished && s.eligible id cmd &&
    s.cmds.items.all fun e => !(e.2.sameQueue cmd && decide (e.1 < id))

/-- The record of an operation, and the die in whose ring it stands (R432, R433): the TYPE 2 record of a rebuilt page, else one of TYPE 0. -/
def KvResult.record (r : KvResult) (cmd : Cmd) (op : Nat) : Nat × RingRecord :=
  match r.rebuilt, r.page with
  | true, some e => (e.die, ⟨2, some r.status, none, r.flags, r.handle, e.ownseq, none, some e⟩)
  | _, _ => (cmd.die, ⟨0, some r.status, some op, r.flags, r.handle, kvSlot cmd.words, none, r.page⟩)

/-- What follows the record of a rebuilt page: the signal, and its children (R433, R437, R440). -/
def State.afterRecord (s : State) (r : KvResult) (die : Nat) : State :=
  match r.rebuilt, r.handle with
  | true, some h => (s.signalRing die).offerChildren h
  | _, _ => s

/-- An operation of the directory, its record, and its end (R432). -/
def State.runKv (s : State) (id op : Nat) (go : Ctx → Cmd → KvStep) : State :=
  match s.cmds.find? id with
  | none => s
  | some cmd =>
    if !s.kvReady id op cmd then s
    else
      match s.ctx? cmd.ctx with
      | none => s
      | some c =>
        let fault := fun (x : ElemFault) => if x.cause = 0 then s else s.cmdFault id x.cause x.sp x.addr x.wr
        match go c cmd with
        | .error x => fault x
        | .ok (t, r) =>
          let (die, x) := r.record cmd op
          match t.append die x with
          | .error x => fault x
          | .ok (t, l) =>
            let t := (l.foldl (fun t e => t.fold cmd.ctx (writeRecords 2 e.1 (e.2.map some))) t).afterRecord r die
            { t with cmds := t.cmds.insert id (cmd.finish (r.bytes + 32 * l.length)) }

/-- KVOP REGISTER. -/
def execKvopRegister (cmd : Nat) (s : State) : Host.Outcome State Fault Refusal :=
  .next (s.runKv cmd 0 fun c x => s.kvRegister c x.die x.words)

/-- KVOP OPEN. -/
def execKvopOpen (cmd : Nat) (s : State) : Host.Outcome State Fault Refusal := .next (s.runKv cmd 1 fun _ x => s.kvOpen x.words)

/-- KVOP SEAL. -/
def execKvopSeal (cmd : Nat) (s : State) : Host.Outcome State Fault Refusal := .next (s.runKv cmd 2 fun _ x => s.kvSeal x.words)

/-- KVOP FORK. -/
def execKvopFork (cmd : Nat) (s : State) : Host.Outcome State Fault Refusal := .next (s.runKv cmd 3 fun _ x => s.kvFork x.words)

/-- KVOP RELEASE. -/
def execKvopRelease (cmd : Nat) (s : State) : Host.Outcome State Fault Refusal := .next (s.runKv cmd 4 fun _ x => s.kvRelease x.words)

/-- KVOP RESOLVE. -/
def execKvopResolve (cmd : Nat) (s : State) : Host.Outcome State Fault Refusal := .next (s.runKv cmd 5 fun _ x => s.kvResolve x.words)

/-- KVOP TRUNC. -/
def execKvopTrunc (cmd : Nat) (s : State) : Host.Outcome State Fault Refusal := .next (s.runKv cmd 6 fun _ x => s.kvTrunc x.words)

/-- KVOP TAGRD. -/
def execKvopTagrd (cmd : Nat) (s : State) : Host.Outcome State Fault Refusal := .next (s.runKv cmd 7 fun c x => s.kvTagrd c x.words)

/-- KVOP DONE. -/
def execKvopDone (cmd : Nat) (s : State) : Host.Outcome State Fault Refusal := .next (s.runKv cmd 8 fun _ x => s.kvDoneOp x.words)

/-- KVOP REBUILD. -/
def execKvopRebuild (cmd : Nat) (s : State) : Host.Outcome State Fault Refusal := .next (s.runKv cmd 9 fun _ x => s.kvRebuild x.words)

end Sys2Proof.Machine
end

