-- ==== Sys2Proof/Machine/Contain.lean ====
section
/-! DEFINITION. Containment: offering causes to the levels above the core, terminating and restarting them (R282, R283, R325, R355 to
R357). -/

namespace Sys2Proof.Machine

/-! ### Ending one context -/

/-- The keys under which the scratchpads of the logical cluster of a context stand, those of displaced regions among them. -/
def State.clusterSeats (s : State) (c : Ctx) : List Nat :=
  (range (c.who.lcore / 8 * 8) 8).map (coreKey c.who.die) ++
    s.ctxs.vals.filterMap fun d =>
      if d.away && d.who.die == c.who.die && d.who.lcore / 8 == c.who.lcore / 8 then some d.seat else none

/-- The sweep (R283): breaks every tagged barrier of the context's cluster that registers its logical core or that it owns. -/
def State.sweep (s : State) (c : Ctx) : State :=
  (s.clusterSeats c).foldl
    (fun s k =>
      (s.core k).tags.elems.foldl
        (fun s g =>
          let x := (s.core k).bar (16 * g)
          if x.reg.testBit (c.who.lcore % 8) || x.owner = c.who.num then s.breakBar k (16 * g) else s) s) s

/-- Every window that a context owns breaks (R325). -/
def State.breakWindows (s : State) (k : Nat) : State :=
  let s := s.cores.items.foldl
    (fun s e =>
      e.2.windows.items.foldl (fun s w => if w.2.owner = k && !w.2.broken then s.breakWin (.scratch e.1 (4 * w.1)) else s) s) s
  s.dies.items.foldl
    (fun s e => e.2.memWindows.items.foldl (fun s w => if w.2.owner = k && !w.2.broken then s.breakWin (winHome w.1) else s) s) s

/-- An access of a killed context: one that has not reached its home is lost, but a buffered store, which others may have read, performs (R299, R325,
log 55). What a window or a barrier at its home has taken stays there. -/
def State.settleOne (s : State) (id : Nat) : State :=
  match s.packet? id with
  | none => s
  | some p =>
    match s.ctx? p.ctx with
    | none => s
    | some c =>
      let t :=
        match p.stage, p.act with
        | .egress, .store _ => let q := { p with stage := .sent }; (s.setPacket id q).applyAccess id q c
        | _, _ => s
      match t.packet? id with
      | none => t
      | some r => if r.stage == .parked && r.act.writes then t else t.dropPacket id

/-- Ends a context by containment: its commands are abandoned, which breaks the other ranks of a collective, the sweep and its windows break what it left, its regions are freed
(R282, R283, R325, R338, R357, R454). One that has ended already leaves what it left. -/
def State.kill (s : State) (k : Nat) : State :=
  match s.ctx? k with
  | none => s
  | some c =>
    if c.status.over then s.removeCtx k else
    let s := (s.cmds.items.filter fun e => e.2.ctx = k).foldl (fun s e => (s.breakRanks e.1 causeBroken).discardCmd e.1) s
    let mine := s.net.items.filter fun e => e.2.ctx = k
    let s := mine.foldl (fun s e => s.settleOne e.1) ((s.endWrites k).loseSight (mine.map (·.2)))
    let s := ((s.sweep c).breakWindows k).removeCtx k
    let wait := s.fab.waiting.bind fun w => if w.1 = k then none else some w
    { s with deskewing := s.deskewing.filter fun e => e.1 ≠ k, fab := { s.fab with waiting := wait } }

/-- Every semaphore of a launch is broken on every die that it names (R350). -/
def State.breakSems (s : State) (g : GraphImage) : State :=
  g.allDies.foldl (fun s d => (range g.sembase g.semn).foldl (fun s n => s.breakSem d n) s) s

/-- The contexts of some runs. -/
def State.ctxsOf (s : State) (runs : List Nat) : List Nat :=
  s.ctxs.items.filterMap fun e => if runs.contains e.2.who.run then some e.1 else none

/-- The runs that contexts have launched and that have not ended. -/
def State.launched (s : State) (ks : List Nat) : List Nat :=
  s.runs.items.filterMap fun e => if (e.2.parent.map ks.contains).getD false && !e.2.isOver then some e.1 else none

/-- Contexts with their descendants, down to a depth, and the runs of these. -/
def State.family (s : State) : Nat → List Nat → List Nat × List Nat
  | 0, ks => (ks, [])
  | n + 1, ks =>
    let runs := s.launched ks
    let (a, b) := s.family n (s.ctxsOf runs)
    (ks ++ a, runs ++ b)

/-- The semaphores of a launch break. -/
def State.breakLaunch (s : State) (launch : Nat) : State :=
  match (s.launches.find? launch).bind fun l => s.graphOf l.die launch with
  | some g => s.breakSems g.image
  | none => s

/-- Terminates contexts and every descendant (R357): all end, and the semaphores of their launches break. -/
def State.terminate (s : State) (ks : List Nat) : State :=
  let (all, runs) := s.family 25 ks
  let s := (((all.filterMap s.ctx?).map fun c => c.who.launch).eraseDups).foldl State.breakLaunch s
  let s := all.foldl State.kill s
  runs.foldl (fun s n => s.modRun n fun r => { r with phase := .cancelled, reaped := true }) s

/-! ### Levels (R356) -/

/-- The levels above the core: their codes in the error log (R394). -/
inductive Level where
  | task | gang | graph | context
  deriving DecidableEq, Repr

def Level.code : Level → Nat
  | .task => 2
  | .gang => 3
  | .graph => 4
  | .context => 5

/-- What a level does with an offer. -/
inductive Verdict2 where
  | ignore | retry | kill
  deriving DecidableEq, Repr

def Verdict2.code : Verdict2 → Nat
  | .ignore => 0
  | .retry => 1
  | .kill => 2

/-- What an offer is about: its context's index, its run and launch with their records, and its graph. -/
structure Subject where
  index : List Nat
  run : Run
  launch : Launch
  image : GraphImage
  host : BitVec 2
  deriving DecidableEq, Repr

/-- The step that an offer's context belongs to. -/
def Subject.step (x : Subject) : List Nat := x.image.stepOf x.run.task x.index

/-- The subject of an offer. -/
def State.subject (s : State) (o : Offer) : Option Subject :=
  match s.runs.find? o.run, s.launches.find? o.launch with
  | some r, some l =>
    (s.imageOf r).map fun g =>
      ⟨((s.ctx? o.ctx).map fun c => c.who.index).getD [], r, l, g, ((s.hostCtxs.find? l.host).map (·.policy)).getD 2⟩
  | _, _ => none

/-- The policy of a level, and whether a retry is left to it. -/
def Subject.policy (x : Subject) : Level → Nat × Bool
  | .task => (x.image.pol x.run.task / 16 % 4, decide (x.run.retries < x.image.retry x.run.task))
  | .gang => (x.image.pol x.run.task / 64, decide (x.run.restarts.count x.step < x.image.retry x.run.task))
  | .graph => (x.image.gpol, decide (x.launch.retries < x.image.gretry))
  | .context => (x.host.toNat, false)

/-- Offer of R357 above the core: the level that absorbs the cause, and what it does. The context level absorbs every cause (R385). -/
def Subject.absorb (x : Subject) (notice : Bool) : List Level → Level × Verdict2
  | [] => (.context, .kill)
  | l :: rest =>
    let (p, left) := x.policy l
    if p = 0 && notice then (l, .ignore)
    else if p = 1 && left then (l, .retry)
    else if p = 1 || p = 2 || l == .context then (l, .kill)
    else x.absorb notice rest

/-! ### Acting -/

/-- The runs of the gang that an offer's context belongs to. -/
def State.gangOf (s : State) (o : Offer) : List Nat :=
  match s.gangs.vals.find? fun g => g.ctxs.contains o.ctx with
  | some g => g.runs
  | none => [o.run]

/-- The contexts that a level holds. -/
def State.members (s : State) (o : Offer) (l : Launch) : Level → List Nat
  | .task => s.ctxsOf [o.run]
  | .gang =>
    match s.gangs.vals.find? fun g => g.ctxs.contains o.ctx with
    | some g => g.ctxs
    | none => s.ctxsOf [o.run]
  | .graph => s.ctxs.items.filterMap fun e => if e.2.who.launch = o.launch then some e.1 else none
  | .context => s.ctxs.items.filterMap fun e => if e.2.who.host = l.host then some e.1 else none

/-- A task starts again from its first instance. -/
def Run.again (r : Run) (now : Nat) : Run :=
  { r with phase := .ready, readyAt := now, lbase := none, started := [], ended := [], twin := 0, digest0 := 0, retries := r.retries + 1 }

/-- One step of a task starts again. -/
def Run.stepAgain (r : Run) (g : GraphImage) (step : List Nat) (now : Nat) : Run :=
  { r with
    readyAt := now
    started := r.started.filter fun y => g.stepOf r.task y ≠ step
    ended := r.ended.filter fun y => g.stepOf r.task y.1 ≠ step
    twin := min r.twin 1
    restarts := r.restarts ++ [step] }

/-- The steps that the contexts of a gang belong to, by run; a task that has completed does not run again. -/
def State.stepsOf (s : State) (ks : List Nat) (x : Subject) : List (Nat × List Nat) :=
  ((ks.filterMap s.ctx?).map fun c => (c.who.run, x.image.stepOf c.who.task c.who.index)).eraseDups.filter fun e =>
    !(((s.runs.find? e.1).map Run.isOver).getD true)

/-- The rebuild tasks that were injected into a launch are terminated with it, and start again for no page by themselves (R434). -/
def State.endInjected (s : State) (launch : Nat) (cause : Cause) : State :=
  (s.runs.items.filter fun e => decide (e.2.launch = launch) && e.2.injected.isSome && !e.2.isOver).foldl
    (fun s e => (s.modRun e.1 fun r => { r with phase := .cancelled }).rebuildFailed e.2 cause) s

/-- The level runs again (R357): every semaphore of the launch is reset first. A gang whose twin runs differ has no context left, and its task
starts again. -/
def State.restart (s : State) (o : Offer) (x : Subject) (steps : List (Nat × List Nat)) : Level → State
  | .task => (s.resetSems x.image).modRun o.run fun r => r.again (s.die r.die).time
  | .gang =>
    if o.ctx = 0 then
      (s.resetSems x.image).modRun o.run fun r =>
        { r.again (s.die r.die).time with retries := r.retries, restarts := r.restarts ++ [x.step] }
    else
    let steps := if steps.isEmpty then [(o.run, x.step)] else steps
    steps.foldl (fun t e => t.modRun e.1 fun r => r.stepAgain x.image e.2 (s.die r.die).time) (s.resetSems x.image)
  | _ =>
    let t := s.resetSems x.image
    let fresh := List.zip x.launch.runs (t.launchRuns o.launch x.image)
    let t := t.endInjected o.launch o.cause
    { fresh.foldl (fun t e => t.modRun e.1 fun _ => e.2) t with
      launches := t.launches.insert o.launch { x.launch with retries := x.launch.retries + 1 } }

/-- A run is terminated: it fails with the cause, and the launch's record names its task, unless an earlier one is named. -/
def State.failRun (s : State) (cause : Cause) (n : Nat) : State :=
  match s.runs.find? n with
  | none => s
  | some r =>
    if r.isOver then s
    else
      let s := (s.modRun n fun r => { r with phase := .failed, cause := cause }).rebuildFailed r cause
      { s with launches := s.launches.modify r.launch fun l =>
          if l.finished || l.status = 2 then l else { l with status := 2, cause := cause, task := BitVec.ofNat 16 r.task } }

/-- Every run of a launch is terminated; the record names the task of the offer. -/
def State.failLaunch (s : State) (cause : Cause) (task key : Nat) : State :=
  let s := { s with launches := s.launches.modify key fun l =>
    if l.finished || l.status = 2 then l else { l with status := 2, cause := cause, task := BitVec.ofNat 16 task } }
  let runs := s.runs.items.filterMap fun e => if e.2.launch = key then some e.1 else none
  (runs.foldl (State.failRun · cause) s).advance key

/-- The runs that a killed level ends, and the launches that move on. -/
def State.killed (s : State) (o : Offer) (x : Subject) (runs : List Nat) : Level → State
  | .task => (s.failRun o.cause o.run).advance o.launch
  | .gang => (runs.foldl (State.failRun · o.cause) s).advance o.launch
  | .graph => s.failLaunch o.cause x.run.task o.launch
  | .context =>
    (s.launches.items.filter fun e => e.2.host = x.launch.host && !e.2.finished).foldl
      (fun s e => s.failLaunch o.cause x.run.task e.1) s

/-- An ignored offer: the context resumes, or goes on ending (R98, R102, R357). -/
def State.resumeStopped (s : State) (k : Nat) : State :=
  match s.ctx? k with
  | none => s
  | some c => if c.ends then (s.finishCtx k c).modCtx k fun c => { c with cause := 0 } else s.setCtx k { c.resume with status := .live }

/-- The level acts (R357). A gang that is killed ends its tasks, whose other contexts end too. -/
def State.act (s : State) (o : Offer) (x : Subject) (l : Level) : Verdict2 → State
  | .ignore => if (s.ctx? o.ctx).isSome then s.resumeStopped o.ctx else s
  | .retry =>
    let ks := s.members o x.launch l
    ((s.terminate ks).restart o x (s.stepsOf ks x) l).advance o.launch
  | .kill =>
    let runs := s.gangOf o
    let ks := if l == .gang then s.ctxsOf runs ++ s.members o x.launch l else s.members o x.launch l
    (s.terminate ks.eraseDups).killed o x runs l

/-- CONTAINMENT_OFFER (R357): the oldest offer is absorbed by a level, and logged. -/
def execContainmentOffer (s : State) : Host.Outcome State Fault Refusal :=
  .next
    (match s.offers with
     | [] => s
     | o :: rest =>
       let s := { s with offers := rest }
       let num := o.ctx % 2 ^ 24
       match s.subject o with
       | none => s
       | some x =>
         if o.ctx ≠ 0 && (s.ctx? o.ctx).isNone then s.report x.run.die kindContain o.cause (containLoc num 2 2)
         else
           let (l, v) := x.absorb o.notice [.task, .gang, .graph, .context]
           (s.act o x l v).report x.run.die kindContain o.cause (containLoc num l.code v.code))

end Sys2Proof.Machine
end

