-- ==== Sys2Proof/Machine/Words.lean ====
section
/-! DEFINITION. The package words of C: mailboxes, deskew and zone latency, the proposal queue, horizons and links (R369, R376, R377, R402
to R412), and the placing of messages. -/

namespace Sys2Proof.Machine

/-! ### What the words share -/

/-- An uninitialised line of the bytes that a word reads, as UMODE has it (R150). -/
def uninitBody (u : Option Word) (go : State → Body) (s : State) : Body :=
  withCtx s fun c =>
    match u with
    | none => go s
    | some w => if c.umode = 0 then s.faultLate c causeUninitRead else go (s.setCtx s.focus.1 (c.recordUninit w))

/-- Steps 1 to 3 of R404: the 64 bytes at a local offset. -/
def Ctx.blockFault (c : Ctx) (a : Word) : Option Cause :=
  if bits a 24 40 ≠ 0 then some causeSpaceFault
  else if bits a 0 6 ≠ 0 then some causeMisalign
  else if !(c.owns a.toNat 64 && populated c.who.die a.toNat) then some causeSpaceFault
  else none

/-- A word about the 64 bytes at a local offset. -/
def blockBody (a : Word) (go : Ctx → Body) (s : State) : Body :=
  withCtx s fun c =>
    match c.blockFault a with
    | some e => s.fault e
    | none => go c

/-- Reads 64 bytes through the network port: an invalid line is UNINIT_READ under UMODE 0, and zeros that are recorded under UMODE 1
(R404). -/
def readBlock (a : Word) (go : List Byte → State → Body) (s : State) : Body :=
  withCtx s fun c =>
    let m := s.core c.core
    if (m.badByte a.toNat 64).isSome then s.faultLate c causeEccUe
    else uninitBody ((m.invalidLine a.toNat 64).map fun l => uninitWord 0 (l * 64)) (go (m.getBytes a.toNat 64)) s

/-- The latency of `prop.pop` and `hzn.rd` (R405, R406). -/
def popLat (f : FmtRR) : Nat := 32 * (1 + f.fn.toNat / 4)

/-- One source and two deliveries on ib. -/
def usesIb1 (f : FmtRR) (lat : Nat) (mem : Bool) : Uses where
  sa := some (aFile .c .ib, f.sa)
  d1 := f.d1
  d2 := f.d2
  lat := lat
  mem := mem

/-- A package word finds the die of its home isolated by a reset (R380). -/
def State.cutOff (s : State) (die : Nat) : Bool := (s.die die).resetting

/-- A word without a landing that finds its home isolated, or is refused there: a deferred fault (R232, R380, log 19). -/
def State.deferNotice (s : State) (k : Nat) (cause : Cause) : State :=
  { s.deferFault k s.serial .store (.landing cause .c (Config.faultAddr s.serial) (finfoOf 2 true)) with serial := s.serial + 1 }

/-! ### Mailboxes (R407 to R410) -/

/-- A sender's identity (R409). -/
def Ctx.identity (c : Ctx) : Word := toWord (c.who.die * 2 ^ 14 + c.who.lcore)

/-- A mailbox of a core. -/
def CoreState.box (m : CoreState) (n : Nat) : List (Word × List Byte) := m.mail.getD n []

/-- The destination of a message as a DSP flat address. -/
def mailDest (b : Word) : Nat := dspAddr (coreKey (bits b 9 2) (bits b 2 7)) 0

/-- `mbx.send` (R408). -/
def execMbxSend (h : Hdr) (f : FmtS2) (s : State) : Host.Outcome State Fault Refusal :=
  word (.mbxSend h f) h { usesIb2 f with mem := true }
    (fun a b _ t =>
      if bits b 11 53 ≠ 0 then t.fault causeIllegalOp
      else
        blockBody a (fun _ =>
          if bits b 9 2 = 3 || Config.ncore (bits b 9 2) ≤ bits b 2 7 then t.fault causeSpaceFault
          else
            readBlock a (fun msg t =>
              t.gateWord (t.releaseGate 3) fun t =>
                .ok (t.send t.focus.1 .c .lsp (mailDest b) (.mail (bits b 0 2) msg) 2 3 none 0 [])) t) t) s

/-- The mailbox that `mbx.recv` waits for, when it is empty (R409). -/
def State.emptyBox (s : State) (code : BitVec 4) : Option (BitVec 4 × Bool) :=
  match s.ctx? s.focus.1 with
  | none => none
  | some c =>
    let b := c.source .c (bFile .c .ib) code
    if bits b 2 62 = 0 && ((s.core c.core).box b.toNat).isEmpty then some (BitVec.ofNat 4 (12 + b.toNat), false) else none

/-- `mbx.recv` (R409). -/
def execMbxRecv (h : Hdr) (f : FmtRR) (s : State) : Host.Outcome State Fault Refusal :=
  word (.mbxRecv h f) h { usesSched f 1 with room := s.emptyBox f.sb, mem := true }
    (fun a b _ t =>
      if bits b 2 62 ≠ 0 then t.fault causeIllegalOp
      else
        blockBody a (fun c =>
          match (t.core c.core).box b.toNat with
          | [] => .wait .qwait (BitVec.ofNat 4 (12 + b.toNat)) false
          | (who, msg) :: rest =>
            let t := t.modCore c.core fun m => { m with mail := m.mail.insert b.toNat rest }
            let t := t.modCtx t.focus.1 fun c => Ctx.touch { c with staged := c.staged ++ [.message t.serial a.toNat msg] } .c c.time
            .ok ({ t with serial := t.serial + 1 }.deliver f.d1 f.d2 who 1)) t) s

/-- `mbx.cnt` (R410). -/
def execMbxCnt (h : Hdr) (f : FmtRR) (s : State) : Host.Outcome State Fault Refusal :=
  word (.mbxCnt h f) h (usesIb1 f 1 false)
    (fun a _ _ t =>
      if bits a 2 62 ≠ 0 then t.fault causeIllegalOp
      else withCtx t fun c => .ok (t.deliver f.d1 f.d2 (toWord ((t.core c.core).box a.toNat).length) 1)) s

/-- MAILBOX_PLACE (R407, R408): a message is placed, waits at the port of its core, or is refused. -/
def execMailboxPlace (req : Nat) (s : State) : Host.Outcome State Fault Refusal :=
  .next
    (match s.packet? req with
     | none => s
     | some p =>
       match s.ctx? p.ctx, p.act with
       | some c, .mail n msg =>
         let die := dspDie p.addr
         let k := coreKey die (dspCore p.addr)
         let earlier := s.net.items.any fun e =>
           decide (e.1 < req) && decide (e.2.ctx = p.ctx) && decide (e.2.addr = p.addr) &&
             (match e.2.act with
              | .mail m _ => m == n
              | _ => false)
         if s.cutOff die then (s.dropPacket req).deferNotice p.ctx causeRemoteAbort
         else if !(s.ctxs.vals.any fun x => decide (x.core = k) && decide (x.who.launch = c.who.launch) && !x.status.over) then
           (s.dropPacket req).deferNotice p.ctx causeSpaceFault
         else if earlier || !s.hasTurn die (dspCore p.addr) || 16 ≤ ((s.core k).box n).length then s
         else (s.dropPacket req).modCore k fun m => { m with mail := m.mail.insert n (m.box n ++ [(c.identity, msg)]) }
       | _, _ => s)

/-! ### Proposals (R402 to R405) -/

/-- A record breaks step 5 of R404: a reserved bit, K, or G with QPTR. -/
def badProposal (r : List Byte) : Bool :=
  let field := fun o n => ofBytes ((r.drop o).take n)
  let k := field 2 1 % 32
  decide (2 ^ 12 ≤ field 0 2) || field 2 1 / 64 != 0 || field 3 1 != 0 || k == 0 || decide (16 < k) ||
    field 8 8 / 2 ^ 33 % 2 ^ 15 != 0 || field 8 8 % 2 ^ 10 != 0 || field 52 12 != 0 || decide (2 ^ (18 * k) ≤ field 16 36) ||
    (field 2 1 / 32 % 2 == 1 && field 8 8 % 2 ^ 33 != 0)

/-- `prop.push` (R404). -/
def execPropPush (h : Hdr) (f : FmtS2) (s : State) : Host.Outcome State Fault Refusal :=
  word (.propPush h f) h
    { sa := some (aFile .c .ib, f.sa), room := if 4096 ≤ s.pq.length then some (3, true) else none, mem := true }
    (fun a _ _ t =>
      blockBody a (fun _ =>
        readBlock a (fun r t =>
          if badProposal r then .late id (.issue causeIllegalOp t.focus.2)
          else
            t.gateWord (t.releaseGate 3) fun t =>
              .ok (if t.cutOff 1 then t.deferNotice t.focus.1 causeRemoteAbort else { t with pq := t.pq ++ [r] })) t) t) s

/-- `prop.pop` (R405). -/
def execPropPop (h : Hdr) (f : FmtRR) (s : State) : Host.Outcome State Fault Refusal :=
  word (.propPop h f) h { usesIb1 f (popLat f) true with dieIllegal := s.dieOf != 1 }
    (fun a _ _ t =>
      blockBody a (fun _ =>
        landingBody t fun _ =>
          match t.pq with
          | [] => .ok (t.landWord f.d1 f.d2 0xFFFFFFFFFFFFFFFF 0xFFFFFFFFFFFFFFFF (popLat f) id)
          | r :: rest =>
            let v := toWord (ofBytes (r.take 8))
            .ok ({ t with pq := rest }.landWord f.d1 f.d2 v v (popLat f) fun l => { l with put := some (a.toNat, r) })) t) s

/-! ### Horizons (R406) -/

/-- A write of SEQ_HORIZON[n]: VER rises by one (R398, R399). -/
def State.writeHorizon (s : State) (n h : Nat) : State :=
  let x := s.seq n
  s.setSeq n { x with horizon := toWord (h % 2 ^ 32 + (bits x.horizon 32 16 + 1) % 2 ^ 16 * 2 ^ 32) }

/-- The home of a word of a sequence slot: DD for the horizon, VD0 for SEQT. -/
def seqHome (target : Nat) : Nat := if target = 0 then 0 else 1

/-- `hzn.rd` (R406). -/
def execHznRd (h : Hdr) (f : FmtRR) (s : State) : Host.Outcome State Fault Refusal :=
  word (.hznRd h f) h (usesIb1 f (popLat f) false)
    (fun a _ _ t =>
      if bits a 12 52 ≠ 0 then t.fault causeIllegalOp
      else
        landingBody t fun _ =>
          let target := f.fn.toNat % 4
          let x := t.seq a.toNat
          let v := if target = 0 then x.horizon else x.seqt
          .ok (t.landWord f.d1 f.d2 v v (popLat f) fun l =>
            if t.cutOff (seqHome target) then l.take (unplaced causeRemoteAbort t.serial) else l)) s

/-- `hzn.wr` (R406). -/
def execHznWr (h : Hdr) (f : FmtS2) (s : State) : Host.Outcome State Fault Refusal :=
  word (.hznWr h f) h (usesIb2 f)
    (fun a b _ t =>
      let target := bits a 12 1
      let bad := if target = 0 then bits b 32 32 != 0 else bits b 21 11 != 0 || bits b 16 5 == 0 || decide (16 < bits b 16 5)
      if bits a 13 51 ≠ 0 || bad then t.fault causeIllegalOp
      else
        t.gateWord (t.releaseGate 3) fun t =>
          let n := bits a 0 12
          .ok (if t.cutOff (seqHome target) then t.deferNotice t.focus.1 causeRemoteAbort
            else if target = 0 then t.writeHorizon n b.toNat
            else t.setSeq n { t.seq n with seqt := b })) s

/-! ### Deskew and zone latency (R369, R411, R412) -/

/-- `deskew` (R411): the core is held until the epoch that serves the request has ended. -/
def execDeskew (h : Hdr) (f : FmtRI) (s : State) : Host.Outcome State Fault Refusal :=
  word (.deskew h f) h { d1 := f.d1, d2 := f.d2 }
    (fun _ _ _ t =>
      let id := t.serial
      let t := t.addLanding (fun l => { l with d1 := f.d1, d2 := f.d2, missing := 1 }) 1
      .ok ({ t with deskewing := t.deskewing ++ [(t.focus.1, id)] }.addHold .deskew)) s

/-- The die time that a die takes at an epoch (R369): the greatest of its own and those that the other dies sent, to which ZONE_LAT adds what its own
counter has advanced while they were under way. A die that resets takes no part. -/
def State.epochTime (s : State) (k : Nat) : Nat :=
  if (s.die k).resetting then (s.die k).time
  else (range 0 3).foldl (fun m j => if (s.die j).resetting then m else max m (s.die j).time) (s.die k).time

/-- The table differs from the copy of the last epoch, or a die has reset since. -/
def State.drifted (s : State) : Bool :=
  s.resetSince || (range 0 3).any fun a => (range 0 3).any fun b => s.zone.getD (a * 4 + b) 0 != s.zoneCopy.getD (a * 4 + b) 0

/-- A request of `deskew` is served: the cycles by which its die has moved, and ZONE_DRIFT. -/
def State.serveDeskew (s : State) (old : Nat → Nat) (drift : Bool) (e : Nat × Nat) : State :=
  let die := e.1 / 2 ^ 24
  let v := toWord ((s.die die).time - old die)
  let s := s.answer e.1 e.2 fun l => l.arrive v v
  if drift then s.modCtx e.1 fun c => c.offerAsync (.issue causeZoneDrift .c) else s

/-- DESKEW_EPOCH (R369): the counters move forward together, the requests that reached the MP are served, and the table is captured. -/
def execDeskewEpoch (s : State) : Host.Outcome State Fault Refusal :=
  .next
    (if s.deskewing.isEmpty then s
     else
       let t := (range 0 3).foldl (fun t k => t.modDie k fun d => { d with time := s.epochTime k }) s
       let u := s.deskewing.foldl (fun t e => t.serveDeskew (fun k => (s.die k).time) s.drifted e) t
       { u with deskewing := [], zoneCopy := u.zone, resetSince := false })

/-- `zlat` (R412). -/
def execZlat (h : Hdr) (f : FmtRR) (s : State) : Host.Outcome State Fault Refusal :=
  word (.zlat h f) h (usesIb1 f 1 false)
    (fun a _ _ t =>
      if bits a 5 59 ≠ 0 || bits a 0 2 = 3 || bits a 2 2 = 3 then t.fault causeIllegalOp
      else
        let src := bits a 0 2
        let dst := bits a 2 2
        let v := if src = dst then 0 else if bits a 4 1 = 0 then t.zoneLat src dst else t.zoneCopy.getD (src * 4 + dst) 0
        .ok (t.deliver f.d1 f.d2 (v.setWidth 64) 1)) s

/-! ### Links (R376, R377) -/

/-- The lane state of a module in one direction. -/
def laneAt (m : FMap LaneState) (n : Nat) : LaneState := m.getD n ⟨0, 4, 0⟩

/-- A module of a link is live. -/
def Link.moduleLive (l : Link) (n : Nat) : Bool := (laneAt l.up n).state != 2 && (laneAt l.dn n).state != 2

/-- The live modules of a link. -/
def State.liveModules (s : State) (l : Nat) : List Nat := (range 0 (Config.linkModules l)).filter (s.link l).moduleLive

/-- A word of `lnk.st`. -/
def State.linkWord (s : State) (l fn n : Nat) : Word :=
  let x := s.link l
  match fn with
  | 0 =>
    toWord (x.rate + x.cap.toNat * 2 ^ 3 + (if x.down then 2 ^ 9 else 0) + (if x.train then 2 ^ 10 else 0) +
      (s.liveModules l).length * 2 ^ 11 + x.owner.toNat * 2 ^ 16)
  | 1 =>
    let u := laneAt x.up n
    let d := laneAt x.dn n
    toWord (u.state + d.state * 2 ^ 2 + u.spares * 2 ^ 4 + d.spares * 2 ^ 8 + u.retired % 256 * 2 ^ 16 + d.retired % 256 * 2 ^ 24)
  | _ => x.replay

/-- `lnk.st` (R376). -/
def execLnkSt (h : Hdr) (f : FmtRR) (s : State) : Host.Outcome State Fault Refusal :=
  word (.lnkSt h f) h (usesIb1 f 1 false)
    (fun a _ _ t =>
      let l := bits a 0 2
      let n := bits a 4 4
      if l = 3 || bits a 2 2 ≠ 0 || bits a 8 56 ≠ 0 || (f.fn ≠ 1 && n ≠ 0) || Config.linkModules l ≤ n then t.fault causeIllegalOp
      else .ok (t.deliver f.d1 f.d2 (t.linkWord l f.fn.toNat n) 1)) s

/-- `lnk.rate` (R377): a retrain under way ends first; then the core is held until its own has ended. -/
def execLnkRate (h : Hdr) (f : FmtS2) (s : State) : Host.Outcome State Fault Refusal :=
  word (.lnkRate h f) h { usesIb2 f with priv := true }
    (fun a b _ t =>
      let l := bits a 0 2
      if l = 3 || bits a 2 62 ≠ 0 || bits b 3 61 ≠ 0 || 4 < b.toNat then t.fault causeIllegalOp
      else if !(t.link l).want.isEmpty then .gated id
      else if (t.link l).down then .ok t
      else .ok ((t.askRetrain l ⟨some b.toNat, false, true⟩).addHold (.link l))) s

end Sys2Proof.Machine
end

