-- ==== Sys2Proof/Machine/Lauter.lean ====
section
/-! DEFINITION. The Lauter unit: LAUTER commands, their arithmetic and their commit (R413 to R429). -/

namespace Sys2Proof.Machine

/-! ### The command and its descriptor (R413, R414) -/

/-- A LAUTER command that the push refuses (R413). -/
def badLauter (w : Quad Word) : Bool :=
  badFlags w || kindOf w != 8 || issueTime w != 0 || bits w.q0 0 7 != 0 || bits w.q0 33 31 != 0 || bits w.q1 0 6 != 0 ||
    bits w.q1 33 31 != 0 || bits w.q2 12 7 != 0

/-- SLOT of a command. -/
def lauterSlot (w : Quad Word) : Nat := bits w.q2 0 12

/-- The `n` bytes of a descriptor from byte `o`, as a number. -/
def descField (d : List Byte) (o n : Nat) : Nat := ofBytes ((d.drop o).take n)

/-- The fields of REC (R402). -/
def recSlot (d : List Byte) : Nat := descField d 0 2 % 2 ^ 12
def recK (d : List Byte) : Nat := descField d 2 1 % 32
def recGreedy (d : List Byte) : Bool := descField d 2 1 / 32 % 2 = 1
def recBase (d : List Byte) : Nat := descField d 4 4
def recQptr (d : List Byte) : Nat := descField d 8 8 % 2 ^ 33
def recVer (d : List Byte) : Nat := descField d 8 8 / 2 ^ 48
def recTok (d : List Byte) (i : Nat) : Nat := descField d 16 36 / 2 ^ (18 * i) % 2 ^ 18

/-- The other fields. -/
def descV0 (d : List Byte) : Nat := descField d 80 4
def descV (d : List Byte) : Nat := descField d 84 4
def descStride (d : List Byte) : Nat := descField d 88 4
def descAbstain (d : List Byte) : Bool := descField d 92 1 % 2 = 1
def descUfix (d : List Byte) : Bool := descField d 92 1 / 2 % 2 = 1
def descSeed (d : List Byte) : Word := toWord (descField d 96 8)
def descMask (d : List Byte) : Nat := descField d 104 8
def descUptr (d : List Byte) : Nat := descField d 112 8

/-- The space and address value of a field of LOG0's form. -/
def fieldAddr (x : Nat) : Space × Nat := (if x / 2 ^ 61 = 2 then .dsp else .mem, x % 2 ^ 61)

/-- A space code other than 2 and 3. -/
def badSpaceCode (x : Nat) : Bool := x / 2 ^ 61 != 2 && x / 2 ^ 61 != 3

/-- What the descriptor alone breaks of R415. -/
def badDesc (d : List Byte) (slot : Nat) : Bool :=
  let v0 := descV0 d
  let v := descV d
  badProposal (d.take 64) || recSlot d != slot || badSpaceCode (descField d 64 8) || badSpaceCode (descField d 72 8) ||
    v0 == 0 || decide (v ≤ v0) || decide (v < 2) || decide (2 ^ 18 < v) || descStride d % 64 != 0 ||
    decide (descStride d < 4 * max v0 (v - v0)) || decide (4 ≤ descField d 92 1) || descField d 93 3 != 0 ||
    (descMask d != 0 && badSpaceCode (descMask d)) ||
    (if descUfix d then badSpaceCode (descUptr d) else descUptr d != 0) || descField d 120 8 != 0 ||
    (range 0 (recK d)).any fun i => decide (v ≤ recTok d i)

/-! ### What the unit reads (R402, R414 to R416) -/

/-- Reads of a command: a fault, or the state after them with what they gave. -/
abbrev Reads (α : Type) := Except ElemFault (State × α)

/-- The q list at an address: none where a reserved bit is set or M is above 64. -/
def State.readQ (s : State) (c : Ctx) (a : Nat) : Reads (Option (List (Nat × Nat))) :=
  match s.engineRead c .dsp a 8 with
  | .error x => .error x
  | .ok (s, h) =>
    let m := ofBytes h
    if 64 < m then .ok (s, none)
    else
      match s.engineRead c .dsp (a + 8) (8 * m) with
      | .error x => .error x
      | .ok (s, b) =>
        let l := (range 0 m).map fun e => descField b (8 * e) 8
        .ok (s, if l.any fun x => x / 2 ^ 18 % 2 ^ 14 ≠ 0 then none else some (l.map fun x => (x % 2 ^ 18, x / 2 ^ 32)))

/-- The q lists of positions 0 to K − 1. -/
def State.readQs (s : State) (c : Ctx) (q : Nat) : List Nat → Reads (Option (List (List (Nat × Nat))))
  | [] => .ok (s, some [])
  | i :: l =>
    match s.readQ c (q + 1024 * i) with
    | .error x => .error x
    | .ok (s, none) => .ok (s, none)
    | .ok (s, some a) =>
      match s.readQs c q l with
      | .error x => .error x
      | .ok (s, r) => .ok (s, r.map (a :: ·))

/-- A number that is finite and not negative. -/
def goodProb (x : Nat) : Bool :=
  match fp32.decode x with
  | .fin neg n _ => !neg || n == 0
  | _ => false

/-- No token of a list stands twice. -/
def distinctToks : List (Nat × Nat) → Bool
  | [] => true
  | a :: l => (l.all fun b => a.1 != b.1) && distinctToks l

/-- A q list that R415 refuses. -/
def badQ (v : Nat) (l : List (Nat × Nat)) : Bool :=
  !distinctToks l || l.any fun e => decide (v ≤ e.1) || !goodProb e.2

/-- SEQT names a tail whose tag has no room for K + 1 tokens (R415). -/
def State.tailFull (s : State) (slot base k : Nat) : Bool :=
  match s.kv.find? (s.seq slot).tail with
  | none => false
  | some e => (s.seq slot).tail != 0 && decide (e.pos0.toNat + 80 ≤ base + k)

/-- What a command works on once R415 has passed: its descriptor, its q lists, and the uniforms of UFIX. -/
structure Pick where
  desc : List Byte
  qs : List (List (Nat × Nat))
  us : List Nat
  deriving DecidableEq, Repr

/-- The uniforms of UFIX: none where one has a bit in [31:24]. -/
def State.readUniforms (s : State) (c : Ctx) (d : List Byte) : Reads (Option (List Nat)) :=
  if !descUfix d then .ok (s, some [])
  else
    let n := 3 * (recK d + 1)
    match s.engineRead c (fieldAddr (descUptr d)).1 (fieldAddr (descUptr d)).2 (4 * n) with
    | .error x => .error x
    | .ok (s, b) =>
      let l := (range 0 n).map fun i => descField b (4 * i) 4
      .ok (s, if l.any fun u => decide (2 ^ 24 ≤ u) then none else some l)

/-- Reads the descriptor and checks it: none for BADDESC (R415). -/
def State.readPick (s : State) (c : Ctx) (w : Quad Word) : Reads (Option Pick) :=
  match s.engineRead c .dsp w.q0.toNat 128 with
  | .error x => .error x
  | .ok (s, d) =>
    if badDesc d (lauterSlot w) || s.tailFull (lauterSlot w) (recBase d) (recK d) then .ok (s, none)
    else
      match s.readQs c (recQptr d) (if recGreedy d then [] else range 0 (recK d)) with
      | .error x => .error x
      | .ok (s, none) => .ok (s, none)
      | .ok (s, some qs) =>
        if qs.any (badQ (descV d)) then .ok (s, none)
        else
          match s.readUniforms c d with
          | .error x => .error x
          | .ok (s, us) => .ok (s, us.map fun us => ⟨d, qs, us⟩)

/-- Whether the mask of a descriptor has arrived (R416). -/
def State.maskArrived (s : State) (c : Ctx) (d : List Byte) : Reads Bool :=
  if descMask d = 0 then .ok (s, true)
  else
    match s.engineRead c (fieldAddr (descMask d)).1 (fieldAddr (descMask d)).2 8 with
    | .error x => .error x
    | .ok (s, b) => .ok (s, descField b 0 4 == recBase d)

/-- The words in which a parked command keeps a pick, its next poll first. -/
def Pick.pack (p : Pick) (poll : Nat) : List Word :=
  [toWord poll] ++ ((range 0 16).map fun i => toWord (descField p.desc (8 * i) 8)) ++ p.us.map toWord ++
    p.qs.flatMap fun l => toWord l.length :: l.map fun e => toWord (e.1 + e.2 * 2 ^ 32)

/-- Lists of counted words. -/
def unpackQs : Nat → List Word → List (List (Nat × Nat))
  | 0, _ => []
  | _ + 1, [] => []
  | n + 1, m :: l => ((l.take m.toNat).map fun x => (bits x 0 32, bits x 32 32)) :: unpackQs n (l.drop m.toNat)

/-- The pick a parked command keeps. -/
def unpackPick (l : List Word) : Pick :=
  let d := ((l.drop 1).take 16).flatMap fun w => toBytes w.toNat 8
  let n := if descUfix d then 3 * (recK d + 1) else 0
  ⟨d, unpackQs 16 (l.drop (17 + n)), ((l.drop 17).take n).map (·.toNat)⟩

/-! ### Philox (R421) -/

/-- A round of Philox4x32. -/
def philoxRound (x : Quad (BitVec 32)) (k0 k1 : BitVec 32) : Quad (BitVec 32) :=
  let p0 := toWord (0xD2511F53 * x.q0.toNat)
  let p1 := toWord (0xCD9E8D57 * x.q2.toNat)
  ⟨BitVec.ofNat 32 (bits p1 32 32) ^^^ x.q1 ^^^ k0, BitVec.ofNat 32 (bits p1 0 32),
   BitVec.ofNat 32 (bits p0 32 32) ^^^ x.q3 ^^^ k1, BitVec.ofNat 32 (bits p0 0 32)⟩

/-- `n` rounds. -/
def philoxRounds : Nat → Quad (BitVec 32) → BitVec 32 → BitVec 32 → Quad (BitVec 32)
  | 0, x, _, _ => x
  | n + 1, x, k0, k1 => philoxRounds n (philoxRound x k0 k1) (k0 + 0x9E3779B9) (k1 + 0xBB67AE85)

/-- Philox4x32-10. -/
def philox (seed : Word) (c0 c1 : BitVec 32) : BitVec 32 :=
  (philoxRounds 10 ⟨c0, c1, 0, 0⟩ (BitVec.ofNat 32 (bits seed 0 32)) (BitVec.ofNat 32 (bits seed 32 32))).q0

/-- U of row `i` and a stream (R414, R421). -/
def Pick.uniform (p : Pick) (i stream : Nat) : Nat :=
  if descUfix p.desc then p.us.getD (3 * i + stream) 0
  else (philox (descSeed p.desc) (BitVec.ofNat 32 (recBase p.desc + i)) (BitVec.ofNat 32 stream)).toNat / 256

/-! ### Rows and their statistics (R419, R420) -/

/-- The logits of a row under the mask: -∞ where the mask does not allow a token. -/
def maskRow (mask : List Byte) : Nat → List FVal → List FVal
  | _, [] => []
  | j, x :: l => (if (mask.getD (j / 8) 0).toNat / 2 ^ (j % 8) % 2 = 1 then x else .inf true) :: maskRow mask (j + 1) l

/-- The FP32 values of bytes. -/
def fp32s (n : Nat) (b : List Byte) : List FVal := (pieces 4 n b).map fun x => fp32.decode (ofBytes x)

/-- Reads the logits of each row. -/
def State.readRows (s : State) (c : Ctx) (d : List Byte) : List Nat → Reads (List (List FVal))
  | [] => .ok (s, [])
  | i :: l =>
    let (p0, a0) := fieldAddr (descField d 64 8)
    let (p1, a1) := fieldAddr (descField d 72 8)
    let v0 := descV0 d
    let v1 := descV d - v0
    match s.engineRead c p0 (a0 + i * descStride d) (4 * v0) with
    | .error x => .error x
    | .ok (s, b0) =>
      match s.engineRead c p1 (a1 + i * descStride d) (4 * v1) with
      | .error x => .error x
      | .ok (s, b1) =>
        match s.readRows c d l with
        | .error x => .error x
        | .ok (s, r) => .ok (s, (fp32s v0 b0 ++ fp32s v1 b1) :: r)

/-- The rows 0 to K of l' (R419). -/
def State.maskedRows (s : State) (c : Ctx) (d : List Byte) : Reads (List (List FVal)) :=
  match s.readRows c d (range 0 (recK d + 1)) with
  | .error x => .error x
  | .ok (s, rows) =>
    if descMask d = 0 then .ok (s, rows)
    else
      match s.engineRead c (fieldAddr (descMask d)).1 ((fieldAddr (descMask d)).2 + 8) ((descV d + 7) / 8) with
      | .error x => .error x
      | .ok (s, m) => .ok (s, rows.map (maskRow m 0))

/-- RoundNE of a sum, product or difference to FP32, as a value. -/
def add32 (a b : FVal) : FVal := (a.add .rne b).to32
def sub32 (a b : FVal) : FVal := add32 a b.neg
def mul32 (a b : FVal) : FVal := (a.mul b).to32

/-- `vexp` at FP32 under round to nearest, as a value (R134). -/
def exp32 (v : FVal) : FVal := fp32.decode (expVal fp32 .rne v)

/-- The positive zero and the negative infinity. -/
def zeroF : FVal := .fin false 0 0
def minusInf : FVal := .inf true

/-- The least power of two that is at least `n`. -/
def powerTwo (n : Nat) : Nat := (range 0 19).foldl (fun p _ => if p < n then 2 * p else p) 1

/-- The pairwise tree over values padded with +0. -/
def treeSum (l : List FVal) : FVal :=
  ((range 0 18).foldl (fun l _ => treeLevel add32 l) (l ++ List.replicate (powerTwo l.length - l.length) zeroF)).headD zeroF

/-- ShardStats. -/
def shardStats (l : List FVal) : FVal × FVal :=
  let m := l.foldl FVal.max minusInf
  if m = minusInf then (minusInf, zeroF) else (m, treeSum (l.map fun x => exp32 (sub32 x m)))

/-- RowStats: Z and n. -/
def rowStats (v0 : Nat) (row : List FVal) : FVal × List FVal :=
  let (m0, z0) := shardStats (row.take v0)
  let (m1, z1) := shardStats (row.drop v0)
  let m := m0.max m1
  let t0 := mul32 z0 (exp32 (sub32 m0 m))
  let t1 := mul32 z1 (exp32 (sub32 m1 m))
  (add32 t0 t1, row.map fun x => exp32 (sub32 x m))

/-! ### Tests and draws (R422 to R424) -/

/-- A number of the comparisons: an integer. -/
def natF (n : Nat) : FVal := .fin false n 0

/-- q(x) of a position. -/
def Pick.prob (p : Pick) (i x : Nat) : FVal :=
  if recGreedy p.desc then natF 1
  else match (p.qs.getD i []).find? fun e => decide (e.1 = x) with
    | none => zeroF
    | some e => fp32.decode e.2

/-- Z and n of a row. -/
def Pick.row (p : Pick) (rows : List (List FVal)) (i : Nat) : FVal × List FVal := rowStats (descV0 p.desc) (rows.getD i [])

/-- Position `i` is accepted. -/
def Pick.accepts (p : Pick) (rows : List (List FVal)) (i : Nat) : Bool :=
  let x := recTok p.desc i
  let (z, n) := p.row rows i
  (((natF (p.uniform i 0)).mul (p.prob i x)).mul z).less ((n.getD x zeroF).mul (natF (2 ^ 24)))

/-- A proposed token whose q is zero. -/
def Pick.isQz (p : Pick) (i : Nat) : Bool := (p.prob i (recTok p.desc i)).sameNumber zeroF

/-- The tests of positions `i`, `i` + 1, … of `n`: how many are accepted, whether one was rejected, and QZ. -/
def Pick.tests (p : Pick) (rows : List (List FVal)) : Nat → Nat → Nat × Bool × Nat
  | 0, _ => (0, false, 0)
  | n + 1, i =>
    let z := if p.isQz i then 1 else 0
    if p.accepts rows i then
      let (a, r, q) := p.tests rows n (i + 1)
      (a + 1, r, q + z)
    else (0, true, z)

/-- Running sums, each rounded to FP32. -/
def running : FVal → List FVal → List FVal
  | _, [] => []
  | t, x :: l => let t := add32 t x; t :: running t l

/-- The least j whose weight is positive and whose running sum reaches u × total. -/
def scan (w : List FVal) (u : Nat) : Nat :=
  let sums := running zeroF w
  let total := (natF u).mul (sums.getLastD zeroF)
  ((w.zip sums).findIdx? fun e => zeroF.less e.1 && !(e.2.mul (natF (2 ^ 24))).less total).getD 0

/-- The residual weights of a rejected position. -/
def Pick.residual (p : Pick) (i : Nat) (z : FVal) (n : List FVal) : List FVal :=
  n.mapIdx fun j x =>
    if recGreedy p.desc then (if j = recTok p.desc i then zeroF else x)
    else zeroF.max (fused32 (p.prob i j).neg z x)

/-- What a pick comes to: a, the rejected position, the token, QZ, and FLAGS. -/
structure Drawn where
  a : Nat
  rejected : Bool
  token : Nat
  qz : Nat
  flags : Nat
  deriving DecidableEq, Repr

/-- R422 to R424. -/
def Pick.draw (p : Pick) (rows : List (List FVal)) : Drawn :=
  let (a, rejected, qz) := p.tests rows (recK p.desc) 0
  let (z, n) := p.row rows a
  if rejected then
    let r := p.residual a z n
    if zeroF.less ((running zeroF r).getLastD zeroF) then ⟨a, true, scan r (p.uniform a 1), qz, 5⟩
    else ⟨a, true, scan n (p.uniform a 1), qz, 9⟩
  else ⟨a, false, scan n (p.uniform a 2), qz, 3⟩

/-! ### The commit and the result record (R425 to R427, R429) -/

/-- The depth table a command uses: the one captured at the upload of a DET graph (R429). -/
def State.depths (s : State) (cmd : Cmd) : Word :=
  match (s.ctx? cmd.ctx).bind fun c => s.graphOf c.who.die c.who.launch with
  | none => s.depthTab
  | some g => if g.image.det then g.depthTab else s.depthTab

/-- Whether the pushing context's graph is deterministic. -/
def State.detCmd (s : State) (cmd : Cmd) : Bool :=
  match (s.ctx? cmd.ctx).bind fun c => s.graphOf c.who.die c.who.launch with
  | none => false
  | some g => g.image.det

/-- ACNT after a commit (R426). -/
def nextAcnt (acnt a k : Nat) : Nat :=
  let r : Int := min 0xFFFF (a * 2 ^ 16 / k)
  ((acnt : Int) + (r - acnt) / 8).toNat

/-- The result record of a slot. -/
def State.resultRecord (s : State) (slot status acc flags token qz rej : Nat) : List Byte :=
  let x := s.seq slot
  [status, acc, bits x.seqt 16 5, flags].map (BitVec.ofNat 8) ++ toBytes token 4 ++ toBytes (bits x.horizon 0 32) 4 ++
    toBytes (bits x.seqt 0 16) 2 ++ toBytes (bits x.horizon 32 16) 2 ++ [qz, rej].map (BitVec.ofNat 8) ++ List.replicate 46 0

/-- The tail takes the accepted and the emitted tokens, unless it is no tail or stands elsewhere; `some s` where no tail is held. -/
def State.extendTail (s : State) (slot : Nat) (p : Pick) (x : Drawn) : Option State :=
  let t := (s.seq slot).tail
  if t = 0 then some s
  else
    match s.kv.find? t with
    | none => none
    | some e =>
      if e.phase != .tail || e.pos0.toNat + e.len ≠ recBase p.desc then none
      else
        let toks := (range 0 x.a).map (recTok p.desc) ++ [x.token]
        let tag := (toks.zipIdx e.len).foldl (fun (m : FMap (BitVec 32)) (y : Nat × Nat) => m.insert y.2 (BitVec.ofNat 32 y.1)) e.tag
        some (s.setEntry t { e with tag := tag, len := e.len + x.a + 1 })

/-- The commit: the state and its status with the record (R425). -/
def State.commitPick (s : State) (cmd : Cmd) (p : Pick) (x : Drawn) : State × List Byte :=
  let slot := lauterSlot cmd.words
  let rej := if x.rejected then x.a else 0xFF
  let stale := (s, s.resultRecord slot 2 0 0 0 x.qz rej)
  let h := (s.seq slot).horizon
  match s.extendTail slot p x with
  | none => stale
  | some t =>
    if bits h 0 32 ≠ recBase p.desc || bits h 32 16 ≠ recVer p.desc then stale
    else
      let t := t.writeHorizon slot (recBase p.desc + x.a + 1)
      let y := t.seq slot
      let acnt := nextAcnt (bits y.seqt 0 16) x.a (recK p.desc)
      let nextk := bits (s.depths cmd) (4 * (acnt / 4096)) 4 + 1
      let t := t.setSeq slot { y with seqt := setBits (setBits y.seqt 0 16 acnt) 16 5 nextk }
      let t := { t with qzero := if t.qzero.toNat + x.qz < 2 ^ 64 then t.qzero + toWord x.qz else toWord (2 ^ 64 - 1) }
      (t, t.resultRecord slot 0 x.a x.flags x.token x.qz rej)

/-- A command ends with a record that commits nothing. -/
def State.emptyRecord (s : State) (cmd : Cmd) (status : Nat) : List Byte := s.resultRecord (lauterSlot cmd.words) status 0 0 0 0 0xFF

/-- The record is written, and the command has done its work (R425). -/
def State.endLauter (c : Ctx) (id : Nat) (cmd : Cmd) (r : State × List Byte) : Except ElemFault State :=
  match r.1.engineWrite c .dsp cmd.words.q1.toNat r.2 with
  | .error x => .error x
  | .ok t => .ok { t with cmds := t.cmds.insert id ({ cmd with note := 0, notes := [] }.finish 64) }

/-- A pick whose mask has arrived: R419 to R425. -/
def State.runPick (s : State) (c : Ctx) (id : Nat) (cmd : Cmd) (p : Pick) : Except ElemFault State :=
  match s.maskedRows c p.desc with
  | .error x => .error x
  | .ok (s, rows) =>
    if rows.any fun r => r.any fun x => x == .nan || x == .inf false then State.endLauter c id cmd (s, s.emptyRecord cmd 3)
    else if rows.any fun r => r.all fun x => x == minusInf then State.endLauter c id cmd (s, s.emptyRecord cmd 4)
    else State.endLauter c id cmd (s.commitPick cmd p (p.draw rows))

/-! ### Starting, parking and forwarding (R416 to R418) -/

/-- A command of a Lauter unit that is parked. -/
def Cmd.parked (c : Cmd) : Bool := c.running && c.note == 1

/-- The commands of VD0's queue. -/
def State.lauterQueue (s : State) : List (Nat × Cmd) := s.cmds.items.filter fun e => e.2.unit == .lauter && decide (e.2.die = 1)

/-- How many commands run: a parked one, or one whose mask has just arrived, does not. -/
def State.lauterRunning (s : State) : Nat := (s.lauterQueue.filter fun e => e.2.running && e.2.note == 0).length

/-- An earlier command of the queue has the same SLOT. -/
def State.slotHeld (s : State) (id : Nat) (c : Cmd) : Bool :=
  s.lauterQueue.any fun e => decide (e.1 < id) && decide (lauterSlot e.2.words = lauterSlot c.words)

/-- The command may start (R416, R417). -/
def State.lauterStarts (s : State) (id : Nat) (c : Cmd) : Bool :=
  c.unit == .lauter && decide (c.die = 1) && !c.running && decide (c.visible ≤ (s.die 1).time) &&
    (match s.ctx? c.ctx with
     | none => true
     | some x => c.behind.all (s.gateMet c.ctx x)) &&
    !s.slotHeld id c &&
    (s.lauterQueue.all fun e => decide (id ≤ e.1) || e.2.running || s.slotHeld e.1 e.2) &&
    decide ((s.lauterQueue.filter fun e => e.2.parked).length < 16) &&
    decide (s.lauterRunning < 8)

/-- The start of a command: its descriptor, its mask, and its work, or its parking (R415, R416). -/
def State.startLauter (s : State) (c : Ctx) (id : Nat) (cmd : Cmd) : Except ElemFault State :=
  match s.readPick c cmd.words with
  | .error x => .error x
  | .ok (s, none) => State.endLauter c id cmd (s, s.emptyRecord cmd 5)
  | .ok (s, some p) =>
    match s.maskArrived c p.desc with
    | .error x => .error x
    | .ok (s, true) => s.runPick c id cmd p
    | .ok (s, false) =>
      if descAbstain p.desc && !s.detCmd cmd then State.endLauter c id cmd (s, s.emptyRecord cmd 1)
      else
        .ok { s with cmds := s.cmds.insert id { cmd with running := true, note := 1, notes := p.pack ((s.die 1).time + 4096) } }

/-- What an attempt of a command comes to: nothing where a network port holds it back or the home of a write is isolated. -/
def State.lauterStep (s : State) (id : Nat) (cmd : Cmd) (go : Ctx → Except ElemFault State) : State :=
  match s.ctx? cmd.ctx with
  | none => s
  | some c =>
    if s.cutOff 0 then s.cmdFault id causeRemoteAbort .dsp cmd.words.q0.toNat true
    else
      match go c with
      | .error x => if x.cause = 0 then s else s.cmdFault id x.cause x.sp x.addr x.wr
      | .ok t => t

/-- LAUTER: a command starts and does its work, or a parked one whose mask has arrived does it (R413 to R429). -/
def execLauter (cmd : Nat) (s : State) : Host.Outcome State Fault Refusal :=
  .next
    (match s.cmds.find? cmd with
     | none => s
     | some x =>
       if s.lauterStarts cmd x then s.lauterStep cmd x fun c => s.startLauter c cmd x
       else if x.unit == .lauter && x.running && x.note == 2 && decide (s.lauterRunning < 8) then s.lauterStep cmd x fun c => s.runPick c cmd x (unpackPick x.notes)
       else s)

/-- LAUTER_MASK_POLL: a parked command re-reads MPOS every 4,096 die-time cycles (R416). -/
def execLauterMaskPoll (cmd : Nat) (s : State) : Host.Outcome State Fault Refusal :=
  .next
    (match s.cmds.find? cmd with
     | none => s
     | some x =>
       let due := x.notes.headD 0
       if x.unit == .lauter && x.parked && decide (due.toNat ≤ (s.die 1).time) then
         s.lauterStep cmd x fun c =>
           match s.maskArrived c (unpackPick x.notes).desc with
           | .error e => .error e
           | .ok (s, arrived) =>
             let y := if arrived then { x with note := 2 } else { x with notes := toWord ((s.die 1).time + 4096) :: x.notes.drop 1 }
             .ok { s with cmds := s.cmds.insert cmd y }
       else s)

/-- LAUTER_FORWARD: VD1's oldest command takes its place in VD0's queue (R418). -/
def execLauterForward (cmd : Nat) (s : State) : Host.Outcome State Fault Refusal :=
  .next
    (match s.cmds.find? cmd with
     | none => s
     | some x =>
       let oldest := s.cmds.items.all fun e => !(e.2.unit == .lauter && decide (e.2.die = 2)) || decide (cmd ≤ e.1)
       if x.unit == .lauter && decide (x.die = 2) && oldest && decide (x.visible ≤ (s.die 2).time) then
         if s.cutOff 1 then s.cmdFault cmd causeRemoteAbort .dsp x.words.q0.toNat false
         else if 64 ≤ s.lauterQueue.length then s
         else
           { s with cmds := (s.cmds.erase cmd).insert s.serial { x with die := 1, visible := (s.die 1).time }
                    serial := s.serial + 1 }
       else s)

end Sys2Proof.Machine
end

