-- ==== Sys2Proof/Machine/Fabric.lean ====
section
/-! DEFINITION. The fabric: `ecmd`, the words of the peer counters and replicas, and what arrives from other packages (R242, R443 to R449,
R456 to R460). -/

namespace Sys2Proof.Machine

/-! ### `ecmd` (R54, R242, R245) -/

/-- The engine that ENG names. -/
def engineOf (eng : BitVec 4) : EngineUnit := if eng = 0 then .coll else if eng = 1 then .lauter else .kv

/-- The entries of a queue of an engine (R418, R450, log 7). -/
def queueDepth (u : EngineUnit) : Nat :=
  match u with
  | .mover => 32
  | .coll => 16
  | .lauter => 64
  | .kv => max 1 Config.kvPortDepth

/-- A command and record that an engine refuses at the push (R67, R68). -/
def badEngine (u : EngineUnit) (w r : Quad Word) : Bool :=
  match u with
  | .mover => true
  | .coll => if kindOf w = 6 then badFlags w || badQfence w 4 else badColl w r
  | .lauter => badLauter w
  | .kv => badKv w

/-- The commands in a queue of an engine of a die. -/
def State.engineCmds (s : State) (u : EngineUnit) (die q : Nat) : List (Nat × Cmd) :=
  s.cmds.items.filter fun e => e.2.unit == u && decide (e.2.die = die) && decide (e.2.q = q)

/-- The wait of `ecmd` for room (R245). -/
def State.engineRoom (s : State) (u : EngineUnit) (q : Nat) : Option (BitVec 4 × Bool) :=
  if queueDepth u ≤ (s.engineCmds u s.dieOf q).length then some (3, true) else none

/-- `ecmd` (R242). -/
def execEcmd (h : Hdr) (f : FmtEC) (s : State) : Host.Outcome State Fault Refusal :=
  let u := engineOf f.eng
  word (.ecmd h f) h
    { usesPatch f.p1 f.p2 f.sa f.sb s with
        room := s.engineRoom u f.eq.toNat, dieIllegal := f.eng != 0 && decide (s.dieOf = 0) }
    (fun a b _ t =>
      pushBody f.off (fun w => patched w f.p1 f.p2 f.w1 f.w2 a b)
        (fun w => if u == .coll && kindOf w == 7 then some (shpOf w) else none) (badEngine u)
        (fun w r t => t.pushCmd u t.dieOf f.eq.toNat w r f.off) t) s

/-! ### Peer counters and flushes (R448, R449) -/

/-- `pseq` (R448). -/
def execPseq (h : Hdr) (f : FmtRR) (s : State) : Host.Outcome State Fault Refusal :=
  word (.pseq h f) h { sa := some (aFile s.focus.2 .ia, f.sa), d1 := f.d1, d2 := f.d2 }
    (fun a _ _ t =>
      if bits a 10 54 ≠ 0 then t.fault causeIllegalOp
      else
        let m := if f.fn = 0 then t.fab.tx else if f.fn = 1 then t.fab.ack else t.fab.rx
        .ok (t.deliver f.d1 f.d2 ((m.getD a.toNat 0).setWidth 64) 1)) s

/-- `pflush` (R449). -/
def execPflush (h : Hdr) (f : FmtS1) (s : State) : Host.Outcome State Fault Refusal :=
  word (.pflush h f) h { sa := some (aFile s.focus.2 .ia, f.sa) }
    (fun a _ _ t =>
      if bits a 16 48 ≠ 0 || (bits a 10 6 ≠ 0 && a ≠ 0xFFFF) then t.fault causeIllegalOp
      else .ok (t.addHold (.peerFlush a.toNat))) s

/-! ### Replicas (R456 to R460) -/

/-- The checks that `rdig` and `rcmp` make of the graph, then the gate (R458). -/
def replicaBody (t : State) (b : Ctx → State → Body) : Body :=
  withCtx t fun c =>
    if !t.replicated c.who.gid then t.fault causePrivilege else t.gateWord (t.digestGate c) (b c)

/-- `rdig` (R458). -/
def execRdig (h : Hdr) (f : FmtRR) (s : State) : Host.Outcome State Fault Refusal :=
  word (.rdig h f) h { sa := some (aFile s.focus.2 .ia, f.sa), d1 := f.d1, d2 := f.d2 }
    (fun a _ _ t =>
      if bits a 1 63 ≠ 0 then t.fault causeIllegalOp
      else
        replicaBody t fun _ t =>
          .ok (t.deliver f.d1 f.d2 (toWord (if a = 0 then t.fab.digest.toNat else t.fab.digest.toNat / 2 ^ 64)) 1)) s

/-- The replicas agree on a step. -/
def Fabric.agree (f : Fabric) (step : BitVec 32) : Fabric :=
  { f with replCtl := setBits f.replCtl 32 32 step.toNat, digest := 0, pair := none, waiting := none }

/-- A comparison has failed. -/
def Fabric.differ (f : Fabric) : Fabric := { f with replCtl := f.replCtl ||| 8, refusing := true, pair := none, waiting := none }

/-- A pair of the package and one of its partner, compared: the fabric after it, and whether they agree (R459). -/
def Fabric.compare (f : Fabric) (a b : BitVec 32 × BitVec 128) : Fabric × Bool := if a = b then (f.agree a.1, true) else (f.differ, false)

/-- `rcmp`: its landing, which waits for the partner's pair when that has not come. -/
def State.startRcmp (s : State) (c : Ctx) (f : FmtRR) (step : BitVec 32) : Body :=
  let lat := 1024 * (f.fn.toNat + 1)
  let v := step.setWidth 64
  match s.fab.waiting with
  | some _ => .gated id
  | none =>
    match s.fab.pair with
    | none =>
      .ok { s.landWord f.d1 f.d2 v v lat (fun l => { l with missing := 1 }) with
              fab := { s.fab with waiting := some (c.key, s.serial, step, s.fab.digest) } }
    | some p =>
      let (g, same) := s.fab.compare (step, s.fab.digest) p
      .ok { s.landWord f.d1 f.d2 v v lat (fun l => if same then l else l.take (unplaced causeDigestMismatch s.serial)) with fab := g }

/-- `rcmp` (R459). -/
def execRcmp (h : Hdr) (f : FmtRR) (s : State) : Host.Outcome State Fault Refusal :=
  word (.rcmp h f) h { sa := some (aFile s.focus.2 .ia, f.sa), d1 := f.d1, d2 := f.d2, lat := 1024 * (f.fn.toNat + 1) }
    (fun a _ _ t =>
      if bits a 32 32 ≠ 0 then t.fault causeIllegalOp
      else
        withCtx t fun c =>
          if !t.replicated c.who.gid then t.fault causePrivilege
          else landingBody t fun _ => t.gateWord (t.digestGate c) fun t => t.startRcmp c f (BitVec.ofNat 32 a.toNat)) s

/-- REPLICA_PAIR_ARRIVAL (R459): the partner's pair answers the `rcmp` that waits, or is held; one pair at most is. -/
def execReplicaPairArrival (step : BitVec 32) (digest : BitVec 128) (s : State) : Host.Outcome State Fault Refusal :=
  .next
    (match s.fab.waiting with
     | none => if s.fab.pair.isSome then s else { s with fab := { s.fab with pair := some (step, digest) } }
     | some (k, land, mine, sum) =>
       let (g, same) := s.fab.compare (mine, sum) (step, digest)
       let i := unplaced causeDigestMismatch s.serial
       { s.answer k land (fun l => if same then { l with missing := 0 } else l.fail i.cause i.faddr i.finfo) with
           fab := g, serial := s.serial + 1 })

/-! ### Requests from other packages (R443, R445, R446) -/

/-- The physical address of each byte of a request, or the cause with which it is refused: by the translation from INROOT, by a decode view
that it would write, or by a die that resets (R126, R380, R443). -/
def State.peerHomes (s : State) (node va : Nat) (write : Bool) : Nat → Except Cause (List Nat)
  | 0 => .ok []
  | n + 1 =>
    match s.translate (s.fab.ents.getD node 0) (va % 2 ^ 48) write with
    | .error e => .error e
    | .ok pa =>
      if (s.die (pa / 2 ^ 40)).resetting then .error causeRemoteAbort
      else if write && ((s.die (pa / 2 ^ 40)).viewAt pa).isSome then .error causeSpaceFault
      else
        match s.peerHomes node (va + 1) write n with
        | .error e => .error e
        | .ok l => .ok (pa :: l)

/-- What a request does here, with the cause and bytes of its answer: a store writes its bytes, a load fills the decoded segments that it
reads. -/
def State.peerEffect (s : State) (node : Nat) (r : PeerRequest) : State × Cause × List Byte :=
  let n := if r.isStore then r.data.length else r.len
  if bits (s.fab.ents.getD node 0) 0 1 = 0 || bits (s.fab.ents.getD node 0) 2 1 = 0 then (s, causeSpaceFault, [])
  else
    match s.peerHomes node (bits r.va 0 48) r.isStore n with
    | .error e => (s, e, [])
    | .ok l =>
      let l := l.map HomeOf.mem
      let slot := fun va =>
        match s.leafOf (s.fab.ents.getD node 0) va with
        | .ok f => f.slot
        | .error _ => 0
      if r.isStore then (((s.pokes l r.data).cleanse l).sealUnder slot (List.zip l (range (bits r.va 0 48) n)), 0, [])
      else
        let s := s.fillHomes l
        if l.any s.poisoned then (s, causeEccUe, []) else (s, 0, l.map s.peek)

/-- An answer goes back to a node, with this package's RX (R446). -/
def State.replyTo (s : State) (node : Nat) (sseq : BitVec 32) (cause : Cause) (data : List Byte) : State :=
  { s with fab := { s.fab with replies := s.fab.replies ++ [⟨node, sseq, cause, data, s.fab.rx.getD node 0⟩] } }

/-- A request of a node has been applied or refused already. -/
def State.counted (s : State) (node : Nat) (sseq : BitVec 32) : Bool :=
  decide (2 ^ 20 ≤ s.ahead node sseq) || (s.fab.early.getD node .empty).has sseq.toNat

/-- No earlier request to the line of a request is still to be applied (R445). -/
def State.peerReady (s : State) (node : Nat) (r : PeerRequest) : Bool :=
  match r.prior with
  | none => true
  | some q => s.counted node q || decide (s.ahead node r.sseq ≤ s.ahead node q)

/-- Applies or refuses a request, counts it, and answers it. -/
def State.applyPeer (s : State) (node : Nat) (r : PeerRequest) : State :=
  let (t, cause, data) := s.peerEffect node r
  (t.countRx node r.sseq).replyTo node r.sseq cause data

/-- The requests of a node that are held behind an earlier one to their line. -/
def State.heldOf (s : State) (node : Nat) : FMap PeerRequest := s.fab.held.getD node .empty

/-- Applies the held requests that nothing holds back any more, at most `n` of them. -/
def State.releaseHeld (s : State) (node : Nat) : Nat → State
  | 0 => s
  | n + 1 =>
    match (s.heldOf node).items.find? fun e => s.peerReady node e.2 with
    | none => s
    | some (q, r) =>
      ({ s with fab := { s.fab with held := s.fab.held.insert node ((s.heldOf node).erase q) } }.applyPeer node r).releaseHeld node n

/-- PEER_REQUEST_APPLY (R443, R445, R446): a load or store of another package arrives. Outside the window it is refused without a count; one that comes
ahead of an earlier one to its line is held; otherwise it is applied or refused, with what was held behind it. One that has come before changes
nothing. -/
def execPeerRequestApply (node : Nat) (r : PeerRequest) (s : State) : Host.Outcome State Fault Refusal :=
  .next
    (let t := { s with fab := { s.fab with replies := [] } }
     if 2 ^ 20 ≤ s.ahead node r.sseq then t.replyTo node r.sseq causeRemoteAbort []
     else if s.counted node r.sseq || ((s.heldOf node).find? r.sseq.toNat).isSome then s
     else if s.peerReady node r then (t.applyPeer node r).releaseHeld node (s.heldOf node).items.length
     else { t with fab := { t.fab with held := t.fab.held.insert node ((t.heldOf node).insert r.sseq.toNat r) } })

/-- FABRIC_FLUSH_MARKER (R446, R447): the markers of a flush of another package, from every port of its set, are gathered once everything
before them has been applied; each takes a number, and one completion goes back. Markers outside the window are refused without a count. -/
def execFabricFlushMarker (node : Nat) (m : PeerMarkers) (s : State) : Host.Outcome State Fault Refusal :=
  .next
    (if 2 ^ 20 ≤ s.ahead node m.sseq then { s with fab := { s.fab with replies := [] } }.replyTo node m.sseq causeRemoteAbort []
     else if m.sseq = s.fab.rx.getD node 0 && decide (1 ≤ m.ports) && decide (m.ports ≤ 8) then
       let t := { s with fab := { s.fab with replies := [] } }.countNext node (BitVec.ofNat 32 m.ports)
       (t.replyTo node m.sseq 0 []).releaseHeld node (t.heldOf node).items.length
     else s)

/-! ### A node that cannot be reached (R446, R447, R454, R459) -/

/-- A flush that waits for the node ends with an error completion there (R304). -/
def State.abortFlush (s : State) (node k : Nat) : State :=
  match (s.ctx? k).bind Ctx.flushing with
  | none => s
  | some f => if f.wait.contains (nodeDest node) then s.abortDest k (nodeDest node) else s

/-- The requests to a node that are outstanding fail; what became of them there is unknown (R446). -/
def State.abortPeer (s : State) (node : Nat) : State :=
  let l := s.net.items.filter fun e => e.2.space == .peer && decide (e.2.addr / 2 ^ 48 = node) && e.2.stage == .sent
  l.foldl (fun s e => s.failPacket e.1 e.2 causeRemoteAbort e.2.addr) (s.loseSight (l.map (·.2)))

/-- The accesses of mover commands that address a node fail (R250). -/
def State.abortMover (s : State) (node : Nat) : State :=
  (s.cmds.items.filter fun e =>
    match e.2.outside with
    | some (.peer, a, _) => decide (a / 2 ^ 48 = node)
    | _ => false).foldl (fun s e => s.failOutside e.1 causeRemoteAbort [.peer]) s

/-- The `rcmp` that waits for a partner fails. -/
def State.abortRcmp (s : State) (node : Nat) : State :=
  match s.fab.waiting with
  | none => s
  | some (k, land, _, _) =>
    if bits s.fab.replCtl 4 10 ≠ node then s
    else
      let i := unplaced causeRemoteAbort s.serial
      { s.answer k land (fun l => l.fail i.cause i.faddr i.finfo) with fab := s.fab.differ, serial := s.serial + 1 }

/-- The collectives that wait on a rank fail. -/
def State.abortColl (s : State) (waitsOn : Word → Bool) : State :=
  (s.cmds.items.filter fun e => e.2.exchanging && e.2.notes.any waitsOn).foldl
    (fun s e => if (s.cmds.find? e.1).isSome then s.cmdFaultFree e.1 causeRemoteAbort else s) s

/-- NODE_UNREACHABLE (R446). -/
def execNodeUnreachable (node : Nat) (s : State) : Host.Outcome State Fault Refusal :=
  .next
    (let t := (s.abortPeer node).abortMover node
     let t := (t.ctxs.keys).foldl (fun t k => t.abortFlush node k) t
     (t.abortColl fun e => rankNode e == node && rankNode e != bits s.fab.node 0 10).abortRcmp node)

end Sys2Proof.Machine
end

