-- ==== Sys2Proof/Machine/Link.lean ====
section
/-! DEFINITION. Links: replays, failing lanes, retraining and stepping down (R371 to R378). -/

namespace Sys2Proof.Machine

/-! ### Reports and notifications (R373, R378, R394) -/

/-- The context that LNK_CTL.OWNER names: the live one with that number, on the lowest die. -/
def State.linkOwner (s : State) (l : Nat) : Option Nat :=
  let n := (s.link l).owner.toNat
  if n = 0 then none
  else (s.ctxs.items.find? fun e => decide (e.2.who.num = n) && !e.2.status.over).map (·.1)

/-- LINK_DEGRADED is offered to the owner of a link; offers for one link that are pending at once are one. A cause without a landing
writes no FADDR (R233), and the offer keeps its link there. -/
def State.offerLink (s : State) (l : Nat) : State :=
  match s.linkOwner l with
  | none => s
  | some k =>
    let i := { TrapInfo.issue causeLinkDegraded (clusterOf (Config.noticeCluster s.serial).toNat) with faddr := toWord l }
    { s.modCtx k (fun c =>
        if c.async.any fun j => j.cause == causeLinkDegraded && j.faddr == toWord l then c else c.offerAsync i) with
      serial := s.serial + 1 }

/-- A LINK entry: link, module, down, step-down and the new step. -/
def State.reportLink (s : State) (l module : Nat) (stepDown : Bool) : State :=
  let x := s.link l
  s.report 3 3 causeLinkDegraded
    (l + module * 2 ^ 2 + (if x.down then 2 ^ 6 else 0) + (if stepDown then 2 ^ 7 else 0) + x.rate * 2 ^ 8)

/-- An event of R373 that degrades a link. -/
def State.degraded (s : State) (l module : Nat) : State := (s.reportLink l module false).offerLink l

/-! ### Lanes and modules (R373) -/

/-- A lane state whose module is retired. -/
def LaneState.gone (x : LaneState) : LaneState := { x with state := 2 }

/-- A module is retired in both directions. -/
def Link.retireModule (x : Link) (n : Nat) : Link :=
  { x with up := x.up.insert n (laneAt x.up n).gone, dn := x.dn.insert n (laneAt x.dn n).gone }

/-- A link without a live module is down, and no retrain of it is left. -/
def Link.settle (x : Link) (l : Nat) : Link :=
  if (range 0 (Config.linkModules l)).any x.moduleLive then x else { x with down := true, want := [], train := false }

/-- What a failing lane makes of a direction of a module. -/
def LaneState.fail (x : LaneState) : LaneState :=
  if x.state = 0 && 0 < x.spares then { x with spares := x.spares - 1, retired := x.retired + 1 }
  else if x.state = 0 then { x with state := 1, retired := x.retired + 1 }
  else { x with state := 2, retired := x.retired + 1 }

/-- A lane of a module fails in one direction. -/
def Link.failLane (x : Link) (n : Nat) (up : Bool) : Link :=
  let x := if up then { x with up := x.up.insert n (laneAt x.up n).fail } else { x with dn := x.dn.insert n (laneAt x.dn n).fail }
  if x.moduleLive n then x else x.retireModule n

/-- LANE_FAIL (R373, R374): the lane state moves on, the link is degraded and retrains at its step. -/
def execLaneFail (link module : Nat) (up : Bool) (s : State) : Host.Outcome State Fault Refusal :=
  .next
    (let x := s.link link
     if 3 ≤ link || Config.linkModules link ≤ module || x.down || !x.moduleLive module then s
     else
       let t := (s.modLink link fun x => (x.failLane module up).settle link).degraded link module
       t.askRetrain link ⟨none, false, false⟩)

/-! ### Retraining (R374) -/

/-- The dies of a link, the lower first. -/
def linkDies (l : Nat) : Nat × Nat := if l = 0 then (0, 1) else if l = 1 then (0, 2) else (1, 2)

/-- The modules that fail to train are retired. -/
def State.retireFailed (s : State) (l : Nat) (t : Training) : State :=
  let bad := t.failed.eraseDups.filter fun n => decide (n < Config.linkModules l) && (s.link l).moduleLive n
  let u := s.modLink l fun x => (bad.foldl Link.retireModule x).settle l
  bad.foldl (fun u n => u.degraded l n) u

/-- The step at which a retrain trains a link: never above CAP, and above its rate for `lnk.rate` alone (R371). -/
def Link.stepOf (x : Link) (r : Retrain) : Nat :=
  let step := r.step.getD x.rate
  min (if r.rises then step else min step x.rate) x.cap.toNat

/-- The path of an access to its home crosses a link. -/
def State.onLink (s : State) (l : Nat) (p : Packet) : Bool :=
  match s.ctx? p.ctx with
  | none => false
  | some c =>
    match s.homeDie c p.space p.addr with
    | none => false
    | some d =>
      let v := viaDie c.who.die d
      d != c.who.die && (if p.twoHop then linkOf c.who.die v == l || linkOf v d == l else linkOf c.who.die d == l)

/-- The markers down the path over a link have not been gathered: an access is still on it (R302, R374). -/
def State.linkBusy (s : State) (l : Nat) : Bool :=
  s.net.items.any fun e => e.2.stage == .sent && !s.waitsAtPort e.2 && s.onLink l e.2

/-- A retrain ends: the modules have trained at its step, the two ZONE_LAT entries are measured, and the lines move back; a step-down is
reported (R374). -/
def State.retrain (s : State) (l : Nat) (r : Retrain) (t : Training) : State :=
  let (a, b) := linkDies l
  let u := s.modLink l fun x => { x with rate := x.stepOf r, want := x.want.drop 1, train := false }
  let u := u.retireFailed l t
  let u := { u with zone := (u.zone.insert (a * 4 + b) t.latUp).insert (b * 4 + a) t.latDown }
  if r.down then (u.reportLink l 0 true).offerLink l else u

/-- RETRAIN (R374): a recalibration is asked for; or the lines of the link have moved away behind their markers, and TRAIN is set; or the
training at the named step has ended. -/
def execRetrain (link step : Nat) (t : Training) (s : State) : Host.Outcome State Fault Refusal :=
  .next
    (let x := s.link link
     if 3 ≤ link || x.down then s
     else
       match x.want with
       | [] => if step = x.rate then s.modLink link fun x => { x with want := [⟨none, false, false⟩] } else s
       | r :: _ =>
         if step ≠ x.stepOf r then s
         else if x.train then s.retrain link r t
         else if s.linkBusy link then s
         else s.modLink link fun x => { x with train := true })

/-! ### Replays (R372, R374, R376) -/

/-- The window of 2^24 die-time cycles of DD in which a replay falls. -/
def windowOf (time : Nat) : Nat := time / 2 ^ 24

/-- FLIT_REPLAY (R372): the replay count, and the count of the window. -/
def execFlitReplay (link : Nat) (s : State) : Host.Outcome State Fault Refusal :=
  .next
    (let now := (s.die 0).time
     if 3 ≤ link || (s.link link).down then s
     else
       s.modLink link fun x =>
         { x with
           replay := satInc x.replay
           window := if windowOf x.windowStart = windowOf now then x.window + 1 else 1
           windowStart := now })

/-- A link has replayed more than 64 × RLIM times in a window above step 0. -/
def Link.stepsDown (x : Link) : Bool := !x.down && decide (0 < x.rate) && x.rlim != 0 && decide (64 * x.rlim.toNat < x.window)

/-- REPLAY_WINDOW_STEP_DOWN (R374): the link is to retrain at `step`, one below its own, once a retrain under way has ended. -/
def execReplayWindowStepDown (link step : Nat) (s : State) : Host.Outcome State Fault Refusal :=
  .next
    (let x := s.link link
     if 3 ≤ link || !x.stepsDown || !x.want.isEmpty || step + 1 ≠ x.rate then s
     else s.modLink link fun x => { x with window := 0, want := [⟨some step, true, false⟩] })

end Sys2Proof.Machine
end

