-- ==== Sys2Proof/Machine/Boot.lean ====
section
/-! DEFINITION. The steps of the boot journal (R371, R375, R386 to R390). -/

namespace Sys2Proof.Machine

/-! ### Signatures (R389, R390) -/

/-- Both signatures of an image or record verify under two public keys. -/
def signedUnder (rsa slh image : List Byte) : Bool :=
  Config.rsaVerifies rsa (Config.signedBody image) (Config.rsaSignature image) &&
    Config.slhVerifies slh (Config.signedBody image) (Config.slhSignature image)

/-- An image or record is signed under the keys that it carries, and these are Dexhovik's root keys. -/
def rootSigned (image : List Byte) : Bool :=
  sha384 (Config.rsaKey image) == Config.rootRsa && sha384 (Config.slhKey image) == Config.rootSlh &&
    signedUnder (Config.rsaKey image) (Config.slhKey image) image

/-- A firmware image is accepted: its signatures verify and its version is not below the minimum. -/
def State.accepts (s : State) (image : List Byte) : Bool :=
  rootSigned image && decide (s.fw.minimum ≤ Config.securityVersion image)

/-- The identity record verifies, and the records that the MP has signed with the identity's keys do. -/
def Firmware.recordsVerify (f : Firmware) : Bool :=
  rootSigned f.identity.signed && signedUnder f.identity.rsa f.identity.slh f.config &&
    signedUnder f.identity.rsa f.identity.slh f.calibration

/-- The image in use. -/
def FwSlots.running (x : FwSlots) : List Byte := if x.useB then x.b else x.a

/-- An image is written to the slot that is not in use. -/
def FwSlots.stage (x : FwSlots) (image : List Byte) : FwSlots :=
  if x.useB then { x with a := image, staged := true } else { x with b := image, staged := true }

/-- The other slot comes into use. -/
def FwSlots.switch (x : FwSlots) : FwSlots := { x with useB := !x.useB, staged := false }

/-! ### The journal (R386, R387) -/

/-- The code of a journal outcome. -/
def Journal.code : Journal → Nat
  | .none => (Config.journalCode 0).toNat
  | .started => (Config.journalCode 1).toNat
  | .done => (Config.journalCode 2).toNat
  | .failed => (Config.journalCode 3).toNat

/-- A step is done in its alternative form, or skipped: it is FAILED from the last boot, or was found STARTED. -/
def alternative (old : FMap Journal) (n : Nat) : Bool :=
  match old.getD n .none with
  | .failed | .started => true
  | _ => false

/-- A step ends: DONE when it was done in its primary form and nothing failed. A BOOT entry tells of it. -/
def State.endStep (s : State) (n : Nat) (ok : Bool) : State :=
  let j := if ok then Journal.done else .failed
  { s with journal := s.journal.insert n j }.report 3 8 0 (n + j.code * 2 ^ 4)

/-! ### Cores and HBM stacks (steps 3 and 4) -/

/-- The core that stands in for one that fails: the named one, or the first other one of its physical cluster that does not fail
(log 59). -/
def standIn (die : Nat) (bad : List Nat) (p q : Nat) : Nat :=
  (pick q (range (p / 8 * 8) 8) fun x => decide (x < Config.ncore die) && decide (x / 8 = p / 8) && !bad.contains x).getD p

/-- The cores of a die that a boot retires, with those that stand in for them: those that fail, and in the alternative form those that failed
before. -/
def State.badCores (s : State) (die : Nat) (alt : Bool) (b : DieBoot) : List (Nat × Nat) :=
  let kept :=
    if alt then (s.fw.fallback.cores.items.filter fun e => decide (e.1 / 128 = die)).map fun e => (e.1 % 128, e.2) else []
  let all := kept ++ b.cores.filter fun e => decide (e.1 < Config.ncore die) && !(kept.any fun x => decide (x.1 = e.1))
  all.map fun e => (e.1, standIn die (all.map (·.1)) e.1 e.2)

/-- Failing cores of a die are retired through its heddle table, which is at its reset values. -/
def State.retireCores (s : State) (die : Nat) (alt : Bool) (b : DieBoot) : State :=
  let bad := s.badCores die alt b
  let cores := bad.foldl (fun m e => m.insert (coreKey die e.1) e.2) (s.fw.fallback.cores.filter fun k _ => k / 128 ≠ die)
  bad.foldl
    (fun t e => (t.modDie die fun d => { d with heddle := d.heddle.insert e.1 ⟨BitVec.ofNat 7 e.2, false⟩ }).report die 5 0 e.1)
    { s with fw := { s.fw with fallback := { s.fw.fallback with cores := cores } } }

/-- The stacks of a verify die that train at 8.0 Gb/s. -/
def State.trainStacks (s : State) (die : Nat) (alt : Bool) (b : DieBoot) : State :=
  let f := s.fw.fallback
  let kept := if alt then f.slow else f.slow.delIf fun k => decide (k / 8 = die)
  let slow := b.slow.filter fun n => decide (n < Config.hbmStacks) && die != 0
  { s with fw := { s.fw with fallback := { f with slow := kept.addAll (slow.map fun n => die * 8 + n) } } }

/-- The rate of a stack in tenths of Gb/s. -/
def State.stackRate (s : State) (die n : Nat) : Nat := if s.fw.fallback.slow.has (die * 8 + n) then 80 else 96

/-- The physical cores of a die that no logical core maps to. -/
def State.retiredCores (s : State) (die : Nat) : Nat :=
  Config.ncore die - (((range 0 (Config.ncore die)).map (s.die die).pcore).eraseDups).length

/-- What a boot finds on a die. -/
def dieBoot (b : BootOutcome) (d : Nat) : DieBoot := b.dies.getD d ⟨[], []⟩

/-! ### Links (steps 5 to 7) -/

/-- Lanes of a link fail while it trains at step 0. -/
def State.failLanes (s : State) (l : Nat) (lanes : List (Nat × Bool)) : State :=
  lanes.foldl
    (fun s e =>
      let x := s.link l
      if Config.linkModules l ≤ e.1 || x.down || !x.moduleLive e.1 then s
      else (s.modLink l fun x => (x.failLane e.1 e.2).settle l).degraded l e.1) s

/-- Overdrive training of a link: CAPB is the highest step at which every live module trained, 0 when that failed or was skipped
(R388). -/
def State.overdrive (s : State) (ok alt : Bool) (b : BootOutcome) (l : Nat) : State :=
  let f := s.fw.fallback
  let c := if !ok || (alt && f.links.has l) then 0 else b.capb.getD l 0
  let u := s.modLink l fun x => { x with cap := c, capb := c }
  { u with fw := { u.fw with fallback := { f with links := if c = 0 then f.links.add l else f.links.del l } } }

/-- The six entries of ZONE_LAT off the diagonal, as measured. -/
def bootZone (b : BootOutcome) : FMap (BitVec 16) :=
  (List.zip [1, 2, 4, 6, 8, 9] (b.zone ++ List.replicate 6 0)).foldl (fun (m : FMap (BitVec 16)) e => m.insert e.1 e.2) .empty

/-- ZONE_LAT is measured; each latency that differs from the calibration record is logged and recorded (R368, R394). -/
def State.measureZones (s : State) (b : BootOutcome) : State :=
  let zone := bootZone b
  let t := { s with zone := zone, zoneCopy := zone, calib := zone }
  [1, 2, 4, 6, 8, 9].foldl
    (fun t k =>
      let v := zone.getD k 0
      if v = s.calib.getD k 0 then t else t.report 3 10 0 (k / 4 + k % 4 * 2 ^ 2 + v.toNat * 2 ^ 4)) t

/-! ### The steps -/

/-- What a boot step does, and whether its primary form succeeded (R387): `alt` is that it is done in its alternative form. -/
def State.doStep (s : State) (b : BootOutcome) (alt : Bool) (n : Nat) : State × Bool :=
  let ok := b.ok.getD (n - 1) true && !alt
  let each := fun (f : State → Nat → State) => (range 0 3).foldl f s
  match n with
  | 1 =>
    let use := fun b => { s with fw := { s.fw with mp := { s.fw.mp with useB := b } } }
    if ok && s.accepts s.fw.mp.a then (use false, true)
    else if s.accepts s.fw.mp.b then (use true, false)
    else ({ s with fw := { s.fw with status := .noFirmware } }, false)
  | 2 => if ok && s.fw.recordsVerify then (s, true) else ({ s with fw := { s.fw with status := .noIdentity } }, false)
  | 3 => (each fun t d => t.retireCores d alt (dieBoot b d), ok && (range 0 3).all fun d => (s.badCores d false (dieBoot b d)).isEmpty)
  | 4 => (each fun t d => t.trainStacks d alt (dieBoot b d), ok && b.dies.all fun d => d.slow.isEmpty)
  | 5 => (each fun t l => t.failLanes l (b.lanes.getD l []), ok && b.lanes.all List.isEmpty)
  | 6 =>
    let t := each fun t l => t.overdrive (b.ok.getD 5 true) alt b l
    (t, ok && t.fw.fallback.links.elems.isEmpty)
  | 7 => (s.measureZones b, ok)
  | 8 => ({ s with keys := ⟨[(0, ⟨0, Config.bootKey s.boots⟩)]⟩ }, ok)
  | _ => (s, ok)

/-- What an overdrive training that was found STARTED has recorded: it counts as FAILED, for every link (R386, R387, log 59). -/
def State.cutShort (s : State) (old : FMap Journal) (n : Nat) : State :=
  if n = 6 && old.getD 6 .none = .started then
    { s with fw := { s.fw with fallback := { s.fw.fallback with links := s.fw.fallback.links.addAll (range 0 3) } } }
  else s

/-- One step of a boot that found a journal: STARTED is written, then the outcome. Power may be lost in between; a boot that has no firmware
or no identity goes no further. -/
def State.bootStep (old : FMap Journal) (b : BootOutcome) (s : State) (n : Nat) : State :=
  if s.fw.status ≠ .up then s
  else
    let s := { s.cutShort old n with journal := s.journal.insert n .started }
    if b.cut = some n then { s with fw := { s.fw with status := .off } }
    else
      let (t, ok) := s.doStep b (alternative old n) n
      t.endStep n ok

/-- The state from which a boot starts: what flash holds stays, and so does what lies outside the package. -/
def State.powerUp (s : State) : State :=
  { State.reset with
    agenda := s.agenda
    serial := s.serial
    hostMem := s.hostMem
    peerMem := s.peerMem
    retired := s.retired
    errors := s.errors
    log := s.log
    logFull := s.logFull
    logLost := s.logLost
    reports := s.reports
    journal := s.journal
    calib := s.calib
    fw := { s.fw with status := .up }
    boots := s.boots + 1
    keys := .empty
    dies := ⟨(range 0 3).map fun d => (d, { Die.reset with resetting := true, firmware := s.fw.dies.running })⟩ }

/-- PACKAGE_POWER_UP (R386, R387): the nine steps in order. The dies run once all have ended; otherwise they stay in reset, and the package
shows its admin window alone. -/
def execPackagePowerUp (b : BootOutcome) (s : State) : Host.Outcome State Fault Refusal :=
  .next
    (let t := (range 1 9).foldl (State.bootStep s.journal b) s.powerUp
     if t.fw.status = .up then (range 0 3).foldl (fun t d => t.modDie d fun x => { x with resetting := false }) t else t)

/-- The journal steps of a die that has been reset (R379): its cores and stacks, and the lanes and latencies of its links, which train at
step 0. -/
def State.rebootDie (s : State) (r : DieReturn) : State :=
  let die := r.die
  let b := r.boot
  let lanes := fun l => r.lanes.getD l []
  let training := fun l => r.training.getD l ⟨[], 0, 0⟩
  let old := s.journal
  let mine := (range 0 3).filter fun l => decide ((linkDies l).1 = die) || decide ((linkDies l).2 = die)
  let u := s.retireCores die (alternative old 3) b
  let u := u.endStep 3 (!alternative old 3 && (s.badCores die false b).isEmpty)
  let u := (u.trainStacks die (alternative old 4) b).endStep 4 (!alternative old 4 && b.slow.isEmpty)
  let train := fun (u : State) (l : Nat) =>
    let (x, y) := linkDies l
    if (u.die x).resetting || (u.die y).resetting then u
    else
      let r := training l
      let u := (u.modLink l fun x => { x with down := false, rate := 0, want := [], train := false }.settle l).failLanes l (lanes l)
      let u := u.retireFailed l r
      { u with zone := (u.zone.insert (x * 4 + y) r.latUp).insert (y * 4 + x) r.latDown }
  let u := mine.foldl train u
  let whole := mine.all fun l => (lanes l).isEmpty && (training l).failed.isEmpty
  (u.endStep 5 (!alternative old 5 && whole)).endStep 7 (!alternative old 7)

end Sys2Proof.Machine
end

