-- ==== Sys2Proof/Machine/Reset.lean ====
section
/-! DEFINITION. The reset of one die: its loss, the quiesce handshake, its return (R379, R380). -/

namespace Sys2Proof.Machine

/-- A run had, or was to have, an instance on a die, or its launch was held there (R380). -/
def State.runTouches (s : State) (die n : Nat) (r : Run) : Bool :=
  decide (r.launch / 2 ^ 32 = die) || decide (r.die = die) ||
    ((s.imageOf r).map fun g => (g.dies r.task).contains die).getD false ||
    s.ctxs.vals.any fun c => decide (c.who.run = n) && decide (c.who.die = die)

/-- A command that a reset of a die ends: one of a context of the die is abandoned, and breaks the other ranks of a collective; one that
another die has forwarded there is answered with REMOTE_ABORT (R380, R418). -/
def State.loseCmd (s : State) (die : Nat) (e : Nat × Cmd) : State :=
  if (s.cmds.find? e.1).isNone then s
  else if e.2.ctx / 2 ^ 24 = die then { s.breakRanks e.1 causeRemoteAbort with cmds := s.cmds.erase e.1 }
  else if e.2.die = die then s.cmdFault e.1 causeRemoteAbort .dsp e.2.words.q0.toNat false
  else s

/-- A ticketed request or skip of a context of a die stands in a window elsewhere, which will take it when it is due (R325). -/
def State.atOtherWindow (s : State) (die : Nat) (p : Packet) : Bool :=
  p.stage == .parked && p.act.writes &&
    (match s.ctx? p.ctx with
     | none => false
     | some c =>
       match s.homeDie c p.space p.addr with
       | some d => decide (d ≠ die)
       | none => false)

/-- The contexts, accesses and commands of a die are gone; nothing that they left on other dies is broken, and what a window there has buffered
stays. -/
def State.loseContexts (s : State) (die : Nat) : State :=
  let s := s.cmds.items.foldl (fun s e => s.loseCmd die e) s
  let here := fun k => decide (k / 2 ^ 24 = die)
  let s := s.loseSight (s.net.vals.filter fun p => here p.ctx)
  let wait := s.fab.waiting.bind fun w => if here w.1 then none else some w
  State.clearLeft { s with
    ctxs := s.ctxs.filter fun k _ => !here k
    net := s.net.filter fun _ p => !here p.ctx || s.atOtherWindow die p
    gangs := (s.gangs.map fun g => { g with ctxs := g.ctxs.filter fun k => !here k }).filter fun _ g => !g.ctxs.isEmpty
    childWaits := s.childWaits.filter fun w => !here w.ctx
    deskewing := s.deskewing.filter fun e => !here e.1
    offers := s.offers.filter fun o => o.ctx = 0 || !here o.ctx
    slots := s.slots.filter fun e => !here e.1
    fab := { s.fab with waiting := wait } }

/-- The doorbells whose launches a die holds. -/
def State.heldLaunches (s : State) (die : Nat) : List (BitVec 32 × Nat) :=
  (s.launches.vals.filter fun l => decide (l.die = die) && !l.finished).map (fun l => (l.hseq, l.gid)) ++
    (s.die die).pendings.map fun p => (p.hseq, p.gid)

/-- The counters of the die's window and its handler image are all that the MP keeps. -/
def Die.lost (d : Die) (aborted : List (BitVec 32 × Nat)) : Die :=
  { Die.reset with
    win := d.win
    handler := d.handler
    handlerImage := d.handlerImage
    resetting := true
    aborted := d.aborted ++ aborted }

/-- What a die's units hold of the package is at its reset values: the horizons of DD, the SEQT words and the proposal queue of VD0. -/
def State.loseUnits (s : State) (die : Nat) : State :=
  let t := { s with
    cores := s.cores.filter fun k _ => k / 128 ≠ die
    kvReports := s.kvReports.filter fun x => x.die ≠ die
    links := if die < 3 then ⟨s.links.items.map fun e =>
      if (linkDies e.1).1 = die || (linkDies e.1).2 = die then
        (e.1, e.2.moving { e.2 with down := true, want := [], train := false } s.serial) else e⟩ else s.links }
  if die = 0 then { t with seqs := t.seqs.map fun x => { x with horizon := 0 } }
  else if die = 1 then { t with seqs := t.seqs.map (fun x => { x with seqt := 0x10000 }), pq := [] }
  else t

/-- A die loses its LLC (R380): of a line of its HBM that has been written, the last contents may have stood there alone, and what it then holds is
open (log 62). -/
def State.loseLlc (s : State) (die : Nat) : State :=
  let mine := fun g => decide (g / 2 ^ 34 = die)
  { s with
    hbm := ((s.dirty.elems.filter mine).flatMap fun g => range (64 * g) 64).foldl (fun m a => m.write a (Config.lostByte s.serial a)) s.hbm
    dirty := s.dirty.delIf mine
    serial := s.serial + 1 }

/-- The tasks of a reset die end on every die with REMOTE_ABORT; its own launches are aborted. -/
def State.endTouched (s : State) (die : Nat) (runs : List Nat) : State :=
  let s := s.terminate (s.ctxsOf runs)
  let s := runs.foldl (State.failRun · causeRemoteAbort) s
  let s := { s with launches := s.launches.map fun l =>
    if l.die = die && !l.finished then { l with finished := true, status := 3, cause := causeRemoteAbort } else l }
  (s.launches.keys).foldl State.advance s

/-- A die is reset: its cores halt without saving, it loses what it held, and its counter restarts from 0 (R379, R380). -/
def State.resetDie (s : State) (die reason : Nat) : State :=
  if 3 ≤ die || (s.die die).resetting then s
  else
    let runs := s.runs.items.filterMap fun e => if s.runTouches die e.1 e.2 && !e.2.isOver then some e.1 else none
    let aborted := s.heldLaunches die
    let t := (s.loseContexts die).loseLlc die
    let t := ((t.modDie die fun d => d.lost aborted).loseUnits die).endTouched die runs
    let t := (range 0 3).foldl (fun t d => t.modDie d fun x => { x with fenced := x.fenced.del die }) t
    t.report 3 7 0 (die + (if 64 ≤ reason then 0 else reason) * 2 ^ 2)

/-- The reasons of a reset: an admin command, an error in die-wide state, isolation (R379). Their codes are free (log 25). -/
def resetAdmin : Nat := (Config.resetReason 0).toNat
def resetError : Nat := (Config.resetReason 1).toNat
def resetIsolated : Nat := (Config.resetReason 2).toNat

/-- DIE_RESET (R379). -/
def execDieReset (die reason : Nat) (s : State) : Host.Outcome State Fault Refusal := .next (s.resetDie die reason)

/-- The path of an access of one die to its home crosses a die: the two-hop path, or HOST through VD0. -/
def State.crosses (s : State) (c : Ctx) (p : Packet) (die : Nat) : Bool :=
  match s.homeDie c p.space p.addr with
  | some d => decide (d = die) || (p.twoHop && c.who.die + d + die == 3 && d != c.who.die)
  | none => p.space == .host && die == 1 && c.who.die != 1

/-- An outstanding access that ends with an error completion (R380). A message waits for its own placing. -/
def State.abortOne (s : State) (die other : Nat) (e : Nat × Packet) : State :=
  match s.packet? e.1, s.ctx? e.2.ctx with
  | some p, some c =>
    let mail := match p.act with
      | .mail _ _ => true
      | _ => false
    if c.who.die = other && p.stage != .answered && !mail && s.crosses c p die then s.failPacket e.1 p causeRemoteAbort p.addr else s
  | _, _ => s

/-- QUIESCE (R379): another die fences the resetting die off, and its outstanding requests there end with error completions; so do the markers of its
flushes (R304). -/
def execQuiesce (die other : Nat) (s : State) : Host.Outcome State Fault Refusal :=
  .next
    (if 3 ≤ die || 3 ≤ other || die = other || !(s.die die).resetting || (s.die other).fenced.has die then s
     else
       let t := s.net.items.foldl (fun t e => t.abortOne die other e) s
       let t := (t.ctxs.keys.filter fun k => decide (k / 2 ^ 24 = other)).foldl State.abortCut t
       let t := t.abortColl fun e => rankNode e == bits s.fab.node 0 10 && rankDie e == die
       t.modDie other fun d => { d with fenced := d.fenced.add die })

/-- DIE_REJOIN (R379, R380): every other die has fenced the die off; it runs its boot steps and returns, and the launches it held get their
records. -/
def execDieRejoin (r : DieReturn) (s : State) : Host.Outcome State Fault Refusal :=
  .next
    (let die := r.die
     let others := (range 0 3).filter (· ≠ die)
     if 3 ≤ die || s.fw.status ≠ .up || !(s.die die).resetting ||
         !(others.all fun d => (s.die d).resetting || (s.die d).fenced.has die) then s
     else
       let ended := (s.die die).aborted
       let t := s.modDie die fun d => { d with resetting := false, aborted := [], firmware := s.fw.dies.running }
       let t := others.foldl (fun t d => t.modDie d fun x => { x with fenced := x.fenced.del die }) t
       let t := t.rebootDie r
       let t := ended.foldl (fun t e => t.complete die e.1 e.2 3 causeRemoteAbort 0xFFFF) t
       { t with resetSince := true })

end Sys2Proof.Machine
end

