-- ==== Sys2Proof/Machine/Admin.lean ====
section
/-! DEFINITION. The management processor: completion records, admin commands, keys, the error log, and parts retired in service
(R366, R381 to R397). -/

namespace Sys2Proof.Machine

/-! ### The windows of BAR0 (R381 to R384) -/

/-- A window: a die's, or the MP's for number 3. -/
def State.window (s : State) (n : Nat) : HostWindow := if n = 3 then s.admin else (s.die n).win

/-- Changes a window. -/
def State.modWindow (s : State) (n : Nat) (f : HostWindow → HostWindow) : State :=
  if n = 3 then { s with admin := f s.admin } else s.modDie n fun d => { d with win := f d.win }

/-- The records of a ring (R381). -/
def HostWindow.ringSize (w : HostWindow) : Nat := 2 ^ (w.cmplLog2.toNat + 4)

/-- The next record may be written: the host has consumed enough of the ring (R383). -/
def HostWindow.mayWrite (w : HostWindow) : Bool := decide ((w.dseq + 1 - w.cmplHead).toNat ≤ w.ringSize)

/-- The 32 bytes of a completion record (R383); a retirement request holds its PA in bytes 24 to 31 (R397). -/
def Completion.image (c : Completion) (dseq : BitVec 32) : List Byte :=
  toBytes dseq.toNat 4 ++ toBytes c.hseq.toNat 4 ++ toBytes c.gid.toNat 2 ++ toBytes c.status.toNat 1 ++ toBytes c.cause.toNat 1 ++
    toBytes c.task.toNat 2 ++ toBytes 0 2 ++ toBytes c.time 8 ++ toBytes c.extra.toNat 8

/-- Bytes written into host memory. -/
def State.hostWrite (s : State) (a : Nat) (bytes : List Byte) : State :=
  { s with hostMem := (List.zip (range 0 bytes.length) bytes).foldl (fun m e => m.write ((a + e.1) % 2 ^ 64) e.2) s.hostMem }

/-- A window can be served: its die, and for a die's records VD0 with the port, is not resetting (R366). -/
def State.windowUp (s : State) (n : Nat) : Bool := decide (n = 3) || (decide (n < 3) && !(s.die n).resetting && !(s.die 1).resetting)

/-- COMPLETION_RECORD (R383): the oldest record that is held is written to the ring, while the ring has room for it. -/
def execCompletionRecord (die : Nat) (s : State) : Host.Outcome State Fault Refusal :=
  .next
    (let w := s.window die
     match w.held with
     | [] => s
     | c :: rest =>
       if !s.windowUp die || !w.mayWrite then s
       else
         let n := w.dseq + 1
         let t := s.hostWrite (w.cmplBase.toNat + 32 * (n.toNat % w.ringSize)) (c.image n)
         t.modWindow die fun w => { w with dseq := n, held := rest, posted := w.posted + 1 })

/-- CMPL_HEAD_WRITE (R381): the host writes CMPL_HEAD, or one of the other registers of a window that it may write; at ADMIN, the HSEQ of a record whose
command follows (log 45). -/
def execCmplHeadWrite (die off : Nat) (v : Word) (s : State) : Host.Outcome State Fault Refusal :=
  .next
    (if 4 ≤ die then s
     else if off = 0x020 then s.modWindow die fun w => { w with cmplBase := v &&& 0xFFFFFFFFFFFFF000 }
     else if off = 0x028 then (if 12 < bits v 0 4 then s else s.modWindow die fun w => { w with cmplLog2 := BitVec.ofNat 4 (bits v 0 4) })
     else if off = 0 then (if die = 3 then { s with adminSeq := BitVec.ofNat 32 v.toNat } else s)
     else if off = 0x030 then s.modWindow die fun w => { w with cmplHead := BitVec.ofNat 32 v.toNat }
     else s)

/-- FLUSH_READ_COMPLETE (R384): the read that the port issued after the records has returned, so they have performed at the host. -/
def execFlushReadComplete (die : Nat) (s : State) : Host.Outcome State Fault Refusal :=
  .next
    (if 4 ≤ die || (s.window die).posted = 0 then s
     else s.modWindow die fun w => { w with seqDone := w.dseq, posted := 0 })

/-! ### Admin commands (R385) -/

/-- An admin command ends: its record joins those of the MP's window (R382, R383). -/
def State.adminDone (s : State) (status : BitVec 8) : State :=
  let n := s.admin.seqSeen + 1
  { s with
    admin := { s.admin with
      seqSeen := n
      held := s.admin.held ++ [⟨n, (Config.recordValue s.serial).setWidth 16, status, 0, 0xFFFF, (s.die 0).time, 0⟩] }
    serial := s.serial + 1 }

/-- An admin command whose record has an HSEQ that is not the next one is discarded (R382); another is refused, or has an effect. -/
def State.adminCommand (s : State) (refused : Bool) (t : State) : Host.Outcome State Fault Refusal :=
  .next (if s.adminSeq ≠ s.admin.seqSeen + 1 || s.fw.status == .off then s else if refused then s.adminDone 1 else t.adminDone 0)

/-- CTX_OPEN (R385); the reserved bits of XROOT read as zero (R6, R161). -/
def execCtxOpen (id : Nat) (policy : BitVec 2) (xroot : Word) (kek : List Byte) (s : State) : Host.Outcome State Fault Refusal :=
  match Config.oaepDecrypt s.fw.identity.enc kek with
  | none => s.adminCommand true s
  | some k =>
    s.adminCommand (decide (2 ^ 16 ≤ id) || policy == 1 || policy == 3 || (s.hostCtxs.find? id).isSome || k.length != 32)
      { s with hostCtxs := s.hostCtxs.insert id ⟨policy, maskWord xroot 0xFFFFFFFFFF000, k⟩ }

/-- A KEY entry of the log: slot, clear, host context. -/
def State.reportKey (s : State) (slot : Nat) (clear : Bool) (id : Nat) : State :=
  s.report 3 11 0 (slot + (if clear then 2 ^ 8 else 0) + id * 2 ^ 16)

/-- The lines written under a key slot lose their contents: what the LLC held of them is gone, and the key with which HBM holds them (R158, R392,
log 61). -/
def State.loseLines (s : State) (slot : Nat) : State :=
  let lost := s.sealed.items.filterMap fun e => if e.2 = slot then some e.1 else none
  { s with
    hbm := (lost.flatMap fun g => range (64 * g) 64).foldl (fun m a => m.write a (Config.clearedByte s.serial a)) s.hbm
    sealed := s.sealed.filter fun _ n => n ≠ slot
    serial := s.serial + 1 }

/-- A key slot is zeroed (R392). -/
def State.clearKey (s : State) (id slot : Nat) : State := ({ s with keys := s.keys.erase slot }.loseLines slot).reportKey slot true id

/-- Every launch of a host context ends, parsed doorbells that are not admitted with it. Their records hold one of the causes of R8: which is
open (log 25). -/
def State.endHostLaunches (s : State) (id : Nat) : State :=
  let v := Config.recordValue s.serial
  let cause : Cause := BitVec.ofNat 8 (1 + v.toNat % 24)
  let s := { s with serial := s.serial + 1 }
  let s := s.terminate (s.ctxs.items.filterMap fun e => if e.2.who.host = id then some e.1 else none)
  let s := (s.launches.items.filter fun e => e.2.host = id && !e.2.finished).foldl
    (fun s e => s.failLaunch cause (v.toNat / 2 ^ 16) e.1) s
  (range 0 3).foldl
    (fun s die =>
      let mine := (s.die die).pendings.filter fun p => (((s.die die).graphs.find? p.gid).map fun g => decide (g.host = id)).getD false
      mine.foldl
        (fun s p => (s.modDie die fun d => { d with pendings := d.pendings.erase p }).complete die p.hseq p.gid 2 cause
          (BitVec.ofNat 16 (v.toNat / 2 ^ 16))) s) s

/-- CTX_CLOSE (R385). -/
def execCtxClose (id : Nat) (s : State) : Host.Outcome State Fault Refusal :=
  s.adminCommand (s.hostCtxs.find? id).isNone
    (let t := s.endHostLaunches id
     let t := (t.keys.items.filter fun e => e.1 ≠ 0 && e.2.owner = id).foldl (fun t e => t.clearKey id e.1) t
     let t := (range 0 3).foldl (fun t d => t.modDie d fun x => { x with graphs := x.graphs.filter fun _ g => g.host ≠ id }) t
     { t with hostCtxs := t.hostCtxs.erase id })

/-- A graph identifier has a launch that has not ended, or a doorbell that waits for admission. -/
def State.graphBusy (s : State) (gid : Nat) : Bool :=
  s.outstanding gid || (range 0 3).any fun d => (s.die d).pendings.any fun p => p.gid == gid

/-- The graph does not fit in the scheduler memory of a die that it names. -/
def State.noRoom (s : State) (g : GraphImage) : Bool :=
  g.allDies.any fun d =>
    let used := ((s.die d).graphs.items.filter fun e => e.1 ≠ g.gid).map fun e => e.2.image.size
    decide (Config.schedulerMemory d < used.foldl (· + ·) 0 + g.size)

/-- A graph is no longer in any scheduler memory. -/
def State.dropGraph (s : State) (gid : Nat) : State :=
  (range 0 3).foldl (fun s d => s.modDie d fun x => { x with graphs := x.graphs.erase gid }) s

/-- The graph identifier is another host context's. -/
def State.foreignGraph (s : State) (id gid : Nat) : Bool :=
  (range 0 3).any fun d => (((s.die d).graphs.find? gid).map fun g => g.host != id).getD false

/-- UPLOAD (R334, R385, R429). -/
def execUpload (id : Nat) (g : GraphImage) (s : State) : Host.Outcome State Fault Refusal :=
  s.adminCommand
    ((s.hostCtxs.find? id).isNone || g.refused || s.graphBusy g.gid || s.foreignGraph id g.gid || s.noRoom g)
    (g.allDies.foldl
      (fun t d => t.modDie d fun x => { x with graphs := x.graphs.insert g.gid ⟨id, g, s.depthTab⟩ }) (s.dropGraph g.gid))

/-- FREE (R385). -/
def execFree (gid : Nat) (s : State) : Host.Outcome State Fault Refusal :=
  s.adminCommand (s.graphBusy gid || (range 0 3).all fun d => ((s.die d).graphs.find? gid).isNone) (s.dropGraph gid)

/-- KEY_LOAD (R392). -/
def execKeyLoad (id slot : Nat) (wrapped : List Byte) (s : State) : Host.Outcome State Fault Refusal :=
  match (s.hostCtxs.find? id).bind fun h => unwrapKey h.kek wrapped with
  | none => s.adminCommand true s
  | some key =>
    s.adminCommand
      (slot == 0 || decide (256 ≤ slot) || key.length != 64 || ((s.keys.find? slot).map fun k => k.owner != id).getD false)
      ({ (if (s.keys.find? slot).all fun k : KeySlot => k.key == key then s else s.loseLines slot) with keys := s.keys.insert slot ⟨id, key⟩ }.reportKey slot
        false id)

/-- KEY_CLEAR (R392). -/
def execKeyClear (id slot : Nat) (s : State) : Host.Outcome State Fault Refusal :=
  s.adminCommand (slot == 0 || ((s.keys.find? slot).map fun k => k.owner != id).getD true) (s.clearKey id slot)

/-- RESET_DIE (R379, R385). -/
def execResetDie (die : Nat) (s : State) : Host.Outcome State Fault Refusal :=
  s.adminCommand (decide (3 ≤ die)) (s.resetDie die resetAdmin)

/-- The windows of the words of a page are no more (R325). -/
def State.freePage (s : State) (pa : Nat) : State :=
  ((s.die (pa / 2 ^ 40)).memWindows.keys.filter fun n =>
    match winHome n with
    | .mem a => decide (a / 2 ^ 12 = pa / 2 ^ 12)
    | _ => false).foldl (fun s n => s.freeWin (winHome n)) s

/-- RETIRE_PAGE (R397): the page is freed, and its PA counts as memory that is not installed. -/
def execRetirePage (pa : Nat) (s : State) : Host.Outcome State Fault Refusal :=
  s.adminCommand (!s.installed pa)
    ({ s.freePage pa with retired := s.retired.add (pa / 2 ^ 12) }.report 3 5 0 (2 ^ 28 + pa / 2 ^ 12 % 2 ^ 28))

/-- FW_STAGE (R389, R396): an image of the MP, or of the dies, that is accepted is written to the slot not in use. -/
def execFwStage (image : List Byte) (dies : Bool) (s : State) : Host.Outcome State Fault Refusal :=
  s.adminCommand (!s.accepts image)
    { s with fw := if dies then { s.fw with dies := s.fw.dies.stage image } else { s.fw with mp := s.fw.mp.stage image } }

/-- The firmware of one part restarts into its staged image, if it has one (R396). -/
def State.switchFirmware (s : State) (dies : Bool) : State :=
  let x := if dies then s.fw.dies else s.fw.mp
  if !x.staged then s
  else
    let t := { s with fw := if dies then { s.fw with dies := x.switch } else { s.fw with mp := x.switch } }
    let t := if dies then (range 0 3).foldl (fun t d => t.modDie d fun e => { e with firmware := x.switch.running }) t else t
    t.report 3 9 0 (Config.securityVersion x.switch.running)

/-- FW_SWITCH (R396): what has a staged image restarts into it, the MP and the dies; each die at a point where it parses no doorbell, which between
two steps is now. -/
def execFwSwitch (s : State) : Host.Outcome State Fault Refusal :=
  s.adminCommand (!s.fw.mp.staged && !s.fw.dies.staged) ((s.switchFirmware false).switchFirmware true)

/-- The bytes of a hash, as words. -/
def hashWords (l : List Byte) : List Word := (pieces 8 6 (sha384 l)).map fun b => toWord (ofBytes b)

/-- What an attestation report tells of the state (R391): the running MP image and the die firmware of each die with their versions, the identity
record, the handler of each die, the journal, the retired cores of each die, the rate of each HBM stack, CAPB of each link, the newest
entry of the error log, and LOG_LOST. -/
def State.attested (s : State) : List Word :=
  hashWords s.fw.mp.running ++ [toWord (Config.securityVersion s.fw.mp.running)] ++
    ((range 0 3).flatMap fun d => hashWords (s.die d).firmware ++ [toWord (Config.securityVersion (s.die d).firmware)]) ++
    hashWords s.fw.identity.signed ++
    ((range 0 3).flatMap fun d => hashWords ((s.die d).handlerImage.flatMap fun w => toBytes w.toNat 8)) ++
    ((range 1 9).map fun n => toWord ((s.journal.getD n .none).code)) ++ ((range 0 3).map fun d => toWord (s.retiredCores d)) ++
    ((range 1 2).flatMap fun d => (range 0 Config.hbmStacks).map fun n => toWord (s.stackRate d n)) ++
    ((range 0 3).map fun l => (s.link l).capb.setWidth 64) ++
    [toWord (s.log.length - 1)] ++ hashWords (s.log.getLastD []) ++ [toWord s.logLost]

/-- ATTEST (R391): the signed report is written for the host. -/
def execAttest (nonce : List Byte) (dst : Nat) (s : State) : Host.Outcome State Fault Refusal :=
  s.adminCommand (nonce.length != 32)
    (s.hostWrite dst (Config.attestReport s.fw.identity.rsa s.fw.identity.slh nonce s.attested))

/-- LOG_READ (R385): the entries `a` to `b`. -/
def execLogRead (a b dst : Nat) (s : State) : Host.Outcome State Fault Refusal :=
  s.adminCommand (decide (b < a) || decide (s.log.length ≤ b)) (s.hostWrite dst ((s.log.drop a).take (b + 1 - a)).flatten)

/-- What flash keeps of the alternative form of a step is forgotten. -/
def Fallback.clear (f : Fallback) (step : Nat) : Fallback :=
  match step with
  | 3 => { f with cores := .empty }
  | 4 => { f with slow := .empty }
  | 6 => { f with links := .empty }
  | _ => f

/-- JOURNAL_CLEAR (R385, R387). -/
def execJournalClear (step : Nat) (s : State) : Host.Outcome State Fault Refusal :=
  s.adminCommand (step == 0 || decide (9 < step))
    { s with
      journal := s.journal.insert step .none
      fw := { s.fw with fallback := s.fw.fallback.clear step } }

/-- An admitted launch that has not ended is held on a die, or names it (log 36). -/
def State.launchOn (s : State) (die : Nat) : Bool :=
  s.launches.items.any fun e =>
    !e.2.finished &&
      (e.2.die == die || ((s.graphOf e.2.die e.1).map fun g => g.image.allDies.contains die).getD false)

/-- HANDLER_LOAD (R164): the image stands in C's code store of every core of the die from 0xE000 on, the all-ones word behind it. -/
def execHandlerLoad (die : Nat) (image : List Word) (s : State) : Host.Outcome State Fault Refusal :=
  s.adminCommand (decide (3 ≤ die) || decide (1024 < image.length) || s.launchOn die)
    (s.modDie die fun d => { d with handler := codeStore image, handlerImage := image })

/-! ### The error log (R393 to R395) -/

/-- An entry: SEQ, TIME, CAUSE, DIE and KIND, LOC, and the hash of the entry before it. -/
def logEntry (seq : Nat) (prev : Option (List Byte)) (r : Report) : List Byte :=
  toBytes seq 4 ++ toBytes r.time 6 ++ [BitVec.ofNat 8 r.cause.toNat, BitVec.ofNat 8 (r.die + r.kind * 4)] ++ toBytes r.loc.toNat 4 ++
    match prev with
    | none => List.replicate 48 0
    | some e => sha384 e

/-- Appends an entry. -/
def State.appendLog (s : State) (r : Report) : State := { s with log := s.log ++ [logEntry s.log.length s.log.getLast? r] }

/-- The entries that the flash region holds (R395). -/
def logCapacity : Nat := 2 ^ 24

/-- ERROR_LOG_APPEND (R393, R395): the oldest report. The last entry of the region is FULL; from then on reports are counted. -/
def execErrorLogAppend (s : State) : Host.Outcome State Fault Refusal :=
  .next
    (match s.reports with
     | [] => s
     | r :: rest =>
       let s := { s with reports := rest }
       if s.logFull then { s with logLost := s.logLost + 1 }
       else if s.log.length + 1 < logCapacity then s.appendLog r
       else { s.appendLog ⟨(s.die 0).time, 0, 3, 12, 0⟩ with logFull := true, logLost := s.logLost + 1 })

/-- The number of a stretch of 2^47 cycles, counted from 1: it changes when bit 47 of the counter toggles. -/
def timeMark (time : Nat) : Nat := time / 2 ^ 47 + 1

/-- A TIME entry of a die is due: it has started, or bit 47 has toggled, since the last one (R394). -/
def State.timeDue (s : State) (die : Nat) : Bool :=
  decide (die < 3) && !(s.die die).resetting && decide (timeMark (s.die die).time ≠ (s.die die).logged)

/-- TIME_LOG_ENTRY (R394). -/
def execTimeLogEntry (die : Nat) (s : State) : Host.Outcome State Fault Refusal :=
  .next
    (if s.timeDue die then
       (s.report die 0 0 ((s.die die).time / 2 ^ 48 % 2 ^ 16)).modDie die fun d => { d with logged := timeMark d.time }
     else s)

/-! ### Memory errors and retirement (R379, R394, R396, R397) -/

/-- The MP asks for the retirement of a page in its completion ring (R397). -/
def State.askRetire (s : State) (pa : Nat) : State :=
  { s with
    admin := { s.admin with
      held := s.admin.held ++ [⟨Config.recordValue s.serial, 0xFFFF, 0, 0, 0xFFFF, (s.die 0).time, toWord (pa / 2 ^ 12 * 2 ^ 12)⟩] }
    serial := s.serial + 1 }

/-- An error in HBM counts for its page: after the second uncorrectable error, or the sixty-fifth corrected one, its retirement is asked
for (R397). -/
def State.countError (s : State) (pa : Nat) (corrected : Bool) : State :=
  let (c, u) := s.errors.getD (pa / 2 ^ 12) (0, 0)
  let e := if corrected then (c + 1, u) else (c, u + 1)
  let t := { s with errors := s.errors.insert (pa / 2 ^ 12) e }
  if (corrected && c = 64) || (!corrected && u = 1) then t.askRetire pa else t

/-- What an uncorrectable error leaves: the line of HBM or of a scratchpad that holds it stays bad (R397). A scratchpad location is a
core's key × 2^24 + an offset. -/
def State.damage (s : State) (unit loc : Nat) : State :=
  if unit = 3 then { s with poison := s.poison.add (loc / 64) }
  else if unit = 0 then s.modCore (loc / 2 ^ 24) fun m => { m with bad := m.bad.add (loc % 2 ^ 24 / 64) }
  else s

/-- MEMORY_ERROR (R379, R394, R397): an error of a unit of a die is corrected or not; units 6 and 7 are die-wide state, whose
uncorrectable errors reset the die (log 26). -/
def execMemoryError (die unit loc : Nat) (corrected : Bool) (s : State) : Host.Outcome State Fault Refusal :=
  .next
    (if 3 ≤ die || 8 ≤ unit then s
     else
       let s := s.report die (if corrected then 1 else 2) (if corrected then 0 else causeEccUe) (unit * 2 ^ 28 + loc % 2 ^ 28)
       let s := if unit = 3 then s.countError loc corrected else s
       if corrected then s else if 6 ≤ unit then s.resetDie die resetError else s.damage unit loc)

/-- LLC_SLICE_RETIRE (R396): the lines of a slice are written back and the slice is used no more. -/
def execLlcSliceRetire (die slice : Nat) (s : State) : Host.Outcome State Fault Refusal :=
  .next
    (if 3 ≤ die || (s.die die).slices.has slice then s
     else (s.modDie die fun d => { d with slices := d.slices.add slice }).report die 5 0 (2 * 2 ^ 28 + slice % 2 ^ 28))

end Sys2Proof.Machine
end

