-- ==== Sys2Proof/Machine/Scalar.lean ====
section
/-! DEFINITION. The arithmetic, constant and predicate words of the common set, and C's multiply and divide (R77 to R84, R95). -/

namespace Sys2Proof.Machine

/-- What a word of format RR reads and delivers (R77). -/
def usesRR (u : ExecUnit) (lat : Nat) (f : FmtRR) (s : State) : Uses where
  sa := some (aFile s.focus.2 u, f.sa)
  sb := some (bFile s.focus.2 u, f.sb)
  d1 := f.d1
  d2 := f.d2
  lat := lat

/-- What a word of format RI reads and delivers. -/
def usesRI (u : ExecUnit) (lat : Nat) (f : FmtRI) (s : State) : Uses where
  sa := some (aFile s.focus.2 u, f.sa)
  d1 := f.d1
  d2 := f.d2
  lat := lat

/-- What a word of format R1 reads and delivers. -/
def usesR1 (f : FmtR1) (s : State) : Uses where
  sa := some (aFile s.focus.2 .ia, f.sa)
  d1 := f.d1
  d2 := f.d2

/-- The immediate of format RI, sign-extended (R80). -/
def immOf (i : BitVec 32) : Word := signExtend i.toNat 32

/-- A two-source word whose value is a function of its operands (R77). -/
def execRR (i : Instr) (h : Hdr) (f : FmtRR) (u : ExecUnit) (lat : Nat) (fn : Word → Word → Word) (s : State) :
    Host.Outcome State Fault Refusal :=
  word i h (usesRR u lat f s) (fun a b _ s => .ok (s.deliver f.d1 f.d2 (fn a b) lat)) s

/-- An immediate word whose value is a function of its operand. -/
def execRI (i : Instr) (h : Hdr) (f : FmtRI) (u : ExecUnit) (lat : Nat) (fn : Word → Word) (s : State) :
    Host.Outcome State Fault Refusal :=
  word i h (usesRI u lat f s) (fun a _ _ s => .ok (s.deliver f.d1 f.d2 (fn a) lat)) s

/-- A one-source word. -/
def execR1 (i : Instr) (h : Hdr) (f : FmtR1) (fn : Word → Word) (s : State) : Host.Outcome State Fault Refusal :=
  word i h (usesR1 f s) (fun a _ _ s => .ok (s.deliver f.d1 f.d2 (fn a) 1)) s

/-- A shift or rotate amount: bits [5:0] (R79). -/
def amount (b : Word) : Nat := bits b 0 6

/-- The number of leading zero bits of a word, 64 for 0 (R82). -/
def leadingZeros (a : Word) : Nat := if a = 0 then 64 else 63 - Nat.log2 a.toNat

/-- The field of `ext` (R81): `len` bits from `pos`, bits above bit 63 reading as zero. -/
def extField (a : Word) (pos len : Nat) (sx : Bool) : Word :=
  if sx then signExtend (a.toNat / 2 ^ pos) len else toWord (bits a pos len)

/-- The signed quotient rounded toward zero (R95). -/
def divS (a b : Word) : Word := wordI (a.toInt.tdiv b.toInt)

/-- The signed remainder, of the sign of the dividend (R95). -/
def remS (a b : Word) : Word := wordI (a.toInt.tmod b.toInt)

/-- `add` (R79). -/
def execAdd (h : Hdr) (f : FmtRR) (s : State) : Host.Outcome State Fault Refusal :=
  execRR (.add h f) h f .ia 1 (fun a b => a + b) s

/-- `sub` (R79). -/
def execSub (h : Hdr) (f : FmtRR) (s : State) : Host.Outcome State Fault Refusal :=
  execRR (.sub h f) h f .ia 1 (fun a b => a - b) s

/-- `and` (R79). -/
def execAndW (h : Hdr) (f : FmtRR) (s : State) : Host.Outcome State Fault Refusal :=
  execRR (.andW h f) h f .ia 1 (fun a b => a &&& b) s

/-- `or` (R79). -/
def execOrW (h : Hdr) (f : FmtRR) (s : State) : Host.Outcome State Fault Refusal :=
  execRR (.orW h f) h f .ia 1 (fun a b => a ||| b) s

/-- `xor` (R79). -/
def execXorW (h : Hdr) (f : FmtRR) (s : State) : Host.Outcome State Fault Refusal :=
  execRR (.xorW h f) h f .ia 1 (fun a b => a ^^^ b) s

/-- `andn` (R79). -/
def execAndn (h : Hdr) (f : FmtRR) (s : State) : Host.Outcome State Fault Refusal :=
  execRR (.andn h f) h f .ia 1 (fun a b => a &&& ~~~b) s

/-- `shl` (R79). -/
def execShl (h : Hdr) (f : FmtRR) (s : State) : Host.Outcome State Fault Refusal :=
  execRR (.shl h f) h f .ia 1 (fun a b => a <<< amount b) s

/-- `shr` (R79). -/
def execShr (h : Hdr) (f : FmtRR) (s : State) : Host.Outcome State Fault Refusal :=
  execRR (.shr h f) h f .ia 1 (fun a b => a >>> amount b) s

/-- `sra` (R79). -/
def execSra (h : Hdr) (f : FmtRR) (s : State) : Host.Outcome State Fault Refusal :=
  execRR (.sra h f) h f .ia 1 (fun a b => a.sshiftRight (amount b)) s

/-- `rot` (R79). -/
def execRot (h : Hdr) (f : FmtRR) (s : State) : Host.Outcome State Fault Refusal :=
  execRR (.rot h f) h f .ia 1 (fun a b => a.rotateRight (amount b)) s

/-- `cmp` (R79): the condition is FN8[3:0]. -/
def execCmp (h : Hdr) (f : FmtRR) (s : State) : Host.Outcome State Fault Refusal :=
  execRR (.cmp h f) h f .ia 1 (fun a b => boolWord (condHolds f.fn.toNat a b)) s

/-- `sel` (R79): a if pk is true, else b, with k = FN8[2:0] read as a guard is read. -/
def execSel (h : Hdr) (f : FmtRR) (s : State) : Host.Outcome State Fault Refusal :=
  word (.sel h f) h { usesRR .ia 1 f s with preds := [f.fn.toNat % 8] }
    (fun a b _ t =>
      .ok (t.deliver f.d1 f.d2
        (match s.ctx? s.focus.1 with
         | none => b
         | some c => if (c.cl s.focus.2).pred (f.fn.toNat % 8) then a else b) 1)) s

/-- `mov` (R82). -/
def execMov (h : Hdr) (f : FmtR1) (s : State) : Host.Outcome State Fault Refusal :=
  execR1 (.mov h f) h f (fun a => a) s

/-- `clz` (R82). -/
def execClz (h : Hdr) (f : FmtR1) (s : State) : Host.Outcome State Fault Refusal :=
  execR1 (.clz h f) h f (fun a => toWord (leadingZeros a)) s

/-- `popc` (R82). -/
def execPopc (h : Hdr) (f : FmtR1) (s : State) : Host.Outcome State Fault Refusal :=
  execR1 (.popc h f) h f (fun a => toWord (popcount a.toNat 64)) s

/-- `addi` (R80). -/
def execAddi (h : Hdr) (f : FmtRI) (s : State) : Host.Outcome State Fault Refusal :=
  execRI (.addi h f) h f .ia 1 (fun a => a + immOf f.imm) s

/-- `andi` (R80). -/
def execAndi (h : Hdr) (f : FmtRI) (s : State) : Host.Outcome State Fault Refusal :=
  execRI (.andi h f) h f .ia 1 (fun a => a &&& immOf f.imm) s

/-- `ori` (R80). -/
def execOri (h : Hdr) (f : FmtRI) (s : State) : Host.Outcome State Fault Refusal :=
  execRI (.ori h f) h f .ia 1 (fun a => a ||| immOf f.imm) s

/-- `xori` (R80). -/
def execXori (h : Hdr) (f : FmtRI) (s : State) : Host.Outcome State Fault Refusal :=
  execRI (.xori h f) h f .ia 1 (fun a => a ^^^ immOf f.imm) s

/-- `shli` (R80). -/
def execShli (h : Hdr) (f : FmtRI) (s : State) : Host.Outcome State Fault Refusal :=
  execRI (.shli h f) h f .ia 1 (fun a => a <<< (f.imm.toNat % 64)) s

/-- `shri` (R80). -/
def execShri (h : Hdr) (f : FmtRI) (s : State) : Host.Outcome State Fault Refusal :=
  execRI (.shri h f) h f .ia 1 (fun a => a >>> (f.imm.toNat % 64)) s

/-- `srai` (R80). -/
def execSrai (h : Hdr) (f : FmtRI) (s : State) : Host.Outcome State Fault Refusal :=
  execRI (.srai h f) h f .ia 1 (fun a => a.sshiftRight (f.imm.toNat % 64)) s

/-- `roti` (R80). -/
def execRoti (h : Hdr) (f : FmtRI) (s : State) : Host.Outcome State Fault Refusal :=
  execRI (.roti h f) h f .ia 1 (fun a => a.rotateRight (f.imm.toNat % 64)) s

/-- `cmpi` (R80). -/
def execCmpi (h : Hdr) (f : FmtRI) (s : State) : Host.Outcome State Fault Refusal :=
  execRI (.cmpi h f) h f .ia 1 (fun a => boolWord (condHolds f.fn.toNat a (immOf f.imm))) s

/-- `lih` (R81). -/
def execLih (h : Hdr) (f : FmtRI) (s : State) : Host.Outcome State Fault Refusal :=
  execRI (.lih h f) h f .ia 1 (fun a => toWord (f.imm.toNat * 2 ^ 32 + bits a 0 32)) s

/-- `ext` (R81: pos is IMM32[5:0], len - 1 is IMM32[13:8], FN4[0] sign-extends). -/
def execExt (h : Hdr) (f : FmtRI) (s : State) : Host.Outcome State Fault Refusal :=
  execRI (.ext h f) h f .ia 1 (fun a => extField a (f.imm.toNat % 64) (f.imm.toNat / 256 % 64 + 1) (f.fn == 1)) s

/-- `li` (R81): reads no source. -/
def execLi (h : Hdr) (f : FmtLI) (s : State) : Host.Outcome State Fault Refusal :=
  word (.li h f) h { d1 := f.d1, d2 := f.d2 } (fun _ _ _ s => .ok (s.deliver f.d1 f.d2 (immOf f.imm) 1)) s

/-- A predicate as the cluster in focus reads it. -/
def State.readPred (s : State) (j : Nat) : Bool :=
  match s.ctx? s.focus.1 with
  | none => j == 0
  | some c => (c.cl s.focus.2).pred j

/-- A predicate logic word (R83): pD := fn(pA XOR NA, pB XOR NB), with latency 1. -/
def execPL (i : Instr) (h : Hdr) (f : FmtPL) (fn : Bool → Bool → Bool) (s : State) : Host.Outcome State Fault Refusal :=
  word i h { preds := [f.pa.toNat, f.pb.toNat], pmask := BitVec.ofNat 8 (2 ^ f.pd.toNat) }
    (fun _ _ _ t =>
      .ok (t.deliverPreds (BitVec.ofNat 8 (2 ^ f.pd.toNat))
        (if fn (s.readPred f.pa.toNat != (f.na == 1)) (s.readPred f.pb.toNat != (f.nb == 1)) then 0xFF else 0))) s

/-- `pand` (R83). -/
def execPand (h : Hdr) (f : FmtPL) (s : State) : Host.Outcome State Fault Refusal := execPL (.pand h f) h f (fun a b => a && b) s

/-- `por` (R83). -/
def execPor (h : Hdr) (f : FmtPL) (s : State) : Host.Outcome State Fault Refusal := execPL (.por h f) h f (fun a b => a || b) s

/-- `pxor` (R83). -/
def execPxor (h : Hdr) (f : FmtPL) (s : State) : Host.Outcome State Fault Refusal := execPL (.pxor h f) h f (fun a b => a != b) s

/-- The eight predicates as a number, p0 as 1 (R84). -/
def State.predWord (s : State) : Word :=
  match s.ctx? s.focus.1 with
  | none => 1
  | some c => toWord ((c.cl s.focus.2).preds ||| 1).toNat

/-- `prd` (R84): reads all eight predicates. -/
def execPrd (h : Hdr) (f : FmtD) (s : State) : Host.Outcome State Fault Refusal :=
  word (.prd h f) h { d1 := f.d1, d2 := f.d2, preds := [1, 2, 3, 4, 5, 6, 7] }
    (fun _ _ _ t => .ok (t.deliver f.d1 f.d2 s.predWord 1)) s

/-- `pwr` (R84): pj := a[j] for the selected j. -/
def execPwr (h : Hdr) (f : FmtPW) (s : State) : Host.Outcome State Fault Refusal :=
  word (.pwr h f) h { sa := some (aFile s.focus.2 .ia, f.sa), pmask := BitVec.ofNat 8 (f.mask.toNat * 2) }
    (fun a _ _ s => .ok (s.deliverPreds (BitVec.ofNat 8 (f.mask.toNat * 2)) (a.setWidth 8))) s

/-- `mul` (R95): latency 3. -/
def execMul (h : Hdr) (f : FmtRR) (s : State) : Host.Outcome State Fault Refusal :=
  execRR (.mul h f) h f .im 3 (fun a b => a * b) s

/-- `mulh` (R95): latency 3. -/
def execMulh (h : Hdr) (f : FmtRR) (s : State) : Host.Outcome State Fault Refusal :=
  execRR (.mulh h f) h f .im 3 (fun a b => wordI (a.toInt * b.toInt / 2 ^ 64)) s

/-- `mulhu` (R95): latency 3. -/
def execMulhu (h : Hdr) (f : FmtRR) (s : State) : Host.Outcome State Fault Refusal :=
  execRR (.mulhu h f) h f .im 3 (fun a b => toWord (a.toNat * b.toNat / 2 ^ 64)) s

/-- A division (R95): b = 0 traps with DIVIDE_BY_ZERO at issue; latency 20. -/
def execDivide (i : Instr) (h : Hdr) (f : FmtRR) (fn : Word → Word → Word) (s : State) : Host.Outcome State Fault Refusal :=
  word i h (usesRR .im 20 f s)
    (fun a b _ t =>
      if b = 0 then .trap (.issue causeDivideByZero s.focus.2) else .ok (t.deliver f.d1 f.d2 (fn a b) 20)) s

/-- `div` (R95). -/
def execDiv (h : Hdr) (f : FmtRR) (s : State) : Host.Outcome State Fault Refusal :=
  execDivide (.div h f) h f (fun a b => divS a b) s

/-- `divu` (R95). -/
def execDivu (h : Hdr) (f : FmtRR) (s : State) : Host.Outcome State Fault Refusal :=
  execDivide (.divu h f) h f (fun a b => toWord (a.toNat / b.toNat)) s

/-- `rem` (R95). -/
def execRem (h : Hdr) (f : FmtRR) (s : State) : Host.Outcome State Fault Refusal :=
  execDivide (.rem h f) h f (fun a b => remS a b) s

/-- `remu` (R95). -/
def execRemu (h : Hdr) (f : FmtRR) (s : State) : Host.Outcome State Fault Refusal :=
  execDivide (.remu h f) h f (fun a b => toWord (a.toNat % b.toNat)) s

/-- `muli` (R95). -/
def execMuli (h : Hdr) (f : FmtRI) (s : State) : Host.Outcome State Fault Refusal :=
  execRI (.muli h f) h f .im 3 (fun a => a * immOf f.imm) s

end Sys2Proof.Machine
end

