-- ==== Sys2Proof/Machine/Dispatch.lean ====
section
/-! DEFINITION. The one dispatch: each instruction and each further step of the opcode table calls its meaning. -/

namespace Sys2Proof.Machine

def exec (i : Instr) (s : State) : Host.Outcome State Fault Refusal :=
  match i with
  | .nop h => Sys2Proof.Machine.execNop h s
  | .add h f => Sys2Proof.Machine.execAdd h f s
  | .sub h f => Sys2Proof.Machine.execSub h f s
  | .andW h f => Sys2Proof.Machine.execAndW h f s
  | .orW h f => Sys2Proof.Machine.execOrW h f s
  | .xorW h f => Sys2Proof.Machine.execXorW h f s
  | .andn h f => Sys2Proof.Machine.execAndn h f s
  | .shl h f => Sys2Proof.Machine.execShl h f s
  | .shr h f => Sys2Proof.Machine.execShr h f s
  | .sra h f => Sys2Proof.Machine.execSra h f s
  | .rot h f => Sys2Proof.Machine.execRot h f s
  | .cmp h f => Sys2Proof.Machine.execCmp h f s
  | .sel h f => Sys2Proof.Machine.execSel h f s
  | .mov h f => Sys2Proof.Machine.execMov h f s
  | .clz h f => Sys2Proof.Machine.execClz h f s
  | .popc h f => Sys2Proof.Machine.execPopc h f s
  | .addi h f => Sys2Proof.Machine.execAddi h f s
  | .andi h f => Sys2Proof.Machine.execAndi h f s
  | .ori h f => Sys2Proof.Machine.execOri h f s
  | .xori h f => Sys2Proof.Machine.execXori h f s
  | .shli h f => Sys2Proof.Machine.execShli h f s
  | .shri h f => Sys2Proof.Machine.execShri h f s
  | .srai h f => Sys2Proof.Machine.execSrai h f s
  | .roti h f => Sys2Proof.Machine.execRoti h f s
  | .cmpi h f => Sys2Proof.Machine.execCmpi h f s
  | .li h f => Sys2Proof.Machine.execLi h f s
  | .lih h f => Sys2Proof.Machine.execLih h f s
  | .ext h f => Sys2Proof.Machine.execExt h f s
  | .pand h f => Sys2Proof.Machine.execPand h f s
  | .por h f => Sys2Proof.Machine.execPor h f s
  | .pxor h f => Sys2Proof.Machine.execPxor h f s
  | .prd h f => Sys2Proof.Machine.execPrd h f s
  | .pwr h f => Sys2Proof.Machine.execPwr h f s
  | .br h f => Sys2Proof.Machine.execBr h f s
  | .jal h f => Sys2Proof.Machine.execJal h f s
  | .jr h f => Sys2Proof.Machine.execJr h f s
  | .ret h => Sys2Proof.Machine.execRet h s
  | .loop h f => Sys2Proof.Machine.execLoop h f s
  | .loopi h f => Sys2Proof.Machine.execLoopi h f s
  | .lend h f => Sys2Proof.Machine.execLend h f s
  | .qcnt h f => Sys2Proof.Machine.execQcnt h f s
  | .crr h f => Sys2Proof.Machine.execCrr h f s
  | .join h => Sys2Proof.Machine.execJoin h s
  | .trap h f => Sys2Proof.Machine.execTrap h f s
  | .halt h => Sys2Proof.Machine.execHalt h s
  | .mul h f => Sys2Proof.Machine.execMul h f s
  | .mulh h f => Sys2Proof.Machine.execMulh h f s
  | .mulhu h f => Sys2Proof.Machine.execMulhu h f s
  | .div h f => Sys2Proof.Machine.execDiv h f s
  | .divu h f => Sys2Proof.Machine.execDivu h f s
  | .rem h f => Sys2Proof.Machine.execRem h f s
  | .remu h f => Sys2Proof.Machine.execRemu h f s
  | .muli h f => Sys2Proof.Machine.execMuli h f s
  | .fork h f => Sys2Proof.Machine.execFork h f s
  | .crw h f => Sys2Proof.Machine.execCrw h f s
  | .crrp h f => Sys2Proof.Machine.execCrrp h f s
  | .eret h => Sys2Proof.Machine.execEret h s
  | .ctxsv h f => Sys2Proof.Machine.execCtxsv h f s
  | .ctxld h f => Sys2Proof.Machine.execCtxld h f s
  | .yield h => Sys2Proof.Machine.execYield h s
  | .exit h => Sys2Proof.Machine.execExit h s
  | .launch h f => Sys2Proof.Machine.execLaunch h f s
  | .wchild h f => Sys2Proof.Machine.execWchild h f s
  | .semSig h f => Sys2Proof.Machine.execSemSig h f s
  | .semWait h f => Sys2Proof.Machine.execSemWait h f s
  | .semInit h f => Sys2Proof.Machine.execSemInit h f s
  | .semRd h f => Sys2Proof.Machine.execSemRd h f s
  | .dgstRd h f => Sys2Proof.Machine.execDgstRd h f s
  | .dgstClr h => Sys2Proof.Machine.execDgstClr h s
  | .mbxSend h f => Sys2Proof.Machine.execMbxSend h f s
  | .mbxRecv h f => Sys2Proof.Machine.execMbxRecv h f s
  | .mbxCnt h f => Sys2Proof.Machine.execMbxCnt h f s
  | .deskew h f => Sys2Proof.Machine.execDeskew h f s
  | .zlat h f => Sys2Proof.Machine.execZlat h f s
  | .propPush h f => Sys2Proof.Machine.execPropPush h f s
  | .propPop h f => Sys2Proof.Machine.execPropPop h f s
  | .hznRd h f => Sys2Proof.Machine.execHznRd h f s
  | .hznWr h f => Sys2Proof.Machine.execHznWr h f s
  | .lnkSt h f => Sys2Proof.Machine.execLnkSt h f s
  | .lnkRate h f => Sys2Proof.Machine.execLnkRate h f s
  | .vadd h f => Sys2Proof.Machine.execVadd h f s
  | .vsub h f => Sys2Proof.Machine.execVsub h f s
  | .vmul h f => Sys2Proof.Machine.execVmul h f s
  | .vfma h f => Sys2Proof.Machine.execVfma h f s
  | .vfms h f => Sys2Proof.Machine.execVfms h f s
  | .vfnma h f => Sys2Proof.Machine.execVfnma h f s
  | .vmax h f => Sys2Proof.Machine.execVmax h f s
  | .vmin h f => Sys2Proof.Machine.execVmin h f s
  | .vabs h f => Sys2Proof.Machine.execVabs h f s
  | .vneg h f => Sys2Proof.Machine.execVneg h f s
  | .vdiv h f => Sys2Proof.Machine.execVdiv h f s
  | .vsqrt h f => Sys2Proof.Machine.execVsqrt h f s
  | .vexp2 h f => Sys2Proof.Machine.execVexp2 h f s
  | .vexp h f => Sys2Proof.Machine.execVexp h f s
  | .vscale h f => Sys2Proof.Machine.execVscale h f s
  | .viadd h f => Sys2Proof.Machine.execViadd h f s
  | .visub h f => Sys2Proof.Machine.execVisub h f s
  | .vimul h f => Sys2Proof.Machine.execVimul h f s
  | .vimax h f => Sys2Proof.Machine.execVimax h f s
  | .vimin h f => Sys2Proof.Machine.execVimin h f s
  | .vand h f => Sys2Proof.Machine.execVand h f s
  | .vor h f => Sys2Proof.Machine.execVor h f s
  | .vxor h f => Sys2Proof.Machine.execVxor h f s
  | .vshl h f => Sys2Proof.Machine.execVshl h f s
  | .vshr h f => Sys2Proof.Machine.execVshr h f s
  | .vsra h f => Sys2Proof.Machine.execVsra h f s
  | .vcmp h f => Sys2Proof.Machine.execVcmp h f s
  | .vicmp h f => Sys2Proof.Machine.execVicmp h f s
  | .vsel h f => Sys2Proof.Machine.execVsel h f s
  | .viota h f => Sys2Proof.Machine.execViota h f s
  | .vpopc h f => Sys2Proof.Machine.execVpopc h f s
  | .vcvt h f => Sys2Proof.Machine.execVcvt h f s
  | .vpack h f => Sys2Proof.Machine.execVpack h f s
  | .vunpack h f => Sys2Proof.Machine.execVunpack h f s
  | .vperm h f => Sys2Proof.Machine.execVperm h f s
  | .vrot h f => Sys2Proof.Machine.execVrot h f s
  | .vbcast h f => Sys2Proof.Machine.execVbcast h f s
  | .vmov h f => Sys2Proof.Machine.execVmov h f s
  | .vclr h f => Sys2Proof.Machine.execVclr h f s
  | .vins h f => Sys2Proof.Machine.execVins h f s
  | .vext h f => Sys2Proof.Machine.execVext h f s
  | .vrmax h f => Sys2Proof.Machine.execVrmax h f s
  | .vrmin h f => Sys2Proof.Machine.execVrmin h f s
  | .vrsum h f => Sys2Proof.Machine.execVrsum h f s
  | .vrargmax h f => Sys2Proof.Machine.execVrargmax h f s
  | .mbeat h f => Sys2Proof.Machine.execMbeat h f s
  | .mshift h f => Sys2Proof.Machine.execMshift h f s
  | .mdrain h f => Sys2Proof.Machine.execMdrain h f s
  | .mdrainc h f => Sys2Proof.Machine.execMdrainc h f s
  | .mwload h f => Sys2Proof.Machine.execMwload h f s
  | .mbscale h f => Sys2Proof.Machine.execMbscale h f s
  | .mcfg h f => Sys2Proof.Machine.execMcfg h f s
  | .mseed h f => Sys2Proof.Machine.execMseed h f s
  | .mclr h f => Sys2Proof.Machine.execMclr h f s
  | .mexp h f => Sys2Proof.Machine.execMexp h f s
  | .mexpw h f => Sys2Proof.Machine.execMexpw h f s
  | .msat h f => Sys2Proof.Machine.execMsat h f s
  | .mstat h f => Sys2Proof.Machine.execMstat h f s
  | .mwait h => Sys2Proof.Machine.execMwait h s
  | .ldl h f => Sys2Proof.Machine.execLdl h f s
  | .stl h f => Sys2Proof.Machine.execStl h f s
  | .ldlV h f => Sys2Proof.Machine.execLdlV h f s
  | .stlV h f => Sys2Proof.Machine.execStlV h f s
  | .ldc h f => Sys2Proof.Machine.execLdc h f s
  | .stc h f => Sys2Proof.Machine.execStc h f s
  | .ldcV h f => Sys2Proof.Machine.execLdcV h f s
  | .stcV h f => Sys2Proof.Machine.execStcV h f s
  | .ldd h f => Sys2Proof.Machine.execLdd h f s
  | .std h f => Sys2Proof.Machine.execStd h f s
  | .lddV h f => Sys2Proof.Machine.execLddV h f s
  | .stdV h f => Sys2Proof.Machine.execStdV h f s
  | .ldm h f => Sys2Proof.Machine.execLdm h f s
  | .stm h f => Sys2Proof.Machine.execStm h f s
  | .ldmV h f => Sys2Proof.Machine.execLdmV h f s
  | .stmV h f => Sys2Proof.Machine.execStmV h f s
  | .ldn h f => Sys2Proof.Machine.execLdn h f s
  | .stn h f => Sys2Proof.Machine.execStn h f s
  | .ldnV h f => Sys2Proof.Machine.execLdnV h f s
  | .stnV h f => Sys2Proof.Machine.execStnV h f s
  | .ldh h f => Sys2Proof.Machine.execLdh h f s
  | .sth h f => Sys2Proof.Machine.execSth h f s
  | .ldhV h f => Sys2Proof.Machine.execLdhV h f s
  | .sthV h f => Sys2Proof.Machine.execSthV h f s
  | .drain h f => Sys2Proof.Machine.execDrain h f s
  | .fence h f => Sys2Proof.Machine.execFence h f s
  | .cpy h f => Sys2Proof.Machine.execCpy h f s
  | .ecmd h f => Sys2Proof.Machine.execEcmd h f s
  | .qfence h f => Sys2Proof.Machine.execQfence h f s
  | .salloc h f => Sys2Proof.Machine.execSalloc h f s
  | .pfm h f => Sys2Proof.Machine.execPfm h f s
  | .mqcnt h f => Sys2Proof.Machine.execMqcnt h f s
  | .barInit h f => Sys2Proof.Machine.execBarInit h f s
  | .barArr h f => Sys2Proof.Machine.execBarArr h f s
  | .barExp h f => Sys2Proof.Machine.execBarExp h f s
  | .barCred h f => Sys2Proof.Machine.execBarCred h f s
  | .barWait h f => Sys2Proof.Machine.execBarWait h f s
  | .barTest h f => Sys2Proof.Machine.execBarTest h f s
  | .barBrk h f => Sys2Proof.Machine.execBarBrk h f s
  | .mcast h f => Sys2Proof.Machine.execMcast h f s
  | .amo h f => Sys2Proof.Machine.execAmo h f s
  | .amocas h f => Sys2Proof.Machine.execAmocas h f s
  | .ared h f => Sys2Proof.Machine.execAred h f s
  | .amof h f => Sys2Proof.Machine.execAmof h f s
  | .aredf h f => Sys2Proof.Machine.execAredf h f s
  | .amotOpen h f => Sys2Proof.Machine.execAmotOpen h f s
  | .amotSkip h f => Sys2Proof.Machine.execAmotSkip h f s
  | .drainT h f => Sys2Proof.Machine.execDrainT h f s
  | .pseq h f => Sys2Proof.Machine.execPseq h f s
  | .pflush h f => Sys2Proof.Machine.execPflush h f s
  | .rdig h f => Sys2Proof.Machine.execRdig h f s
  | .rcmp h f => Sys2Proof.Machine.execRcmp h f s
  | .deliveryVisible ctx => Sys2Proof.Machine.execDeliveryVisible ctx s
  | .landingDataArrival req r => Sys2Proof.Machine.execLandingDataArrival req r s
  | .queueDeadlock ctx => Sys2Proof.Machine.execQueueDeadlock ctx s
  | .joinRendezvous ctx => Sys2Proof.Machine.execJoinRendezvous ctx s
  | .taskComplete ctx => Sys2Proof.Machine.execTaskComplete ctx s
  | .gateLift ctx => Sys2Proof.Machine.execGateLift ctx s
  | .deferredStoreFault req cause => Sys2Proof.Machine.execDeferredStoreFault req cause s
  | .asyncCauseOffer ctx => Sys2Proof.Machine.execAsyncCauseOffer ctx s
  | .homeAccessApply req => Sys2Proof.Machine.execHomeAccessApply req s
  | .egressBufferDrain req => Sys2Proof.Machine.execEgressBufferDrain req s
  | .flushMarkerGather ctx die => Sys2Proof.Machine.execFlushMarkerGather ctx die s
  | .flushCompletion ctx => Sys2Proof.Machine.execFlushCompletion ctx s
  | .moverCommandStart ctx q => Sys2Proof.Machine.execMoverCommandStart ctx q s
  | .copy cmd => Sys2Proof.Machine.execCopy cmd s
  | .gather cmd => Sys2Proof.Machine.execGather cmd s
  | .i2c cmd => Sys2Proof.Machine.execI2c cmd s
  | .fill cmd => Sys2Proof.Machine.execFill cmd s
  | .qfenceCommand cmd => Sys2Proof.Machine.execQfenceCommand cmd s
  | .mcastCommand cmd => Sys2Proof.Machine.execMcastCommand cmd s
  | .commandComplete cmd => Sys2Proof.Machine.execCommandComplete cmd s
  | .barrierEventApply req => Sys2Proof.Machine.execBarrierEventApply req s
  | .engineCredit cmd => Sys2Proof.Machine.execEngineCredit cmd s
  | .routerMerge req other => Sys2Proof.Machine.execRouterMerge req other s
  | .atomicHomeApply req => Sys2Proof.Machine.execAtomicHomeApply req s
  | .ticketRequestArrival req => Sys2Proof.Machine.execTicketRequestArrival req s
  | .retryResend req => Sys2Proof.Machine.execRetryResend req s
  | .gapTimerExpiry win => Sys2Proof.Machine.execGapTimerExpiry win s
  | .preemptionRequest ctx => Sys2Proof.Machine.execPreemptionRequest ctx s
  | .contextSave ctx => Sys2Proof.Machine.execContextSave ctx s
  | .contextResume ctx => Sys2Proof.Machine.execContextResume ctx s
  | .doorbell die r => Sys2Proof.Machine.execDoorbell die r s
  | .launchAdmit launch => Sys2Proof.Machine.execLaunchAdmit launch s
  | .schedulingStep die => Sys2Proof.Machine.execSchedulingStep die s
  | .instanceStart ctx => Sys2Proof.Machine.execInstanceStart ctx s
  | .instanceEnd ctx => Sys2Proof.Machine.execInstanceEnd ctx s
  | .gangResume gang => Sys2Proof.Machine.execGangResume gang s
  | .turnChange die pcore => Sys2Proof.Machine.execTurnChange die pcore s
  | .powerThrottle gang cycles => Sys2Proof.Machine.execPowerThrottle gang cycles s
  | .twinRunEnd run => Sys2Proof.Machine.execTwinRunEnd run s
  | .containmentOffer => Sys2Proof.Machine.execContainmentOffer s
  | .xinvWrite ctx v => Sys2Proof.Machine.execXinvWrite ctx v s
  | .escWrite ctx v => Sys2Proof.Machine.execEscWrite ctx v s
  | .decodeRegionEnable die n v => Sys2Proof.Machine.execDecodeRegionEnable die n v s
  | .decodeRegionDisable die n v => Sys2Proof.Machine.execDecodeRegionDisable die n v s
  | .decodeFill die n vec seg => Sys2Proof.Machine.execDecodeFill die n vec seg s
  | .heddleWrite die l v => Sys2Proof.Machine.execHeddleWrite die l v s
  | .savepoolWrite die v => Sys2Proof.Machine.execSavepoolWrite die v s
  | .hsliceWrite die v => Sys2Proof.Machine.execHsliceWrite die v s
  | .atpoolWrite die v => Sys2Proof.Machine.execAtpoolWrite die v s
  | .lnkCtlWrite link v => Sys2Proof.Machine.execLnkCtlWrite link v s
  | .fabNodeWrite v => Sys2Proof.Machine.execFabNodeWrite v s
  | .peerEntWrite v => Sys2Proof.Machine.execPeerEntWrite v s
  | .replCtlWrite v => Sys2Proof.Machine.execReplCtlWrite v s
  | .registerWrite ctx crn v => Sys2Proof.Machine.execRegisterWrite ctx crn v s
  | .deskewEpoch => Sys2Proof.Machine.execDeskewEpoch s
  | .flitReplay link => Sys2Proof.Machine.execFlitReplay link s
  | .laneFail link module up => Sys2Proof.Machine.execLaneFail link module up s
  | .retrain link step t => Sys2Proof.Machine.execRetrain link step t s
  | .replayWindowStepDown link step => Sys2Proof.Machine.execReplayWindowStepDown link step s
  | .dieReset die reason => Sys2Proof.Machine.execDieReset die reason s
  | .quiesce die other => Sys2Proof.Machine.execQuiesce die other s
  | .dieRejoin r => Sys2Proof.Machine.execDieRejoin r s
  | .completionRecord die => Sys2Proof.Machine.execCompletionRecord die s
  | .cmplHeadWrite die off v => Sys2Proof.Machine.execCmplHeadWrite die off v s
  | .flushReadComplete die => Sys2Proof.Machine.execFlushReadComplete die s
  | .ctxOpen id policy xroot kek => Sys2Proof.Machine.execCtxOpen id policy xroot kek s
  | .ctxClose id => Sys2Proof.Machine.execCtxClose id s
  | .upload id g => Sys2Proof.Machine.execUpload id g s
  | .free gid => Sys2Proof.Machine.execFree gid s
  | .keyLoad id slot wrapped => Sys2Proof.Machine.execKeyLoad id slot wrapped s
  | .keyClear id slot => Sys2Proof.Machine.execKeyClear id slot s
  | .resetDie die => Sys2Proof.Machine.execResetDie die s
  | .retirePage pa => Sys2Proof.Machine.execRetirePage pa s
  | .fwStage image dies => Sys2Proof.Machine.execFwStage image dies s
  | .fwSwitch => Sys2Proof.Machine.execFwSwitch s
  | .attest nonce dst => Sys2Proof.Machine.execAttest nonce dst s
  | .logRead a b dst => Sys2Proof.Machine.execLogRead a b dst s
  | .journalClear step => Sys2Proof.Machine.execJournalClear step s
  | .handlerLoad die image => Sys2Proof.Machine.execHandlerLoad die image s
  | .packagePowerUp b => Sys2Proof.Machine.execPackagePowerUp b s
  | .errorLogAppend => Sys2Proof.Machine.execErrorLogAppend s
  | .timeLogEntry die => Sys2Proof.Machine.execTimeLogEntry die s
  | .memoryError die unit loc corrected => Sys2Proof.Machine.execMemoryError die unit loc corrected s
  | .lauter cmd => Sys2Proof.Machine.execLauter cmd s
  | .lauterMaskPoll cmd => Sys2Proof.Machine.execLauterMaskPoll cmd s
  | .lauterForward cmd => Sys2Proof.Machine.execLauterForward cmd s
  | .mailboxPlace req => Sys2Proof.Machine.execMailboxPlace req s
  | .kvopRegister cmd => Sys2Proof.Machine.execKvopRegister cmd s
  | .kvopOpen cmd => Sys2Proof.Machine.execKvopOpen cmd s
  | .kvopSeal cmd => Sys2Proof.Machine.execKvopSeal cmd s
  | .kvopFork cmd => Sys2Proof.Machine.execKvopFork cmd s
  | .kvopRelease cmd => Sys2Proof.Machine.execKvopRelease cmd s
  | .kvopResolve cmd => Sys2Proof.Machine.execKvopResolve cmd s
  | .kvopTrunc cmd => Sys2Proof.Machine.execKvopTrunc cmd s
  | .kvopTagrd cmd => Sys2Proof.Machine.execKvopTagrd cmd s
  | .kvopDone cmd => Sys2Proof.Machine.execKvopDone cmd s
  | .kvopRebuild cmd => Sys2Proof.Machine.execKvopRebuild cmd s
  | .kvFaultReport die n vec seg cause => Sys2Proof.Machine.execKvFaultReport die n vec seg cause s
  | .rebuildInject handle => Sys2Proof.Machine.execRebuildInject handle s
  | .coll cmd ranks => Sys2Proof.Machine.execColl cmd ranks s
  | .peerRequestApply node r => Sys2Proof.Machine.execPeerRequestApply node r s
  | .fabricFlushMarker node m => Sys2Proof.Machine.execFabricFlushMarker node m s
  | .nodeUnreachable node => Sys2Proof.Machine.execNodeUnreachable node s
  | .replicaPairArrival step digest => Sys2Proof.Machine.execReplicaPairArrival step digest s
  | .llcSliceRetire die slice => Sys2Proof.Machine.execLlcSliceRetire die slice s
  | .hostAccessTimeout req => Sys2Proof.Machine.execHostAccessTimeout req s

end Sys2Proof.Machine
end

