-- ==== Sys2Proof/Decode.lean ====
section
/-! DEFINITION. Decoding a 64-bit slot word in a cluster, total and rejecting by name, and the encoder (R39 to R61, R64). -/

namespace Sys2Proof

/-- Why a word is no instruction; every reason raises ILLEGAL_OP (R64). -/
inductive DecodeError where
  | unassigned
  | mustBeZero
  | reservedValue
  deriving DecidableEq, Repr

/-- The `n` bits of a word from bit `lo` upward. -/
def fld (w : Word) (lo n : Nat) : BitVec n := BitVec.ofNat n (w.toNat / 2 ^ lo)

/-- The `n` bits of a word from bit `lo` upward are zero. -/
def zeros (w : Word) (lo n : Nat) : Bool := w.toNat / 2 ^ lo % 2 ^ n == 0

/-- The header fields S, N and G (R39). -/
def parseHdr (w : Word) : Hdr := ⟨fld w 63 1 == 1, fld w 62 1 == 1, fld w 59 3⟩

/-- The opcode field (R39). -/
def opField (w : Word) : Nat := (fld w 52 7).toNat

/-- Format Z has no field (R46). -/
def parseZ (w : Word) : Option Unit := if zeros w 0 52 then some () else none

/-- Reads format D, its must-be-zero ranges zero (R46, R47). -/
def parseD (w : Word) : Option FmtD :=
  if zeros w 0 40 then
    some ⟨fld w 46 6, fld w 40 6⟩
  else none

/-- Reads format S1, its must-be-zero ranges zero (R46, R47). -/
def parseS1 (w : Word) : Option FmtS1 :=
  if zeros w 0 36 && zeros w 40 12 then
    some ⟨fld w 36 4⟩
  else none

/-- Reads format S2, its must-be-zero ranges zero (R46, R47). -/
def parseS2 (w : Word) : Option FmtS2 :=
  if zeros w 0 32 && zeros w 40 12 then
    some ⟨fld w 36 4, fld w 32 4⟩
  else none

/-- Reads format R1, its must-be-zero ranges zero (R46, R47). -/
def parseR1 (w : Word) : Option FmtR1 :=
  if zeros w 0 36 then
    some ⟨fld w 46 6, fld w 40 6, fld w 36 4⟩
  else none

/-- Reads format RR, its must-be-zero ranges zero (R46, R47). -/
def parseRR (w : Word) : Option FmtRR :=
  if zeros w 8 24 then
    some ⟨fld w 46 6, fld w 40 6, fld w 36 4, fld w 32 4, fld w 0 8⟩
  else none

/-- Reads format RI (R46). -/
def parseRI (w : Word) : Option FmtRI :=
  some ⟨fld w 46 6, fld w 40 6, fld w 36 4, fld w 32 4, fld w 0 32⟩

/-- Reads format LI, its must-be-zero ranges zero (R46, R47). -/
def parseLI (w : Word) : Option FmtLI :=
  if zeros w 32 8 then
    some ⟨fld w 46 6, fld w 40 6, fld w 0 32⟩
  else none

/-- Reads format Q, its must-be-zero ranges zero (R46, R47). -/
def parseQ (w : Word) : Option FmtQ :=
  if zeros w 0 32 && zeros w 36 4 then
    some ⟨fld w 46 6, fld w 40 6, fld w 32 4⟩
  else none

/-- Reads format CR, its must-be-zero ranges zero (R46, R47). -/
def parseCR (w : Word) : Option FmtCR :=
  if zeros w 12 24 then
    some ⟨fld w 46 6, fld w 40 6, fld w 36 4, fld w 0 12⟩
  else none

/-- Reads format BR, its must-be-zero ranges zero (R46, R47). -/
def parseBR (w : Word) : Option FmtBR :=
  if zeros w 24 22 then
    some ⟨fld w 46 6, fld w 0 24⟩
  else none

/-- Reads format LP, its must-be-zero ranges zero (R46, R47). -/
def parseLP (w : Word) : Option FmtLP :=
  if zeros w 44 7 then
    some ⟨fld w 51 1, fld w 40 4, fld w 24 16, fld w 0 24⟩
  else none

/-- Reads format PL, its must-be-zero ranges zero (R46, R47). -/
def parsePL (w : Word) : Option FmtPL :=
  if zeros w 0 41 then
    some ⟨fld w 49 3, fld w 46 3, fld w 43 3, fld w 42 1, fld w 41 1⟩
  else none

/-- Reads format PW, its must-be-zero ranges zero (R46, R47). -/
def parsePW (w : Word) : Option FmtPW :=
  if zeros w 7 29 && zeros w 40 12 then
    some ⟨fld w 36 4, fld w 0 7⟩
  else none

/-- Reads format TR, its must-be-zero ranges zero (R46, R47). -/
def parseTR (w : Word) : Option FmtTR :=
  if zeros w 16 36 then
    some ⟨fld w 0 16⟩
  else none

/-- Reads format FK, its must-be-zero ranges zero (R46, R47). -/
def parseFK (w : Word) : Option FmtFK :=
  if zeros w 48 1 then
    some ⟨fld w 51 1, fld w 50 1, fld w 49 1, fld w 32 16, fld w 16 16, fld w 0 16⟩
  else none

/-- Reads format V3 (R50). -/
def parseV3 (w : Word) : Option FmtV3 :=
  some ⟨fld w 37 15, fld w 22 15, fld w 7 15, fld w 5 2, fld w 2 3, fld w 0 2⟩

/-- Reads format VR, its must-be-zero ranges zero (R50, R47). -/
def parseVR (w : Word) : Option FmtVR :=
  if zeros w 7 11 && zeros w 37 3 then
    some ⟨fld w 46 6, fld w 40 6, fld w 22 15, fld w 18 4, fld w 5 2, fld w 2 3, fld w 0 2⟩
  else none

/-- Reads format VS, its must-be-zero ranges zero (R50, R47). -/
def parseVS (w : Word) : Option FmtVS :=
  if zeros w 7 7 then
    some ⟨fld w 37 15, fld w 22 15, fld w 18 4, fld w 14 4, fld w 5 2, fld w 2 3, fld w 0 2⟩
  else none

/-- Reads format VCV, its must-be-zero ranges zero (R50, R47). -/
def parseVCV (w : Word) : Option FmtVCV :=
  if zeros w 7 5 then
    some ⟨fld w 37 15, fld w 22 15, fld w 17 5, fld w 12 5, fld w 5 2, fld w 2 3, fld w 0 2⟩
  else none

/-- Reads format MB, its must-be-zero ranges zero (R53, R47). -/
def parseMB (w : Word) : Option FmtMB :=
  if zeros w 0 11 then
    some ⟨fld w 51 1, fld w 50 1, fld w 42 8, fld w 41 1, fld w 37 4, fld w 36 1, fld w 28 8, fld w 13 15, fld w 11 2⟩
  else none

/-- Reads format MD, its must-be-zero ranges zero (R53, R47). -/
def parseMD (w : Word) : Option FmtMD :=
  if zeros w 0 11 && zeros w 36 16 then
    some ⟨fld w 28 8, fld w 13 15, fld w 11 2⟩
  else none

/-- Reads format MW, its must-be-zero ranges zero (R53, R47). -/
def parseMW (w : Word) : Option FmtMW :=
  if zeros w 0 37 && zeros w 41 1 then
    some ⟨fld w 51 1, fld w 44 7, fld w 42 2, fld w 37 4⟩
  else none

/-- Reads format MC, its must-be-zero ranges zero (R53, R47). -/
def parseMC (w : Word) : Option FmtMC :=
  if zeros w 0 43 then
    some ⟨fld w 50 2, fld w 48 2, fld w 47 1, fld w 45 2, fld w 43 2⟩
  else none

/-- Reads format MA, its must-be-zero ranges zero (R53, R47). -/
def parseMA (w : Word) : Option FmtMA :=
  if zeros w 0 34 && zeros w 50 2 then
    some ⟨fld w 42 8, fld w 34 8⟩
  else none

/-- Reads format MX, its must-be-zero ranges zero (R53, R47). -/
def parseMX (w : Word) : Option FmtMX :=
  if zeros w 8 28 then
    some ⟨fld w 46 6, fld w 40 6, fld w 36 4, fld w 0 8⟩
  else none

/-- Reads format LD, its must-be-zero ranges zero (R54, R47). -/
def parseLD (w : Word) : Option FmtLD :=
  if zeros w 0 4 then
    some ⟨fld w 46 6, fld w 40 6, fld w 36 4, fld w 32 4, fld w 12 20, fld w 10 2, fld w 9 1, fld w 7 2, fld w 4 3⟩
  else none

/-- Reads format ST, its must-be-zero ranges zero (R54, R47). -/
def parseST (w : Word) : Option FmtST :=
  if zeros w 0 4 && zeros w 9 1 && zeros w 12 20 && zeros w 40 12 then
    some ⟨fld w 36 4, fld w 32 4, fld w 10 2, fld w 7 2, fld w 4 3⟩
  else none

/-- Reads format LDV, its must-be-zero ranges zero (R54, R47). -/
def parseLDV (w : Word) : Option FmtLDV :=
  if zeros w 0 4 then
    some ⟨fld w 37 15, fld w 33 4, fld w 29 4, fld w 9 20, fld w 7 2, fld w 4 3⟩
  else none

/-- Reads format STV, its must-be-zero ranges zero (R54, R47). -/
def parseSTV (w : Word) : Option FmtSTV :=
  if zeros w 0 4 && zeros w 9 24 then
    some ⟨fld w 37 15, fld w 33 4, fld w 7 2, fld w 4 3⟩
  else none

/-- Reads format DR, its must-be-zero ranges zero (R54, R47). -/
def parseDR (w : Word) : Option FmtDR :=
  if zeros w 6 46 then
    some ⟨fld w 0 6⟩
  else none

/-- Reads format FN, its must-be-zero ranges zero (R54, R47). -/
def parseFN (w : Word) : Option FmtFN :=
  if zeros w 0 37 then
    some ⟨fld w 46 6, fld w 40 6, fld w 37 3⟩
  else none

/-- Reads format CP, its must-be-zero ranges zero (R54, R47). -/
def parseCP (w : Word) : Option FmtCP :=
  if zeros w 24 8 && zeros w 46 4 then
    some ⟨fld w 50 2, fld w 45 1, fld w 43 2, fld w 42 1, fld w 40 2, fld w 36 4, fld w 32 4, fld w 0 24⟩
  else none

/-- Reads format EC, its must-be-zero ranges zero (R54, R47). -/
def parseEC (w : Word) : Option FmtEC :=
  if zeros w 24 8 then
    some ⟨fld w 48 4, fld w 46 2, fld w 45 1, fld w 43 2, fld w 42 1, fld w 40 2, fld w 36 4, fld w 32 4, fld w 0 24⟩
  else none

/-- Reads format QF, its must-be-zero ranges zero (R54, R47). -/
def parseQF (w : Word) : Option FmtQF :=
  if zeros w 0 48 then
    some ⟨fld w 48 4⟩
  else none

/-- Reads format AM (R54). -/
def parseAM (w : Word) : Option FmtAM :=
  some ⟨fld w 46 6, fld w 40 6, fld w 36 4, fld w 32 4, fld w 12 20, fld w 10 2, fld w 7 3, fld w 3 4, fld w 2 1, fld w 0 2⟩

/-- An instruction from a payload, or the must-be-zero error. -/
def ofPayload {α : Type} (p : Option α) (mk : α → Instr) : Except DecodeError Instr :=
  match p with
  | none => .error .mustBeZero
  | some a => .ok (mk a)

/-- The instruction of an opcode of the common set (R57). -/
def decodeCommon (op : Nat) (h : Hdr) (w : Word) : Except DecodeError Instr :=
  match op with
  | 0x00 => ofPayload (parseZ w) fun _ => .nop h
  | 0x01 => ofPayload (parseRR w) (.add h)
  | 0x02 => ofPayload (parseRR w) (.sub h)
  | 0x03 => ofPayload (parseRR w) (.andW h)
  | 0x04 => ofPayload (parseRR w) (.orW h)
  | 0x05 => ofPayload (parseRR w) (.xorW h)
  | 0x06 => ofPayload (parseRR w) (.andn h)
  | 0x07 => ofPayload (parseRR w) (.shl h)
  | 0x08 => ofPayload (parseRR w) (.shr h)
  | 0x09 => ofPayload (parseRR w) (.sra h)
  | 0x0A => ofPayload (parseRR w) (.rot h)
  | 0x0B => ofPayload (parseRR w) (.cmp h)
  | 0x0C => ofPayload (parseRR w) (.sel h)
  | 0x0D => ofPayload (parseR1 w) (.mov h)
  | 0x0E => ofPayload (parseR1 w) (.clz h)
  | 0x0F => ofPayload (parseR1 w) (.popc h)
  | 0x10 => ofPayload (parseRI w) (.addi h)
  | 0x11 => ofPayload (parseRI w) (.andi h)
  | 0x12 => ofPayload (parseRI w) (.ori h)
  | 0x13 => ofPayload (parseRI w) (.xori h)
  | 0x14 => ofPayload (parseRI w) (.shli h)
  | 0x15 => ofPayload (parseRI w) (.shri h)
  | 0x16 => ofPayload (parseRI w) (.srai h)
  | 0x17 => ofPayload (parseRI w) (.roti h)
  | 0x18 => ofPayload (parseRI w) (.cmpi h)
  | 0x19 => ofPayload (parseLI w) (.li h)
  | 0x1A => ofPayload (parseRI w) (.lih h)
  | 0x1B => ofPayload (parseRI w) (.ext h)
  | 0x20 => ofPayload (parsePL w) (.pand h)
  | 0x21 => ofPayload (parsePL w) (.por h)
  | 0x22 => ofPayload (parsePL w) (.pxor h)
  | 0x23 => ofPayload (parseD w) (.prd h)
  | 0x24 => ofPayload (parsePW w) (.pwr h)
  | 0x28 => ofPayload (parseBR w) (.br h)
  | 0x29 => ofPayload (parseBR w) (.jal h)
  | 0x2A => ofPayload (parseS2 w) (.jr h)
  | 0x2B => ofPayload (parseZ w) fun _ => .ret h
  | 0x2C => ofPayload (parseLP w) (.loop h)
  | 0x2D => ofPayload (parseLP w) (.loopi h)
  | 0x2E => ofPayload (parseLP w) (.lend h)
  | 0x30 => ofPayload (parseQ w) (.qcnt h)
  | 0x31 => ofPayload (parseCR w) (.crr h)
  | 0x32 => ofPayload (parseZ w) fun _ => .join h
  | 0x33 => ofPayload (parseTR w) (.trap h)
  | 0x34 => ofPayload (parseZ w) fun _ => .halt h
  | _ => .error .unassigned

/-- The instruction of an opcode of the C-specific opcodes (R58). -/
def decodeC (op : Nat) (h : Hdr) (w : Word) : Except DecodeError Instr :=
  match op with
  | 0x40 => ofPayload (parseRR w) (.mul h)
  | 0x41 => ofPayload (parseRR w) (.mulh h)
  | 0x42 => ofPayload (parseRR w) (.mulhu h)
  | 0x43 => ofPayload (parseRR w) (.div h)
  | 0x44 => ofPayload (parseRR w) (.divu h)
  | 0x45 => ofPayload (parseRR w) (.rem h)
  | 0x46 => ofPayload (parseRR w) (.remu h)
  | 0x47 => ofPayload (parseRI w) (.muli h)
  | 0x48 => ofPayload (parseFK w) (.fork h)
  | 0x49 => ofPayload (parseCR w) (.crw h)
  | 0x4A => ofPayload (parseCR w) (.crrp h)
  | 0x4B => ofPayload (parseZ w) fun _ => .eret h
  | 0x4C => ofPayload (parseS2 w) (.ctxsv h)
  | 0x4D => ofPayload (parseS2 w) (.ctxld h)
  | 0x4E => ofPayload (parseZ w) fun _ => .yield h
  | 0x4F => ofPayload (parseZ w) fun _ => .exit h
  | 0x50 => ofPayload (parseRR w) (.launch h)
  | 0x51 => ofPayload (parseRR w) (.wchild h)
  | 0x52 => ofPayload (parseS2 w) (.semSig h)
  | 0x53 => ofPayload (parseRI w) (.semWait h)
  | 0x54 => ofPayload (parseS2 w) (.semInit h)
  | 0x55 => ofPayload (parseRR w) (.semRd h)
  | 0x56 => ofPayload (parseRR w) (.dgstRd h)
  | 0x57 => ofPayload (parseZ w) fun _ => .dgstClr h
  | 0x60 => ofPayload (parseS2 w) (.mbxSend h)
  | 0x61 => ofPayload (parseRR w) (.mbxRecv h)
  | 0x62 => ofPayload (parseRR w) (.mbxCnt h)
  | 0x63 => ofPayload (parseRI w) (.deskew h)
  | 0x64 => ofPayload (parseRR w) (.zlat h)
  | 0x65 => ofPayload (parseS2 w) (.propPush h)
  | 0x66 => ofPayload (parseRR w) (.propPop h)
  | 0x67 => ofPayload (parseRR w) (.hznRd h)
  | 0x68 => ofPayload (parseS2 w) (.hznWr h)
  | 0x69 => ofPayload (parseRR w) (.lnkSt h)
  | 0x6A => ofPayload (parseS2 w) (.lnkRate h)
  | _ => .error .unassigned

/-- The instruction of an opcode of the V-specific opcodes (R59). -/
def decodeV (op : Nat) (h : Hdr) (w : Word) : Except DecodeError Instr :=
  match op with
  | 0x40 => ofPayload (parseV3 w) (.vadd h)
  | 0x41 => ofPayload (parseV3 w) (.vsub h)
  | 0x42 => ofPayload (parseV3 w) (.vmul h)
  | 0x43 => ofPayload (parseV3 w) (.vfma h)
  | 0x44 => ofPayload (parseV3 w) (.vfms h)
  | 0x45 => ofPayload (parseV3 w) (.vfnma h)
  | 0x46 => ofPayload (parseV3 w) (.vmax h)
  | 0x47 => ofPayload (parseV3 w) (.vmin h)
  | 0x48 => ofPayload (parseV3 w) (.vabs h)
  | 0x49 => ofPayload (parseV3 w) (.vneg h)
  | 0x4A => ofPayload (parseV3 w) (.vdiv h)
  | 0x4B => ofPayload (parseV3 w) (.vsqrt h)
  | 0x4C => ofPayload (parseV3 w) (.vexp2 h)
  | 0x4D => ofPayload (parseV3 w) (.vexp h)
  | 0x4E => ofPayload (parseV3 w) (.vscale h)
  | 0x50 => ofPayload (parseV3 w) (.viadd h)
  | 0x51 => ofPayload (parseV3 w) (.visub h)
  | 0x52 => ofPayload (parseV3 w) (.vimul h)
  | 0x53 => ofPayload (parseV3 w) (.vimax h)
  | 0x54 => ofPayload (parseV3 w) (.vimin h)
  | 0x55 => ofPayload (parseV3 w) (.vand h)
  | 0x56 => ofPayload (parseV3 w) (.vor h)
  | 0x57 => ofPayload (parseV3 w) (.vxor h)
  | 0x58 => ofPayload (parseV3 w) (.vshl h)
  | 0x59 => ofPayload (parseV3 w) (.vshr h)
  | 0x5A => ofPayload (parseV3 w) (.vsra h)
  | 0x5B => ofPayload (parseV3 w) (.vcmp h)
  | 0x5C => ofPayload (parseV3 w) (.vicmp h)
  | 0x5D => ofPayload (parseV3 w) (.vsel h)
  | 0x5E => ofPayload (parseV3 w) (.viota h)
  | 0x5F => ofPayload (parseVR w) (.vpopc h)
  | 0x60 => ofPayload (parseVCV w) (.vcvt h)
  | 0x61 => ofPayload (parseV3 w) (.vpack h)
  | 0x62 => ofPayload (parseV3 w) (.vunpack h)
  | 0x63 => ofPayload (parseV3 w) (.vperm h)
  | 0x64 => ofPayload (parseVS w) (.vrot h)
  | 0x65 => ofPayload (parseVS w) (.vbcast h)
  | 0x66 => ofPayload (parseV3 w) (.vmov h)
  | 0x67 => ofPayload (parseV3 w) (.vclr h)
  | 0x68 => ofPayload (parseVS w) (.vins h)
  | 0x69 => ofPayload (parseVR w) (.vext h)
  | 0x6A => ofPayload (parseVR w) (.vrmax h)
  | 0x6B => ofPayload (parseVR w) (.vrmin h)
  | 0x6C => ofPayload (parseVR w) (.vrsum h)
  | 0x6D => ofPayload (parseVR w) (.vrargmax h)
  | _ => .error .unassigned

/-- The instruction of an opcode of the M-specific opcodes (R60). -/
def decodeM (op : Nat) (h : Hdr) (w : Word) : Except DecodeError Instr :=
  match op with
  | 0x40 => ofPayload (parseMB w) (.mbeat h)
  | 0x41 => ofPayload (parseMB w) (.mshift h)
  | 0x42 => ofPayload (parseMD w) (.mdrain h)
  | 0x43 => ofPayload (parseMD w) (.mdrainc h)
  | 0x44 => ofPayload (parseMW w) (.mwload h)
  | 0x45 => ofPayload (parseMW w) (.mbscale h)
  | 0x46 => ofPayload (parseMC w) (.mcfg h)
  | 0x47 => ofPayload (parseS1 w) (.mseed h)
  | 0x48 => ofPayload (parseMA w) (.mclr h)
  | 0x49 => ofPayload (parseMX w) (.mexp h)
  | 0x4A => ofPayload (parseMX w) (.mexpw h)
  | 0x4B => ofPayload (parseD w) (.msat h)
  | 0x4C => ofPayload (parseD w) (.mstat h)
  | 0x4D => ofPayload (parseZ w) fun _ => .mwait h
  | _ => .error .unassigned

/-- The instruction of an opcode of the X-specific opcodes (R61). -/
def decodeX (op : Nat) (h : Hdr) (w : Word) : Except DecodeError Instr :=
  match op with
  | 0x40 => ofPayload (parseLD w) (.ldl h)
  | 0x41 => ofPayload (parseST w) (.stl h)
  | 0x42 => ofPayload (parseLDV w) (.ldlV h)
  | 0x43 => ofPayload (parseSTV w) (.stlV h)
  | 0x44 => ofPayload (parseLD w) (.ldc h)
  | 0x45 => ofPayload (parseST w) (.stc h)
  | 0x46 => ofPayload (parseLDV w) (.ldcV h)
  | 0x47 => ofPayload (parseSTV w) (.stcV h)
  | 0x48 => ofPayload (parseLD w) (.ldd h)
  | 0x49 => ofPayload (parseST w) (.std h)
  | 0x4A => ofPayload (parseLDV w) (.lddV h)
  | 0x4B => ofPayload (parseSTV w) (.stdV h)
  | 0x4C => ofPayload (parseLD w) (.ldm h)
  | 0x4D => ofPayload (parseST w) (.stm h)
  | 0x4E => ofPayload (parseLDV w) (.ldmV h)
  | 0x4F => ofPayload (parseSTV w) (.stmV h)
  | 0x50 => ofPayload (parseLD w) (.ldn h)
  | 0x51 => ofPayload (parseST w) (.stn h)
  | 0x52 => ofPayload (parseLDV w) (.ldnV h)
  | 0x53 => ofPayload (parseSTV w) (.stnV h)
  | 0x54 => ofPayload (parseLD w) (.ldh h)
  | 0x55 => ofPayload (parseST w) (.sth h)
  | 0x56 => ofPayload (parseLDV w) (.ldhV h)
  | 0x57 => ofPayload (parseSTV w) (.sthV h)
  | 0x58 => ofPayload (parseDR w) (.drain h)
  | 0x59 => ofPayload (parseFN w) (.fence h)
  | 0x5A => ofPayload (parseCP w) (.cpy h)
  | 0x5B => ofPayload (parseEC w) (.ecmd h)
  | 0x5C => ofPayload (parseQF w) (.qfence h)
  | 0x5D => ofPayload (parseS2 w) (.salloc h)
  | 0x5E => ofPayload (parseS1 w) (.pfm h)
  | 0x5F => ofPayload (parseQ w) (.mqcnt h)
  | 0x60 => ofPayload (parseS2 w) (.barInit h)
  | 0x61 => ofPayload (parseRR w) (.barArr h)
  | 0x62 => ofPayload (parseS2 w) (.barExp h)
  | 0x63 => ofPayload (parseS2 w) (.barCred h)
  | 0x64 => ofPayload (parseRR w) (.barWait h)
  | 0x65 => ofPayload (parseRR w) (.barTest h)
  | 0x66 => ofPayload (parseS1 w) (.barBrk h)
  | 0x67 => ofPayload (parseRR w) (.mcast h)
  | 0x68 => ofPayload (parseAM w) (.amo h)
  | 0x69 => ofPayload (parseAM w) (.amocas h)
  | 0x6A => ofPayload (parseAM w) (.ared h)
  | 0x6B => ofPayload (parseAM w) (.amof h)
  | 0x6C => ofPayload (parseAM w) (.aredf h)
  | 0x6D => ofPayload (parseS2 w) (.amotOpen h)
  | 0x6E => ofPayload (parseS2 w) (.amotSkip h)
  | 0x6F => ofPayload (parseS1 w) (.drainT h)
  | 0x70 => ofPayload (parseRR w) (.pseq h)
  | 0x71 => ofPayload (parseS1 w) (.pflush h)
  | 0x72 => ofPayload (parseRR w) (.rdig h)
  | 0x73 => ofPayload (parseRR w) (.rcmp h)
  | _ => .error .unassigned

/-- The instruction of an opcode in a cluster (R42). -/
def decodeOp (cl : Cluster) (op : Nat) (h : Hdr) (w : Word) : Except DecodeError Instr :=
  if op < 0x40 then decodeCommon op h w
  else
    match cl with
    | .c => decodeC op h w
    | .v => decodeV op h w
    | .m => decodeM op h w
    | .x => decodeX op h w

/-- Decodes a word in a cluster: every one of the 2^64 words is an instruction or a named error (R64). -/
def decode (cl : Cluster) (w : Word) : Except DecodeError Instr :=
  match decodeOp cl (opField w) (parseHdr w) w with
  | .error e => .error e
  | .ok i => if wellFormed cl i then .ok i else .error .reservedValue

/-- A bit as a number. -/
def bit (b : Bool) : Nat := if b then 1 else 0

/-- The fixed frame of a slot word around a payload (R39). -/
def frame (h : Hdr) (op payload : Nat) : Word :=
  BitVec.ofNat 64 (bit h.sync * 2 ^ 63 + bit h.neg * 2 ^ 62 + h.pred.toNat * 2 ^ 59 + op * 2 ^ 52 + payload)

/-- The payload of format D (R46). -/
def packD (f : FmtD) : Nat :=
  f.d1.toNat * 2 ^ 46 + f.d2.toNat * 2 ^ 40

/-- The payload of format S1 (R46). -/
def packS1 (f : FmtS1) : Nat :=
  f.sa.toNat * 2 ^ 36

/-- The payload of format S2 (R46). -/
def packS2 (f : FmtS2) : Nat :=
  f.sa.toNat * 2 ^ 36 + f.sb.toNat * 2 ^ 32

/-- The payload of format R1 (R46). -/
def packR1 (f : FmtR1) : Nat :=
  f.d1.toNat * 2 ^ 46 + f.d2.toNat * 2 ^ 40 + f.sa.toNat * 2 ^ 36

/-- The payload of format RR (R46). -/
def packRR (f : FmtRR) : Nat :=
  f.d1.toNat * 2 ^ 46 + f.d2.toNat * 2 ^ 40 + f.sa.toNat * 2 ^ 36 + f.sb.toNat * 2 ^ 32 + f.fn.toNat

/-- The payload of format RI (R46). -/
def packRI (f : FmtRI) : Nat :=
  f.d1.toNat * 2 ^ 46 + f.d2.toNat * 2 ^ 40 + f.sa.toNat * 2 ^ 36 + f.fn.toNat * 2 ^ 32 + f.imm.toNat

/-- The payload of format LI (R46). -/
def packLI (f : FmtLI) : Nat :=
  f.d1.toNat * 2 ^ 46 + f.d2.toNat * 2 ^ 40 + f.imm.toNat

/-- The payload of format Q (R46). -/
def packQ (f : FmtQ) : Nat :=
  f.d1.toNat * 2 ^ 46 + f.d2.toNat * 2 ^ 40 + f.qs.toNat * 2 ^ 32

/-- The payload of format CR (R46). -/
def packCR (f : FmtCR) : Nat :=
  f.d1.toNat * 2 ^ 46 + f.d2.toNat * 2 ^ 40 + f.sa.toNat * 2 ^ 36 + f.crn.toNat

/-- The payload of format BR (R46). -/
def packBR (f : FmtBR) : Nat :=
  f.d1.toNat * 2 ^ 46 + f.off.toNat

/-- The payload of format LP (R46). -/
def packLP (f : FmtLP) : Nat :=
  f.lc.toNat * 2 ^ 51 + f.sa.toNat * 2 ^ 40 + f.cnt.toNat * 2 ^ 24 + f.off.toNat

/-- The payload of format PL (R46). -/
def packPL (f : FmtPL) : Nat :=
  f.pd.toNat * 2 ^ 49 + f.pa.toNat * 2 ^ 46 + f.pb.toNat * 2 ^ 43 + f.na.toNat * 2 ^ 42 + f.nb.toNat * 2 ^ 41

/-- The payload of format PW (R46). -/
def packPW (f : FmtPW) : Nat :=
  f.sa.toNat * 2 ^ 36 + f.mask.toNat

/-- The payload of format TR (R46). -/
def packTR (f : FmtTR) : Nat :=
  f.code.toNat

/-- The payload of format FK (R46). -/
def packFK (f : FmtFK) : Nat :=
  f.v.toNat * 2 ^ 51 + f.m.toNat * 2 ^ 50 + f.x.toNat * 2 ^ 49 + f.offv.toNat * 2 ^ 32 + f.offm.toNat * 2 ^ 16 + f.offx.toNat

/-- The payload of format V3 (R50). -/
def packV3 (f : FmtV3) : Nat :=
  f.vd.toNat * 2 ^ 37 + f.va.toNat * 2 ^ 22 + f.vb.toNat * 2 ^ 7 + f.ty.toNat * 2 ^ 5 + f.rm.toNat * 2 ^ 2 + f.sub.toNat

/-- The payload of format VR (R50). -/
def packVR (f : FmtVR) : Nat :=
  f.d1.toNat * 2 ^ 46 + f.d2.toNat * 2 ^ 40 + f.va.toNat * 2 ^ 22 + f.sa.toNat * 2 ^ 18 + f.ty.toNat * 2 ^ 5 + f.rm.toNat * 2 ^ 2 + f.sub.toNat

/-- The payload of format VS (R50). -/
def packVS (f : FmtVS) : Nat :=
  f.vd.toNat * 2 ^ 37 + f.va.toNat * 2 ^ 22 + f.sa.toNat * 2 ^ 18 + f.sb.toNat * 2 ^ 14 + f.ty.toNat * 2 ^ 5 + f.rm.toNat * 2 ^ 2 + f.sub.toNat

/-- The payload of format VCV (R50). -/
def packVCV (f : FmtVCV) : Nat :=
  f.vd.toNat * 2 ^ 37 + f.va.toNat * 2 ^ 22 + f.fmtd.toNat * 2 ^ 17 + f.fmts.toNat * 2 ^ 12 + f.ty.toNat * 2 ^ 5 + f.rm.toNat * 2 ^ 2 + f.sub.toNat

/-- The payload of format MB (R53). -/
def packMB (f : FmtMB) : Nat :=
  f.wb.toNat * 2 ^ 51 + f.z.toNat * 2 ^ 50 + f.acc.toNat * 2 ^ 42 + f.h.toNat * 2 ^ 41 + f.sa.toNat * 2 ^ 37 + f.dr.toNat * 2 ^ 36 + f.dacc.toNat * 2 ^ 28 + f.dt.toNat * 2 ^ 13 + f.df.toNat * 2 ^ 11

/-- The payload of format MD (R53). -/
def packMD (f : FmtMD) : Nat :=
  f.dacc.toNat * 2 ^ 28 + f.dt.toNat * 2 ^ 13 + f.df.toNat * 2 ^ 11

/-- The payload of format MW (R53). -/
def packMW (f : FmtMW) : Nat :=
  f.wb.toNat * 2 ^ 51 + f.col.toNat * 2 ^ 44 + f.half.toNat * 2 ^ 42 + f.sa.toNat * 2 ^ 37

/-- The payload of format MC (R53). -/
def packMC (f : FmtMC) : Nat :=
  f.aw.toNat * 2 ^ 50 + f.bw.toNat * 2 ^ 48 + f.sp.toNat * 2 ^ 47 + f.dens.toNat * 2 ^ 45 + f.bss.toNat * 2 ^ 43

/-- The payload of format MA (R53). -/
def packMA (f : FmtMA) : Nat :=
  f.acc.toNat * 2 ^ 42 + f.cnt.toNat * 2 ^ 34

/-- The payload of format MX (R53). -/
def packMX (f : FmtMX) : Nat :=
  f.d1.toNat * 2 ^ 46 + f.d2.toNat * 2 ^ 40 + f.sa.toNat * 2 ^ 36 + f.acc.toNat

/-- The payload of format LD (R54). -/
def packLD (f : FmtLD) : Nat :=
  f.d1.toNat * 2 ^ 46 + f.d2.toNat * 2 ^ 40 + f.sa.toNat * 2 ^ 36 + f.sb.toNat * 2 ^ 32 + f.land.toNat * 2 ^ 12 + f.sz.toNat * 2 ^ 10 + f.sx.toNat * 2 ^ 9 + f.ord.toNat * 2 ^ 7 + f.sc.toNat * 2 ^ 4

/-- The payload of format ST (R54). -/
def packST (f : FmtST) : Nat :=
  f.sa.toNat * 2 ^ 36 + f.sb.toNat * 2 ^ 32 + f.sz.toNat * 2 ^ 10 + f.ord.toNat * 2 ^ 7 + f.sc.toNat * 2 ^ 4

/-- The payload of format LDV (R54). -/
def packLDV (f : FmtLDV) : Nat :=
  f.vd.toNat * 2 ^ 37 + f.sa.toNat * 2 ^ 33 + f.sb.toNat * 2 ^ 29 + f.land.toNat * 2 ^ 9 + f.ord.toNat * 2 ^ 7 + f.sc.toNat * 2 ^ 4

/-- The payload of format STV (R54). -/
def packSTV (f : FmtSTV) : Nat :=
  f.vs.toNat * 2 ^ 37 + f.sa.toNat * 2 ^ 33 + f.ord.toNat * 2 ^ 7 + f.sc.toNat * 2 ^ 4

/-- The payload of format DR (R54). -/
def packDR (f : FmtDR) : Nat :=
  f.mask.toNat

/-- The payload of format FN (R54). -/
def packFN (f : FmtFN) : Nat :=
  f.pre.toNat * 2 ^ 46 + f.suc.toNat * 2 ^ 40 + f.sc.toNat * 2 ^ 37

/-- The payload of format CP (R54). -/
def packCP (f : FmtCP) : Nat :=
  f.mq.toNat * 2 ^ 50 + f.p1.toNat * 2 ^ 45 + f.w1.toNat * 2 ^ 43 + f.p2.toNat * 2 ^ 42 + f.w2.toNat * 2 ^ 40 + f.sa.toNat * 2 ^ 36 + f.sb.toNat * 2 ^ 32 + f.off.toNat

/-- The payload of format EC (R54). -/
def packEC (f : FmtEC) : Nat :=
  f.eng.toNat * 2 ^ 48 + f.eq.toNat * 2 ^ 46 + f.p1.toNat * 2 ^ 45 + f.w1.toNat * 2 ^ 43 + f.p2.toNat * 2 ^ 42 + f.w2.toNat * 2 ^ 40 + f.sa.toNat * 2 ^ 36 + f.sb.toNat * 2 ^ 32 + f.off.toNat

/-- The payload of format QF (R54). -/
def packQF (f : FmtQF) : Nat :=
  f.mqm.toNat * 2 ^ 48

/-- The payload of format AM (R54). -/
def packAM (f : FmtAM) : Nat :=
  f.d1.toNat * 2 ^ 46 + f.d2.toNat * 2 ^ 40 + f.sa.toNat * 2 ^ 36 + f.sb.toNat * 2 ^ 32 + f.land.toNat * 2 ^ 12 + f.ord.toNat * 2 ^ 10 + f.sc.toNat * 2 ^ 7 + f.aop.toNat * 2 ^ 3 + f.w.toNat * 2 ^ 2 + f.sp.toNat

/-- The word of a slot word; the further steps of the opcode table have none. -/
def encode : Instr → Option Word
  | .nop h => some (frame h 0x00 0)
  | .add h f => some (frame h 0x01 (packRR f))
  | .sub h f => some (frame h 0x02 (packRR f))
  | .andW h f => some (frame h 0x03 (packRR f))
  | .orW h f => some (frame h 0x04 (packRR f))
  | .xorW h f => some (frame h 0x05 (packRR f))
  | .andn h f => some (frame h 0x06 (packRR f))
  | .shl h f => some (frame h 0x07 (packRR f))
  | .shr h f => some (frame h 0x08 (packRR f))
  | .sra h f => some (frame h 0x09 (packRR f))
  | .rot h f => some (frame h 0x0A (packRR f))
  | .cmp h f => some (frame h 0x0B (packRR f))
  | .sel h f => some (frame h 0x0C (packRR f))
  | .mov h f => some (frame h 0x0D (packR1 f))
  | .clz h f => some (frame h 0x0E (packR1 f))
  | .popc h f => some (frame h 0x0F (packR1 f))
  | .addi h f => some (frame h 0x10 (packRI f))
  | .andi h f => some (frame h 0x11 (packRI f))
  | .ori h f => some (frame h 0x12 (packRI f))
  | .xori h f => some (frame h 0x13 (packRI f))
  | .shli h f => some (frame h 0x14 (packRI f))
  | .shri h f => some (frame h 0x15 (packRI f))
  | .srai h f => some (frame h 0x16 (packRI f))
  | .roti h f => some (frame h 0x17 (packRI f))
  | .cmpi h f => some (frame h 0x18 (packRI f))
  | .li h f => some (frame h 0x19 (packLI f))
  | .lih h f => some (frame h 0x1A (packRI f))
  | .ext h f => some (frame h 0x1B (packRI f))
  | .pand h f => some (frame h 0x20 (packPL f))
  | .por h f => some (frame h 0x21 (packPL f))
  | .pxor h f => some (frame h 0x22 (packPL f))
  | .prd h f => some (frame h 0x23 (packD f))
  | .pwr h f => some (frame h 0x24 (packPW f))
  | .br h f => some (frame h 0x28 (packBR f))
  | .jal h f => some (frame h 0x29 (packBR f))
  | .jr h f => some (frame h 0x2A (packS2 f))
  | .ret h => some (frame h 0x2B 0)
  | .loop h f => some (frame h 0x2C (packLP f))
  | .loopi h f => some (frame h 0x2D (packLP f))
  | .lend h f => some (frame h 0x2E (packLP f))
  | .qcnt h f => some (frame h 0x30 (packQ f))
  | .crr h f => some (frame h 0x31 (packCR f))
  | .join h => some (frame h 0x32 0)
  | .trap h f => some (frame h 0x33 (packTR f))
  | .halt h => some (frame h 0x34 0)
  | .mul h f => some (frame h 0x40 (packRR f))
  | .mulh h f => some (frame h 0x41 (packRR f))
  | .mulhu h f => some (frame h 0x42 (packRR f))
  | .div h f => some (frame h 0x43 (packRR f))
  | .divu h f => some (frame h 0x44 (packRR f))
  | .rem h f => some (frame h 0x45 (packRR f))
  | .remu h f => some (frame h 0x46 (packRR f))
  | .muli h f => some (frame h 0x47 (packRI f))
  | .fork h f => some (frame h 0x48 (packFK f))
  | .crw h f => some (frame h 0x49 (packCR f))
  | .crrp h f => some (frame h 0x4A (packCR f))
  | .eret h => some (frame h 0x4B 0)
  | .ctxsv h f => some (frame h 0x4C (packS2 f))
  | .ctxld h f => some (frame h 0x4D (packS2 f))
  | .yield h => some (frame h 0x4E 0)
  | .exit h => some (frame h 0x4F 0)
  | .launch h f => some (frame h 0x50 (packRR f))
  | .wchild h f => some (frame h 0x51 (packRR f))
  | .semSig h f => some (frame h 0x52 (packS2 f))
  | .semWait h f => some (frame h 0x53 (packRI f))
  | .semInit h f => some (frame h 0x54 (packS2 f))
  | .semRd h f => some (frame h 0x55 (packRR f))
  | .dgstRd h f => some (frame h 0x56 (packRR f))
  | .dgstClr h => some (frame h 0x57 0)
  | .mbxSend h f => some (frame h 0x60 (packS2 f))
  | .mbxRecv h f => some (frame h 0x61 (packRR f))
  | .mbxCnt h f => some (frame h 0x62 (packRR f))
  | .deskew h f => some (frame h 0x63 (packRI f))
  | .zlat h f => some (frame h 0x64 (packRR f))
  | .propPush h f => some (frame h 0x65 (packS2 f))
  | .propPop h f => some (frame h 0x66 (packRR f))
  | .hznRd h f => some (frame h 0x67 (packRR f))
  | .hznWr h f => some (frame h 0x68 (packS2 f))
  | .lnkSt h f => some (frame h 0x69 (packRR f))
  | .lnkRate h f => some (frame h 0x6A (packS2 f))
  | .vadd h f => some (frame h 0x40 (packV3 f))
  | .vsub h f => some (frame h 0x41 (packV3 f))
  | .vmul h f => some (frame h 0x42 (packV3 f))
  | .vfma h f => some (frame h 0x43 (packV3 f))
  | .vfms h f => some (frame h 0x44 (packV3 f))
  | .vfnma h f => some (frame h 0x45 (packV3 f))
  | .vmax h f => some (frame h 0x46 (packV3 f))
  | .vmin h f => some (frame h 0x47 (packV3 f))
  | .vabs h f => some (frame h 0x48 (packV3 f))
  | .vneg h f => some (frame h 0x49 (packV3 f))
  | .vdiv h f => some (frame h 0x4A (packV3 f))
  | .vsqrt h f => some (frame h 0x4B (packV3 f))
  | .vexp2 h f => some (frame h 0x4C (packV3 f))
  | .vexp h f => some (frame h 0x4D (packV3 f))
  | .vscale h f => some (frame h 0x4E (packV3 f))
  | .viadd h f => some (frame h 0x50 (packV3 f))
  | .visub h f => some (frame h 0x51 (packV3 f))
  | .vimul h f => some (frame h 0x52 (packV3 f))
  | .vimax h f => some (frame h 0x53 (packV3 f))
  | .vimin h f => some (frame h 0x54 (packV3 f))
  | .vand h f => some (frame h 0x55 (packV3 f))
  | .vor h f => some (frame h 0x56 (packV3 f))
  | .vxor h f => some (frame h 0x57 (packV3 f))
  | .vshl h f => some (frame h 0x58 (packV3 f))
  | .vshr h f => some (frame h 0x59 (packV3 f))
  | .vsra h f => some (frame h 0x5A (packV3 f))
  | .vcmp h f => some (frame h 0x5B (packV3 f))
  | .vicmp h f => some (frame h 0x5C (packV3 f))
  | .vsel h f => some (frame h 0x5D (packV3 f))
  | .viota h f => some (frame h 0x5E (packV3 f))
  | .vpopc h f => some (frame h 0x5F (packVR f))
  | .vcvt h f => some (frame h 0x60 (packVCV f))
  | .vpack h f => some (frame h 0x61 (packV3 f))
  | .vunpack h f => some (frame h 0x62 (packV3 f))
  | .vperm h f => some (frame h 0x63 (packV3 f))
  | .vrot h f => some (frame h 0x64 (packVS f))
  | .vbcast h f => some (frame h 0x65 (packVS f))
  | .vmov h f => some (frame h 0x66 (packV3 f))
  | .vclr h f => some (frame h 0x67 (packV3 f))
  | .vins h f => some (frame h 0x68 (packVS f))
  | .vext h f => some (frame h 0x69 (packVR f))
  | .vrmax h f => some (frame h 0x6A (packVR f))
  | .vrmin h f => some (frame h 0x6B (packVR f))
  | .vrsum h f => some (frame h 0x6C (packVR f))
  | .vrargmax h f => some (frame h 0x6D (packVR f))
  | .mbeat h f => some (frame h 0x40 (packMB f))
  | .mshift h f => some (frame h 0x41 (packMB f))
  | .mdrain h f => some (frame h 0x42 (packMD f))
  | .mdrainc h f => some (frame h 0x43 (packMD f))
  | .mwload h f => some (frame h 0x44 (packMW f))
  | .mbscale h f => some (frame h 0x45 (packMW f))
  | .mcfg h f => some (frame h 0x46 (packMC f))
  | .mseed h f => some (frame h 0x47 (packS1 f))
  | .mclr h f => some (frame h 0x48 (packMA f))
  | .mexp h f => some (frame h 0x49 (packMX f))
  | .mexpw h f => some (frame h 0x4A (packMX f))
  | .msat h f => some (frame h 0x4B (packD f))
  | .mstat h f => some (frame h 0x4C (packD f))
  | .mwait h => some (frame h 0x4D 0)
  | .ldl h f => some (frame h 0x40 (packLD f))
  | .stl h f => some (frame h 0x41 (packST f))
  | .ldlV h f => some (frame h 0x42 (packLDV f))
  | .stlV h f => some (frame h 0x43 (packSTV f))
  | .ldc h f => some (frame h 0x44 (packLD f))
  | .stc h f => some (frame h 0x45 (packST f))
  | .ldcV h f => some (frame h 0x46 (packLDV f))
  | .stcV h f => some (frame h 0x47 (packSTV f))
  | .ldd h f => some (frame h 0x48 (packLD f))
  | .std h f => some (frame h 0x49 (packST f))
  | .lddV h f => some (frame h 0x4A (packLDV f))
  | .stdV h f => some (frame h 0x4B (packSTV f))
  | .ldm h f => some (frame h 0x4C (packLD f))
  | .stm h f => some (frame h 0x4D (packST f))
  | .ldmV h f => some (frame h 0x4E (packLDV f))
  | .stmV h f => some (frame h 0x4F (packSTV f))
  | .ldn h f => some (frame h 0x50 (packLD f))
  | .stn h f => some (frame h 0x51 (packST f))
  | .ldnV h f => some (frame h 0x52 (packLDV f))
  | .stnV h f => some (frame h 0x53 (packSTV f))
  | .ldh h f => some (frame h 0x54 (packLD f))
  | .sth h f => some (frame h 0x55 (packST f))
  | .ldhV h f => some (frame h 0x56 (packLDV f))
  | .sthV h f => some (frame h 0x57 (packSTV f))
  | .drain h f => some (frame h 0x58 (packDR f))
  | .fence h f => some (frame h 0x59 (packFN f))
  | .cpy h f => some (frame h 0x5A (packCP f))
  | .ecmd h f => some (frame h 0x5B (packEC f))
  | .qfence h f => some (frame h 0x5C (packQF f))
  | .salloc h f => some (frame h 0x5D (packS2 f))
  | .pfm h f => some (frame h 0x5E (packS1 f))
  | .mqcnt h f => some (frame h 0x5F (packQ f))
  | .barInit h f => some (frame h 0x60 (packS2 f))
  | .barArr h f => some (frame h 0x61 (packRR f))
  | .barExp h f => some (frame h 0x62 (packS2 f))
  | .barCred h f => some (frame h 0x63 (packS2 f))
  | .barWait h f => some (frame h 0x64 (packRR f))
  | .barTest h f => some (frame h 0x65 (packRR f))
  | .barBrk h f => some (frame h 0x66 (packS1 f))
  | .mcast h f => some (frame h 0x67 (packRR f))
  | .amo h f => some (frame h 0x68 (packAM f))
  | .amocas h f => some (frame h 0x69 (packAM f))
  | .ared h f => some (frame h 0x6A (packAM f))
  | .amof h f => some (frame h 0x6B (packAM f))
  | .aredf h f => some (frame h 0x6C (packAM f))
  | .amotOpen h f => some (frame h 0x6D (packS2 f))
  | .amotSkip h f => some (frame h 0x6E (packS2 f))
  | .drainT h f => some (frame h 0x6F (packS1 f))
  | .pseq h f => some (frame h 0x70 (packRR f))
  | .pflush h f => some (frame h 0x71 (packS1 f))
  | .rdig h f => some (frame h 0x72 (packRR f))
  | .rcmp h f => some (frame h 0x73 (packRR f))
  | .deliveryVisible _ | .landingDataArrival _ _ | .queueDeadlock _ | .joinRendezvous _ | .taskComplete _
  | .gateLift _ | .deferredStoreFault _ _ | .asyncCauseOffer _ | .homeAccessApply _ | .egressBufferDrain _
  | .flushMarkerGather _ _ | .flushCompletion _ | .moverCommandStart _ _ | .copy _ | .gather _ | .i2c _ | .fill _
  | .qfenceCommand _ | .mcastCommand _ | .commandComplete _ | .barrierEventApply _ | .engineCredit _
  | .routerMerge _ _ | .atomicHomeApply _ | .ticketRequestArrival _ | .retryResend _ | .gapTimerExpiry _
  | .preemptionRequest _ | .contextSave _ | .contextResume _ | .doorbell _ _ | .launchAdmit _ | .schedulingStep _
  | .instanceStart _ | .instanceEnd _ | .gangResume _ | .turnChange _ _ | .powerThrottle _ _ | .twinRunEnd _
  | .containmentOffer | .xinvWrite _ _ | .escWrite _ _ | .decodeRegionEnable _ _ _ | .decodeRegionDisable _ _ _
  | .decodeFill _ _ _ _ | .heddleWrite _ _ _ | .savepoolWrite _ _ | .hsliceWrite _ _ | .atpoolWrite _ _
  | .lnkCtlWrite _ _ | .fabNodeWrite _ | .peerEntWrite _ | .replCtlWrite _ | .registerWrite _ _ _ | .deskewEpoch
  | .flitReplay _ | .laneFail _ _ _ | .retrain _ _ _ | .replayWindowStepDown _ _ | .dieReset _ _ | .quiesce _ _
  | .dieRejoin _ | .completionRecord _ | .cmplHeadWrite _ _ _ | .flushReadComplete _ | .ctxOpen _ _ _ _ | .ctxClose _
  | .upload _ _ | .free _ | .keyLoad _ _ _ | .keyClear _ _ | .resetDie _ | .retirePage _ | .fwStage _ _ | .fwSwitch
  | .attest _ _ | .logRead _ _ _ | .journalClear _ | .handlerLoad _ _ | .packagePowerUp _ | .errorLogAppend
  | .timeLogEntry _ | .memoryError _ _ _ _ | .lauter _ | .lauterMaskPoll _ | .lauterForward _ | .mailboxPlace _
  | .kvopRegister _ | .kvopOpen _ | .kvopSeal _ | .kvopFork _ | .kvopRelease _ | .kvopResolve _ | .kvopTrunc _
  | .kvopTagrd _ | .kvopDone _ | .kvopRebuild _ | .kvFaultReport _ _ _ _ _ | .rebuildInject _ | .coll _ _
  | .peerRequestApply _ _ | .fabricFlushMarker _ _ | .nodeUnreachable _ | .replicaPairArrival _ _
  | .llcSliceRetire _ _ | .hostAccessTimeout _ => none

/-- The instruction the decoder reads from the word with bits `w`: the clusters are tried in the order C, V, M, X, and a
shorter table entry has zero bits above it. -/
def decodeTableWord (nbits w : Nat) : Option Instr :=
  let word : Word := BitVec.ofNat 64 (w % 2 ^ nbits)
  [Cluster.c, .v, .m, .x].findSome? fun cl =>
    match decode cl word with
    | .ok i => some i
    | .error _ => none

end Sys2Proof
end

