-- ==== Sys2Proof/Machine/Service.lean ====
section
/-! DEFINITION. Fetching, the plan of a core-time cycle, what comes about by itself, and the die-time cycle (R17, R18, R33, R34, R41, R163,
logs 2 and 20). `ex` is the meaning of an instruction. -/

namespace Sys2Proof.Machine

/-- The meaning of every instruction. -/
abbrev Exec := Instr → State → Host.Outcome State Fault Refusal

/-- Goes on with the next state of an outcome. -/
def onNext (o : Host.Outcome State Fault Refusal) (f : State → State) : Host.Outcome State Fault Refusal :=
  match o with
  | .next s => .next (f s)
  | .fault r => .fault r
  | .refused r => .refused r

/-- The next state of an outcome, or the state itself. -/
def nextOr (s : State) : Host.Outcome State Fault Refusal → State
  | .next t => t
  | _ => s

/-! ### Fetching (R41, R163) -/

/-- The word with every bit set, which is ILLEGAL_OP everywhere (R42). -/
def allOnes : Word := 0xFFFFFFFFFFFFFFFF

/-- The word at the PC of a cluster, none where the PC names no code memory of it: C's handler stands at 0xE000 and above. -/
def State.fetch (s : State) (c : Ctx) (cl : Cluster) : Option Word :=
  let pc := (c.cl cl).pc.toNat
  if pc < 0xE000 then some ((c.code.get cl).getD (pc / 8) allOnes)
  else if c.inHandler && cl == .c && decide (pc < 0x10000) then some ((s.die c.who.die).handler.getD ((pc - 0xE000) / 8) allOnes)
  else none

/-- The word of the cluster in focus is fetched, decoded and executed; what cannot be fetched or decoded traps (R41, R64). -/
def State.runSlot (ex : Exec) (s : State) : Host.Outcome State Fault Refusal :=
  match s.ctx? s.focus.1 with
  | none => .next s
  | some c =>
    match s.fetch c s.focus.2 with
    | none => .next (s.takeTrap s.focus.1 (.issue causeSpaceFault s.focus.2))
    | some w =>
      match decode s.focus.2 w with
      | .error _ => .next (s.takeTrap s.focus.1 (.issue causeIllegalOp s.focus.2))
      | .ok i => ex i s

/-! ### The plan of a cycle (R17, R18, R33, R34) -/

/-- The clusters that present a word: in a handler C alone (R97, R166). -/
def Ctx.presenting (c : Ctx) : List Cluster :=
  if c.inHandler then [.c]
  else allClusters.filter fun cl =>
    match (c.cl cl).run with
    | .run | .qwait | .swait | .istall => true
    | _ => false

/-- Tries the word of one cluster: the state after it, and its verdict. -/
def State.tryOne (ex : Exec) (s : State) (k : Nat) (cl : Cluster) : State × Verdict :=
  let t := nextOr s (({ s.modCtx k fun c => { c with verdict := .none } with focus := (k, cl) }).runSlot ex)
  (t, ((t.ctx? k).map fun c => c.verdict).getD .none)

/-- Tries the words of a cycle one after the other, up to the first that traps: what each comes to, and the state after them. -/
def State.tryAll (ex : Exec) (s : State) (k : Nat) : List Cluster → List (Cluster × Verdict) × State
  | [] => ([], s)
  | cl :: l =>
    let (t, v) := s.tryOne ex k cl
    if v == .trapped then ([(cl, v)], t)
    else
      let (r, u) := t.tryAll ex k l
      ((cl, v) :: r, u)

/-- Every cluster waits for sync alone: a bundle forms (R18). -/
def bundleForms (c : Ctx) (vs : List (Cluster × Verdict)) : Bool :=
  allClusters.all fun cl => vs.contains (cl, .waiting) && (c.cl cl).run == .swait

/-- The first cluster whose word came to a verdict. -/
def firstWith (v : Verdict) (vs : List (Cluster × Verdict)) : Option Cluster := (vs.find? fun e => e.2 == v).map fun e => e.1

/-- The S bit of the word at the PC of a cluster. -/
def State.syncBit (s : State) (c : Ctx) (cl : Cluster) : Bool :=
  match s.fetch c cl with
  | none => false
  | some w => (parseHdr w).sync

/-- The halves whose core port X's word uses in this cycle, should it issue in it, in a bundle or not (R151): a word that waits uses none. -/
def State.portOfX (ex : Exec) (s : State) (k : Nat) (c : Ctx) (bundle : Bool) : List Nat :=
  if c.inHandler || !c.presenting.contains .x then []
  else (((((s.setCtx k { c with bundle := bundle }).tryOne ex k .x).1).ctx? k).map fun c => c.xPort).getD []

/-- The landing-buffer entries that the words of a cycle before that of a cluster would take, should they issue (log 57). -/
def State.claimsOf (ex : Exec) (s : State) (k : Nat) (all : List Cluster) (cl : Cluster) : Nat :=
  let n := fun t : State => ((t.ctx? k).map Ctx.lndcnt).getD 0
  n (s.tryAll ex k (all.takeWhile (· != cl))).2 - n s

/-- A context at the start of a cycle, and the slots of the cycle: the first word that faults stops the others (R33, R34); a word that
gates freezes the core; otherwise every cluster that presents a word. A cycle in which none does ends at once. -/
def State.plan (ex : Exec) (s : State) (k : Nat) (c : Ctx) : State :=
  let c := { c with phase := .issue, verdict := .none, bundle := false, xPort := [], claims := 0 }
  let all := c.presenting
  let free := s.setCtx k { c with xPort := s.portOfX ex k c false }
  let (vs, t) := free.tryAll ex k all
  let bundle := !c.inHandler && ((t.ctx? k).map fun d => bundleForms d vs).getD false && allClusters.all (s.syncBit c)
  let start := s.setCtx k { c with bundle := bundle, xPort := s.portOfX ex k c bundle }
  let vs := if bundle then (start.tryAll ex k all).1 else vs
  match firstWith .trapped vs with
  | some cl => { start.modCtx k fun c => { c with claims := start.claimsOf ex k all cl } with slots := [(k, cl)] }
  | none =>
    let slots := (firstWith .gated vs).elim all fun cl => [cl]
    if slots.isEmpty then start.endCycle k else { start with slots := slots.map fun cl => (k, cl) }

/-- The boundary of a context: what comes next there (R461, R234, R32, R139, R22), and otherwise the plan of its cycle. A context that
has ended leaves the core (R89, R102). -/
def State.boundary (ex : Exec) (s : State) (k : Nat) (c : Ctx) : State :=
  match s.atBoundary k c with
  | .raised i => (s.setCtx k { c with traps := c.traps.drop 1 }).boundaryTrap k i
  | b =>
    if c.ends && !c.inHandler then s.finishCtx k c
    else
      match b with
      | .raised _ => s
      | .async _ => nextOr s (execAsyncCauseOffer k s)
      | .gated => s.setCtx k c.hold
      | .lift => nextOr s (execGateLift k s)
      | .deadlock => nextOr s (execQueueDeadlock k s)
      | .freeze | .land => nextOr s (execDeliveryVisible k s)
      | .join => nextOr s (execJoinRendezvous k s)
      | .issue => s.plan ex k c

/-! ### What comes about by itself (log 2) -/

/-- An event with its operands, as its effect. -/
abbrev Event := State → Host.Outcome State Fault Refusal

/-- The event that moves a packet on. -/
def Packet.event (id : Nat) (p : Packet) : Option Event :=
  match p.stage with
  | .answered => some (execLandingDataArrival id ⟨[], 0⟩)
  | .retry => some (execRetryResend id)
  | .egress => some (execEgressBufferDrain id)
  | .parked => none
  | .sent =>
    some
      (match p.act with
       | .load _ | .store _ | .line _ => execHomeAccessApply id
       | .amo _ _ _ | .cas _ _ _ => execAtomicHomeApply id
       | .ticket _ _ _ _ | .winOpen _ _ | .winSkip _ => execTicketRequestArrival id
       | .mail _ _ => execMailboxPlace id
       | _ => execBarrierEventApply id)

/-- The event of a directory operation. -/
def kvEvent (id op : Nat) : Event :=
  match op with
  | 0 => execKvopRegister id
  | 1 => execKvopOpen id
  | 2 => execKvopSeal id
  | 3 => execKvopFork id
  | 4 => execKvopRelease id
  | 5 => execKvopResolve id
  | 6 => execKvopTrunc id
  | 7 => execKvopTagrd id
  | 8 => execKvopDone id
  | _ => execKvopRebuild id

/-- The event that does the next of a command's work. -/
def Cmd.event (id : Nat) (c : Cmd) : Event :=
  match c.unit with
  | .mover =>
    if !c.running then execMoverCommandStart c.ctx c.q
    else
      match kindOf c.words with
      | 1 => execCopy id
      | 2 => execMcastCommand id
      | 3 => execGather id
      | 4 => execI2c id
      | 5 => execFill id
      | _ => execQfenceCommand id
  | .coll => if c.isFence then execQfenceCommand id else execColl id []
  | .lauter => if c.die = 2 then execLauterForward id else if c.parked then execLauterMaskPoll id else execLauter id
  | .kv => kvEvent id (kvOp c.words)

/-- The events that move a command on: the next credit that it owes, the next of its work, its completion. -/
def Cmd.events (id : Nat) (c : Cmd) : List Event :=
  (if c.credits.isEmpty then [] else [execEngineCredit id]) ++ [if c.finished then execCommandComplete id else c.event id]

/-- The events of a context. -/
def Ctx.events (k : Nat) (c : Ctx) : List Event :=
  let flush :=
    match c.flushing with
    | none => [execFlushMarkerGather k 0]
    | some f => if f.sent then f.wait.map (execFlushMarkerGather k) ++ [execFlushCompletion k] else [execFlushMarkerGather k 0]
  let writes := c.holds.filterMap fun h =>
    match h with
    | .write crn v => some (execRegisterWrite k crn v)
    | _ => none
  flush ++ writes ++
    match c.status with
    | .placed => [execInstanceStart k]
    | .halted => [execContextSave k]
    | .saved => [execContextResume k]
    | .ending => [execTaskComplete k]
    | .gone => [execInstanceEnd k]
    | _ => []

/-- A die whose two links are down is isolated (R378). -/
def State.isolatedDie (s : State) (die : Nat) : Bool :=
  (range 0 3).all fun l => (linkDies l).1 ≠ die && (linkDies l).2 ≠ die || (s.link l).down

/-- A training run of a link that finds nothing new. -/
def State.sameLatency (s : State) (l : Nat) : Training :=
  ⟨[], s.zoneLat (linkDies l).1 (linkDies l).2, s.zoneLat (linkDies l).2 (linkDies l).1⟩

/-- The events of a die. -/
def State.dieEvents (s : State) (die : Nat) : List Event :=
  let d := s.die die
  (if s.isolatedDie die && !d.resetting then [execDieReset die resetIsolated] else []) ++
    (if d.resetting then (((range 0 3).filter (· ≠ die)).map (execQuiesce die)) ++ [execDieRejoin ⟨die, ⟨[], []⟩, [], (range 0 3).map s.sameLatency⟩] else []) ++
    (d.pendings.map fun p => execLaunchAdmit (launchKey die p.hseq)) ++ [execSchedulingStep die] ++
    ((range 0 (Config.ncore die)).filter fun p => decide (1 < (s.sharers die p).length)).map (execTurnChange die) ++
    [execTimeLogEntry die, execCompletionRecord die, execFlushReadComplete die]

/-- The events of windows, runs, directory entries, links and the MP. -/
def State.otherEvents (s : State) : List Event :=
  (s.cores.items.flatMap fun e => e.2.windows.keys.map fun w => execGapTimerExpiry (e.1 * 2 ^ 22 + w)) ++
    (s.dies.items.flatMap fun e => e.2.memWindows.keys.map execGapTimerExpiry) ++ s.runs.keys.map execTwinRunEnd ++
    (s.kvReports.map fun x =>
      let r := (s.die x.die).regions.getD x.region .zero
      execKvFaultReport x.die x.region (x.seg / r.segs) (x.seg % r.segs) x.cause) ++
    (s.kv.items.filterMap fun e => if e.2.injectAt.isSome || e.2.owed.isSome then some (execRebuildInject e.1) else none) ++
    ((range 0 3).flatMap fun l =>
      ((s.link l).want.take 1).map (fun r => execRetrain l ((s.link l).stepOf r) (s.sameLatency l)) ++
        (if (s.link l).stepsDown then [execReplayWindowStepDown l ((s.link l).rate - 1)] else [])) ++
    (if s.deskewing.isEmpty then [] else [execDeskewEpoch]) ++ (if s.offers.isEmpty then [] else [execContainmentOffer]) ++
    (if s.reports.isEmpty then [] else [execErrorLogAppend]) ++ [execCompletionRecord 3, execFlushReadComplete 3]

/-- The events that may come about by themselves, in the order in which they are tried: nothing that comes from outside. -/
def State.candidateEvents (s : State) : List Event :=
  (s.net.items.filterMap fun e => e.2.event e.1) ++ (s.cmds.items.flatMap fun e => e.2.events e.1) ++
    (s.ctxs.items.flatMap fun e => e.2.events e.1) ++ ((range 0 3).flatMap s.dieEvents) ++ s.otherEvents

/-- The state after the first event that changes anything. -/
def State.service (s : State) : Option State :=
  s.candidateEvents.findSome? fun e =>
    match e s with
    | .next t => if t = s then none else some t
    | _ => none

/-! ### The die-time cycle -/

/-- The gang of a context is throttled (R345). -/
def State.throttled (s : State) (k : Nat) : Bool := s.gangs.vals.any fun g => g.ctxs.contains k && decide (0 < g.throttle)

/-- A context whose core is its own runs in this die-time cycle, or is frozen by a throttle. -/
def State.wake (s : State) (k : Nat) (c : Ctx) : Ctx :=
  if c.status ≠ .live || !s.hasTurn c.who.die c.who.lcore then c
  else if s.throttled k then c.frozen
  else { c with phase := .boundary }

/-- The next die-time cycle begins on every die (R5, R367); in each the save areas note the conditions that have come to hold (R238). -/
def State.tick (s : State) : State :=
  let s := (s.ctxs.items.filterMap fun e => if e.2.status = .saved then some e.1 else none).foldl State.refreshHolds s
  { s with
    dies := s.dies.map fun d => { d with time := d.time + 1 }
    ctxs := ⟨s.ctxs.items.map fun e => (e.1, s.wake e.1 e.2)⟩
    gangs := s.gangs.map fun g => { g with throttle := g.throttle - 1 } }

/-! ### Placing a word to be fetched -/

/-- The context that `withFetchWord` places: number 1 on logical core 0 of VD0. -/
def fetchCtx (cl : Cluster) (w : Word) : Nat × Ctx :=
  let who : Identity :=
    { die := 1, lcore := 0, num := 1, launch := 0, task := 0, gid := 0, host := 0, run := 0, depth := 0, sys := true, nopre := false,
      au := false, pol := 0, lres := 0, index := [] }
  let code := (Quad.all FMap.empty).set cl ⟨[(0, w)]⟩
  let c := Ctx.start who (.all 0) code
  (ctxKey 1 1, { c.setCl cl { c.cl cl with run := .run } with status := .live, phase := .issue })

/-- The cluster that a word is placed for: the first that decodes it, otherwise C. -/
def fetchCluster (w : Word) : Cluster :=
  ([Cluster.c, .v, .m, .x].find? fun cl =>
    match decode cl w with
    | .ok _ => true
    | .error _ => false).getD .c

end Sys2Proof.Machine
end

