-- ==== Sys2Proof/Machine/Step.lean ====
section
/-! DEFINITION. One step of the machine, and the placing of a word to be fetched next. -/

namespace Sys2Proof.Machine

/-- The next slot word of a cycle, and the end of the cycle after the last one (R17). -/
def stepSlot (s : State) (k : Nat) (cl : Cluster) (rest : List (Nat × Cluster)) : Host.Outcome State Fault Refusal :=
  onNext (({ s with focus := (k, cl), slots := rest }).runSlot exec) fun t => if t.slots.isEmpty then t.endCycle k else t

/-- The next entry of the agenda (log 2). -/
def stepAgenda (s : State) (a : Agenda) (rest : List Agenda) : Host.Outcome State Fault Refusal :=
  match a with
  | .event i => exec i { s with agenda := rest }
  | .cycle => .next { s with agenda := rest }.tick

/-- The first context that stands at the boundary before a cycle. -/
def State.atTurn (s : State) : Option (Nat × Ctx) := s.ctxs.items.find? fun e => e.2.phase == .boundary

/-- One step: a slot word of the cycle under way; otherwise a boundary; otherwise the agenda; otherwise what comes about by itself; and
when nothing does, the next die-time cycle. -/
def step (s : State) : Host.Outcome State Fault Refusal :=
  match s.slots with
  | (k, cl) :: rest => stepSlot s k cl rest
  | [] =>
    match s.atTurn with
    | some (k, c) => .next (s.boundary exec k c)
    | none =>
      match s.agenda with
      | a :: rest => stepAgenda s a rest
      | [] => .next (s.service.getD s.tick)

/-- The state with a word placed where the next step fetches: at PC 0 of a cluster that decodes it, of a context that is in its cycle. -/
def State.withFetchWord (s : State) (nbits w : Nat) : State :=
  let word : Word := BitVec.ofNat 64 (w % 2 ^ nbits)
  let cl := fetchCluster word
  let (k, c) := fetchCtx cl word
  { s.setCtx k c with slots := [(k, cl)], focus := (k, cl) }

end Sys2Proof.Machine
end

