-- ==== Sys2Proof/Safety.lean ====
section
/-! DEFINITION. What counts as a safe run, and when a slot word issues, in the terms the claims use. -/

namespace Sys2Proof.Safety

open Sys2Proof.Machine

/-- A step from the state answers a next state: no fault of the S2 stops the machine (R7). -/
def GoesOn (s : State) : Prop := ∃ t, step s = .next t

/-- The HBM, host memory and peer memory are in their canonical form. -/
def MemoryWf (s : State) : Prop := s.hbm.wf = true ∧ s.hostMem.wf = true ∧ s.peerMem.wf = true

/-- A state that some number of steps reaches from reset. -/
inductive Reached : State → Prop where
  | reset : Reached State.reset
  | step (s t : State) : Reached s → Machine.step s = .next t → Reached t

/-- The cluster in focus reads a predicate, an entry or an element that is pending (R25). -/
def Pends (c : Ctx) (cl : Cluster) (h : Hdr) (u : Uses) : Bool := c.pendingPred cl h.pred.toNat || c.readsPending cl u

/-- The word of the cluster in focus is examined and none of its checks holds it back (R17, R18, R20, R25, R29, R63): the context `c` is
there, the word is legal, its guard is true, its S = 1 finds its bundle, a read of a pending source neither stalls nor traps, its
privilege suffices, its die has what it names, its queues and buffers are ready and its write ports are free. -/
structure Issues (s : State) (c : Ctx) (i : Instr) (h : Hdr) (u : Uses) : Prop where
  present : s.ctx? s.focus.1 = some c
  legal : wellFormed s.focus.2 i = true
  guard : (c.cl s.focus.2).pred h.pred.toNat ≠ h.neg
  settled : Pends c s.focus.2 h u = false ∨ (c.wmode ≠ 1 ∧ c.wmode ≠ 2)
  synced : h.sync = false ∨ c.inHandler = true ∨ c.bundle = true
  privileged : u.priv = false ∨ c.priv = true
  onDie : u.dieIllegal = false
  queues : c.blocked s.focus.2 u = none
  ports : c.portClash s.focus.2 u = false

/-- A word that reaches memory finds no acquire of its context outstanding (R237). -/
def Clear (c : Ctx) (u : Uses) : Prop := u.mem = true → c.acquiring = false

/-- The state in which an issuing word takes effect: its sources are popped and its issue is counted. -/
def issuing (s : State) (c : Ctx) (h : Hdr) (u : Uses) : State :=
  s.setCtx s.focus.1 (c.issueOn s.focus.2 u (Pends c s.focus.2 h u))

/-- The state after an issued word whose PC advances. -/
def retired (s : State) (t : State) : State := t.modCtx s.focus.1 fun c => c.commit s.focus.2 none

/-- The state after an issued word that goes to an address. -/
def redirected (s : State) (t : State) (a : Word) : State := t.modCtx s.focus.1 fun c => c.commit s.focus.2 (some a)

/-- The gate of a word that gates its own cycle is met, and covers no fault that is still to be taken (R232, R237). -/
def gateOpen (s : State) (c : Ctx) (g : Gate) : Bool := s.gateMet s.focus.1 c g && (c.takeDeferred g.covers).isNone

/-- Changes the context of the word in focus. -/
def onCtx (s : State) (f : Ctx → Ctx) (t : State) : State := t.modCtx s.focus.1 f

end Sys2Proof.Safety
end

