-- ==== Sys2Proof/Effects/Words.lean ====
section
/-! DEFINITION. What the rules give each slot word: its effect when it issues, by families, for the statements to compare the meanings with. -/

namespace Sys2Proof.Effects

open Sys2Proof.Machine Sys2Proof.Safety

/-- An issued word: its header, what it reads and delivers, and its effect on the state in which it takes effect. -/
structure Doing where
  h : Hdr
  u : Uses
  after : State → State

/-- The a and b source of a word on a unit of the cluster in focus (R43, R48). -/
def srcA (s : State) (c : Ctx) (u : ExecUnit) (e : BitVec 4) : Word := c.source s.focus.2 (aFile s.focus.2 u) e
def srcB (s : State) (c : Ctx) (u : ExecUnit) (e : BitVec 4) : Word := c.source s.focus.2 (bFile s.focus.2 u) e

/-- A word of format RR, RI or R1 that delivers a value after `lat` cycles. -/
def doRR (s : State) (c : Ctx) (u : ExecUnit) (lat : Nat) (h : Hdr) (f : FmtRR) (v : Word → Word → Word) : Option Doing :=
  some ⟨h, usesRR u lat f s, fun t => t.deliver f.d1 f.d2 (v (srcA s c u f.sa) (srcB s c u f.sb)) lat⟩
def doRI (s : State) (c : Ctx) (u : ExecUnit) (lat : Nat) (h : Hdr) (f : FmtRI) (v : Word → Word) : Option Doing :=
  some ⟨h, usesRI u lat f s, fun t => t.deliver f.d1 f.d2 (v (srcA s c u f.sa)) lat⟩
def doR1 (s : State) (c : Ctx) (h : Hdr) (f : FmtR1) (v : Word → Word) : Option Doing :=
  some ⟨h, usesR1 f s, fun t => t.deliver f.d1 f.d2 (v (srcA s c .ia f.sa)) 1⟩

/-- The words that deliver a value and do nothing else, with that value (R77 to R84, R88, R95, R244). -/
def valueWord (s : State) (c : Ctx) : Instr → Option Doing
  | .add h f => doRR s c .ia 1 h f fun a b => a + b
  | .sub h f => doRR s c .ia 1 h f fun a b => a - b
  | .andW h f => doRR s c .ia 1 h f fun a b => a &&& b
  | .orW h f => doRR s c .ia 1 h f fun a b => a ||| b
  | .xorW h f => doRR s c .ia 1 h f fun a b => a ^^^ b
  | .andn h f => doRR s c .ia 1 h f fun a b => a &&& ~~~b
  | .shl h f => doRR s c .ia 1 h f fun a b => a <<< (b.toNat % 64)
  | .shr h f => doRR s c .ia 1 h f fun a b => a >>> (b.toNat % 64)
  | .sra h f => doRR s c .ia 1 h f fun a b => a.sshiftRight (b.toNat % 64)
  | .rot h f => doRR s c .ia 1 h f fun a b => a.rotateRight (b.toNat % 64)
  | .cmp h f => doRR s c .ia 1 h f fun a b => boolWord (condHolds f.fn.toNat a b)
  | .sel h f =>
    some ⟨h, { usesRR .ia 1 f s with preds := [f.fn.toNat % 8] }, fun t =>
      t.deliver f.d1 f.d2 (if (c.cl s.focus.2).pred (f.fn.toNat % 8) then srcA s c .ia f.sa else srcB s c .ia f.sb) 1⟩
  | .mul h f => doRR s c .im 3 h f fun a b => a * b
  | .mulh h f => doRR s c .im 3 h f fun a b => BitVec.ofInt 64 (a.toInt * b.toInt / 2 ^ 64)
  | .mulhu h f => doRR s c .im 3 h f fun a b => BitVec.ofNat 64 (a.toNat * b.toNat / 2 ^ 64)
  | .mov h f => doR1 s c h f fun a => a
  | .clz h f => doR1 s c h f fun a => if a = 0 then 64 else BitVec.ofNat 64 (63 - Nat.log2 a.toNat)
  | .popc h f => doR1 s c h f fun a => BitVec.ofNat 64 ((setBitsOf a.toNat 0 64).length)
  | .addi h f => doRI s c .ia 1 h f fun a => a + signExtend f.imm.toNat 32
  | .andi h f => doRI s c .ia 1 h f fun a => a &&& signExtend f.imm.toNat 32
  | .ori h f => doRI s c .ia 1 h f fun a => a ||| signExtend f.imm.toNat 32
  | .xori h f => doRI s c .ia 1 h f fun a => a ^^^ signExtend f.imm.toNat 32
  | .shli h f => doRI s c .ia 1 h f fun a => a <<< (f.imm.toNat % 64)
  | .shri h f => doRI s c .ia 1 h f fun a => a >>> (f.imm.toNat % 64)
  | .srai h f => doRI s c .ia 1 h f fun a => a.sshiftRight (f.imm.toNat % 64)
  | .roti h f => doRI s c .ia 1 h f fun a => a.rotateRight (f.imm.toNat % 64)
  | .cmpi h f => doRI s c .ia 1 h f fun a => boolWord (condHolds f.fn.toNat a (signExtend f.imm.toNat 32))
  | .lih h f => doRI s c .ia 1 h f fun a => toWord (f.imm.toNat * 2 ^ 32 + a.toNat % 2 ^ 32)
  | .ext h f =>
    doRI s c .ia 1 h f fun a =>
      let len := f.imm.toNat / 256 % 64 + 1
      let x := a.toNat / 2 ^ (f.imm.toNat % 64)
      if f.fn = 1 then signExtend x len else toWord (x % 2 ^ len)
  | .muli h f => doRI s c .im 3 h f fun a => a * signExtend f.imm.toNat 32
  | .li h f => some ⟨h, { d1 := f.d1, d2 := f.d2 }, fun t => t.deliver f.d1 f.d2 (signExtend f.imm.toNat 32) 1⟩
  | .prd h f =>
    some ⟨h, { d1 := f.d1, d2 := f.d2, preds := [1, 2, 3, 4, 5, 6, 7] }, fun t =>
      t.deliver f.d1 f.d2 (((c.cl s.focus.2).preds ||| 1).setWidth 64) 1⟩
  | _ => none

/-- The divisions with a divisor that is not 0, and their values (R95). -/
def divideWord (s : State) (c : Ctx) : Instr → Option Doing
  | .div h f => if srcB s c .im f.sb = 0 then none else doRR s c .im 20 h f fun a b => wordI (a.toInt.tdiv b.toInt)
  | .divu h f => if srcB s c .im f.sb = 0 then none else doRR s c .im 20 h f fun a b => a / b
  | .rem h f => if srcB s c .im f.sb = 0 then none else doRR s c .im 20 h f fun a b => wordI (a.toInt.tmod b.toInt)
  | .remu h f => if srcB s c .im f.sb = 0 then none else doRR s c .im 20 h f fun a b => a % b
  | _ => none

/-- The predicate of a predicate-logic word's operand, negated where the word says so (R83). -/
def predOperand (s : State) (c : Ctx) (j : BitVec 3) (n : BitVec 1) : Bool := (c.cl s.focus.2).pred j.toNat ^^ (n == 1)

/-- A predicate-logic word (R83). -/
def doPL (s : State) (c : Ctx) (h : Hdr) (f : FmtPL) (fn : Bool → Bool → Bool) : Option Doing :=
  let m := BitVec.ofNat 8 (2 ^ f.pd.toNat)
  some ⟨h, { preds := [f.pa.toNat, f.pb.toNat], pmask := m }, fun t =>
    t.deliverPreds m (if fn (predOperand s c f.pa f.na) (predOperand s c f.pb f.nb) then 0xFF else 0)⟩

/-- The words that write predicates (R83, R84). -/
def predicateWord (s : State) (c : Ctx) : Instr → Option Doing
  | .pand h f => doPL s c h f fun a b => a && b
  | .por h f => doPL s c h f fun a b => a || b
  | .pxor h f => doPL s c h f fun a b => a ^^ b
  | .pwr h f =>
    let m := BitVec.ofNat 8 (f.mask.toNat * 2)
    some ⟨h, { sa := some (aFile s.focus.2 .ia, f.sa), pmask := m }, fun t => t.deliverPreds m ((srcA s c .ia f.sa).setWidth 8)⟩
  | _ => none

/-- The counts that `qcnt` and `mqcnt` deliver (R88, R244). -/
def countWord (s : State) (c : Ctx) : Instr → Option Doing
  | .qcnt h f =>
    let u : Uses := { d1 := f.d1, d2 := f.d2 }
    let n := if f.qs.toNat < 8 then c.space (outQueue s.focus.2 f.qs.toNat) else c.visible (inQueue s.focus.2 (f.qs.toNat - 8))
    some ⟨h, u, fun t => t.deliver f.d1 f.d2 (toWord n) 1⟩
  | .mqcnt h f =>
    let n := (s.cmds.items.filter fun e =>
      e.2.unit == .mover && e.2.die == c.who.die && e.2.lcore == c.who.lcore && e.2.q == f.qs.toNat).length
    some ⟨h, { d1 := f.d1, d2 := f.d2 }, fun t => t.deliver f.d1 f.d2 (toWord (32 - n)) 1⟩
  | _ => none

/-! ### C and the sequencers: PCs, loops and run states (R85 to R90, R96) -/

/-- The PC of the cluster in focus, and a PC `off` words further on (R41). -/
def pcIn (s : State) (c : Ctx) : Word := (c.cl s.focus.2).pc
def hop (s : State) (c : Ctx) (off : BitVec 24) : Word := pcIn s c + 8 * signExtend off.toNat 24

/-- Changes the cluster in focus. -/
def onCl (s : State) (f : ClusterState → ClusterState) (t : State) : State :=
  onCtx s (fun c => c.setCl s.focus.2 (f (c.cl s.focus.2))) t

/-- The words that redirect, with their target; none where they trap or do not redirect (R85, R86). -/
def branchWord (s : State) (c : Ctx) : Instr → Option (Doing × Word)
  | .br h f => some (⟨h, {}, id⟩, hop s c f.off)
  | .jal h f =>
    some (⟨h, { d1 := f.d1 }, fun t => onCl s (fun x => x.push (pcIn s c + 8)) (t.deliver f.d1 63 (pcIn s c + 8) 1)⟩, hop s c f.off)
  | .jr h f =>
    let a := srcA s c .ib f.sa + srcB s c .ib f.sb
    if a.toNat % 8 = 0 then
      some (⟨h, { sa := some (aFile s.focus.2 .ib, f.sa), sb := some (bFile s.focus.2 .ib, f.sb) }, id⟩, a)
    else none
  | .ret h =>
    match (c.cl s.focus.2).ret with
    | [] => none
    | a :: l => some (⟨h, {}, onCl s fun x => { x with ret := l }⟩, a)
  | .loop h f =>
    if 0 < f.off.toInt ∧ (srcA s c .ib f.sa).toNat % 2 ^ 32 = 0 then
      some (⟨h, { sa := some (aFile s.focus.2 .ib, f.sa) }, onCl s fun x => x.setLoop f.lc ⟨0, pcIn s c + 8, hop s c f.off⟩⟩, hop s c f.off + 8)
    else none
  | .loopi h f =>
    if 0 < f.off.toInt ∧ f.cnt = 0 then
      some (⟨h, {}, onCl s fun x => x.setLoop f.lc ⟨0, pcIn s c + 8, hop s c f.off⟩⟩, hop s c f.off + 8)
    else none
  | .lend h f => some (⟨h, {}, onCl s fun x => x.stopLoop f.lc⟩, hop s c f.off)
  | _ => none

/-- The words that only change what directs the cluster, and whose PC advances (R86, R89, R90, R96, R101, R102). -/
def controlWord (s : State) (c : Ctx) : Instr → Option Doing
  | .nop h => some ⟨h, {}, id⟩
  | .loop h f =>
    let n := (srcA s c .ib f.sa).setWidth 32
    if 0 < f.off.toInt ∧ n ≠ 0 then
      some ⟨h, { sa := some (aFile s.focus.2 .ib, f.sa) }, onCl s fun x => x.setLoop f.lc ⟨n, pcIn s c + 8, hop s c f.off⟩⟩
    else none
  | .loopi h f =>
    if 0 < f.off.toInt ∧ f.cnt ≠ 0 then
      some ⟨h, {}, onCl s fun x => x.setLoop f.lc ⟨f.cnt.setWidth 32, pcIn s c + 8, hop s c f.off⟩⟩
    else none
  | .join h => if c.inHandler then none else some ⟨h, {}, onCl s fun x => { x with run := .joined }⟩
  | .halt h => if c.inHandler then none else some ⟨h, {}, onCl s fun x => { x with run := .halted }⟩
  | .trap h f =>
    if c.inHandler then none
    else
      some ⟨h, {}, onCtx s fun c => { c with traps := c.traps ++
        [⟨BitVec.ofNat 8 (f.code.toNat % 256), s.focus.2, true, BitVec.ofNat 8 (f.code.toNat / 256), false, 0, 0⟩] }⟩
  | .fork h f =>
    if c.inHandler || !(forkNames f).all (fun cl => (c.cl cl).run == .idle) || !decide ((c.cl .c).lastAccess ≤ c.time) then none
    else some ⟨h, {}, onCtx s fun c => (forkNames f).foldl (fun c => c.release f) c⟩
  | .yield h =>
    if c.inHandler then none
    else some ⟨h, {}, onCtx s fun x => { x with yields := !x.who.nopre && (s.die x.who.die).freeArea.isSome }⟩
  | .exit h => if c.inHandler then none else some ⟨h, {}, onCtx s fun c => { c with ends := true }⟩
  | _ => none

/-! ### V's lane words (R173 to R198) -/

/-- A word that writes lanes: what it reads of the MRF and of its scalar sources, its latency, the elements and their values. -/
structure LaneWord where
  h : Hdr
  u : Uses
  operand : BitVec 15
  elems : List Nat
  vals : List (BitVec 16)
  lat : Nat

/-- A word on whole operands. -/
def lanes (h : Hdr) (reads : List (Bool × BitVec 15)) (w32 : Bool) (vd : BitVec 15) (lat : Nat) (l : List Nat) : Option LaneWord :=
  some ⟨h, usesLanes reads, vd, elemsOf w32 vd, laneVals w32 l, lat⟩

/-- The lanes of a two-source, one-source and three-source word. -/
def v2 (c : Ctx) (h : Hdr) (f : FmtV3) (lat : Nat) (fn : Nat → Nat → Nat) : Option LaneWord :=
  lanes h [(wide f.ty, f.va), (wide f.ty, f.vb)] (wide f.ty) f.vd lat (List.zipWith fn (c.lanes (wide f.ty) f.va) (c.lanes (wide f.ty) f.vb))
def v1 (c : Ctx) (h : Hdr) (f : FmtV3) (lat : Nat) (fn : Nat → Nat) : Option LaneWord :=
  lanes h [(wide f.ty, f.va)] (wide f.ty) f.vd lat ((c.lanes (wide f.ty) f.va).map fn)
def v3 (c : Ctx) (h : Hdr) (f : FmtV3) (lat : Nat) (fn : Nat → Nat → Nat → Nat) : Option LaneWord :=
  lanes h [(wide f.ty, f.va), (wide f.ty, f.vb), (wide f.ty, f.vd)] (wide f.ty) f.vd lat
    (List.zipWith (fun g z => g z) (List.zipWith fn (c.lanes (wide f.ty) f.va) (c.lanes (wide f.ty) f.vb)) (c.lanes (wide f.ty) f.vd))

/-- A floating-point function of exact values, rounded once in the word's format and mode. -/
def fl2 (f : FmtV3) (fn : FVal → FVal → FVal) (x y : Nat) : Nat :=
  (fmtOf f.ty).ofVal (rmOf f.rm) (fn ((fmtOf f.ty).decode x) ((fmtOf f.ty).decode y))
def fl3 (f : FmtV3) (fn : FVal → FVal → FVal → FVal) (x y z : Nat) : Nat :=
  (fmtOf f.ty).ofVal (rmOf f.rm) (fn ((fmtOf f.ty).decode x) ((fmtOf f.ty).decode y) ((fmtOf f.ty).decode z))

/-- An integer function, wrapped (SUB 0), saturated (SUB 1) or its high half (SUB 2) (R185). -/
def in2 (f : FmtV3) (fn : Int → Int → Int) (x y : Nat) : Nat :=
  let t := intTy f.ty
  let z := fn (intVal t x) (intVal t y)
  intBits t.1 (if f.sub = 1 then satI z (intLo t) (intHi t) else if f.sub = 2 then z / 2 ^ t.1 else z)

/-- The words that write lanes, with the lanes (R180 to R196). -/
def laneWord (s : State) (c : Ctx) : Instr → Option LaneWord
  | .vadd h f => v2 c h f 4 (fl2 f fun x y => x.add (rmOf f.rm) y)
  | .vsub h f => v2 c h f 4 (fl2 f fun x y => x.add (rmOf f.rm) y.neg)
  | .vmul h f => v2 c h f 4 (fl2 f fun x y => x.mul y)
  | .vfma h f => v3 c h f 4 (fl3 f fun x y z => (x.mul y).add (rmOf f.rm) z)
  | .vfms h f => v3 c h f 4 (fl3 f fun x y z => (x.mul y).add (rmOf f.rm) z.neg)
  | .vfnma h f => v3 c h f 4 (fl3 f fun x y z => z.add (rmOf f.rm) (x.mul y).neg)
  | .vmax h f => v2 c h f 2 fun x y => (fmtOf f.ty).ofVal .rne (((fmtOf f.ty).decode x).max ((fmtOf f.ty).decode y))
  | .vmin h f => v2 c h f 2 fun x y => (fmtOf f.ty).ofVal .rne (((fmtOf f.ty).decode x).min ((fmtOf f.ty).decode y))
  | .vabs h f => v1 c h f 2 (signLane (fmtOf f.ty) fun _ => false)
  | .vneg h f => v1 c h f 2 (signLane (fmtOf f.ty) fun b => !b)
  | .vdiv h f => v2 c h f 12 fun x y => (fmtOf f.ty).div (rmOf f.rm) ((fmtOf f.ty).decode x) ((fmtOf f.ty).decode y)
  | .vsqrt h f => v1 c h f 12 fun x => (fmtOf f.ty).sqrt (rmOf f.rm) ((fmtOf f.ty).decode x)
  | .vexp2 h f => v1 c h f 8 fun x => exp2Val (fmtOf f.ty) (rmOf f.rm) ((fmtOf f.ty).decode x)
  | .vexp h f => v1 c h f 9 fun x => expVal (fmtOf f.ty) (rmOf f.rm) ((fmtOf f.ty).decode x)
  | .vscale h f =>
    v2 c h f 4 fun x y =>
      (fmtOf f.ty).ofVal (rmOf f.rm) (((fmtOf f.ty).decode x).shift (satI (signed y (laneWidth f.ty)) (-1024) 1024))
  | .viadd h f => v2 c h f 2 (in2 f fun x y => x + y)
  | .visub h f => v2 c h f 2 (in2 f fun x y => x - y)
  | .vimul h f => v2 c h f 3 (in2 f fun x y => x * y)
  | .vimax h f => v2 c h f 2 fun x y => if intVal (cmpTy f) x < intVal (cmpTy f) y then y else x
  | .vimin h f => v2 c h f 2 fun x y => if intVal (cmpTy f) y < intVal (cmpTy f) x then y else x
  | .vand h f => v2 c h f 2 fun x y => x &&& y
  | .vor h f => v2 c h f 2 fun x y => x ||| y
  | .vxor h f => v2 c h f 2 fun x y => x ^^^ y
  | .vshl h f => v2 c h f 2 fun x n => if laneWidth f.ty ≤ n then 0 else x * 2 ^ n % 2 ^ laneWidth f.ty
  | .vshr h f => v2 c h f 2 fun x n => if laneWidth f.ty ≤ n then 0 else x / 2 ^ n
  | .vsra h f => v2 c h f 2 fun x n => intBits (laneWidth f.ty) (signed x (laneWidth f.ty) / 2 ^ (min n (laneWidth f.ty)))
  | .viota h f =>
    lanes h [(wide f.ty, f.vb)] (wide f.ty) f.vd 2
      (List.zipWith (fun x i => (x + i) % 2 ^ laneWidth f.ty) (c.lanes (wide f.ty) f.vb) (range 0 128))
  | .vcmp h f =>
    v2 c h f 2 fun x y => if fcond f.rm.toNat ((fmtOf f.ty).decode x) ((fmtOf f.ty).decode y) then 2 ^ laneWidth f.ty - 1 else 0
  | .vicmp h f => v2 c h f 2 fun x y => if icond f.rm.toNat (intVal (cmpTy f) x) (intVal (cmpTy f) y) then 2 ^ laneWidth f.ty - 1 else 0
  | .vsel h f => v3 c h f 2 fun x y z => if z = 0 then y else x
  | .vcvt h f =>
    lanes h [(wideFmt f.fmts, f.va)] (wideFmt f.fmtd) f.vd 3
      ((c.lanes (wideFmt f.fmts) f.va).map fun x => convert f.fmts.toNat f.fmtd.toNat (rmOf f.rm) (x % 2 ^ srcWidth f.fmts.toNat))
  | .vunpack h f =>
    let w := mxWidth f.ty.toNat
    let str := ((groupLanes w f.sub).map (c.lane false f.va)).flatMap fun v => toBytes v 2
    let e := (scaleLanes f.sub).map fun i => c.lane false f.vb i % 256
    some ⟨h, { entries := readEntries f.vb, elems := someElems f.va (groupLanes w f.sub) ++ someElems f.vb (scaleLanes f.sub) }, f.vd,
      elems32 f.vd, laneVals true ((range 0 128).map fun k => unpackLane w (e.getD (k / 32) 0) (signed (unpackElem w k str) w)), 3⟩
  | .vmov h f => v1 c h f 2 fun x => x
  | .vclr h f => lanes h [] (wide f.ty) f.vd 2 (List.replicate 128 0)
  | .vperm h f =>
    some ⟨h, { entries := readEntries f.vb,
               elems := readElems (wide f.ty) f.vb ++ laneElems (wide f.ty) f.va (c.picks (wide f.ty) f.vb) }, f.vd,
      elemsOf (wide f.ty) f.vd, laneVals (wide f.ty) ((c.picks (wide f.ty) f.vb).map (c.lane (wide f.ty) f.va)), 2⟩
  | .vrot h f =>
    some ⟨h, { usesLanes [(wide f.ty, f.va)] with sa := some (aFile s.focus.2 .ia, f.sa) }, f.vd, elemsOf (wide f.ty) f.vd,
      laneVals (wide f.ty) ((range 0 128).map fun i => c.lane (wide f.ty) f.va ((i + bits (srcA s c .ia f.sa) 0 7) % 128)), 2⟩
  | .vbcast h f =>
    some ⟨h, { sa := some (aFile s.focus.2 .ia, f.sa), entries := readEntries f.va, elems := pickElems (wide f.ty) f.va f.sa s }, f.vd,
      elemsOf (wide f.ty) f.vd, laneVals (wide f.ty) (List.replicate 128 (c.lane (wide f.ty) f.va (bits (srcA s c .ia f.sa) 0 7))), 2⟩
  | .vins h f =>
    some ⟨h, { sa := some (aFile s.focus.2 .ia, f.sa), sb := some (bFile s.focus.2 .ia, f.sb) }, f.vd,
      laneElems (wide f.ty) f.vd [bits (srcA s c .ia f.sa) 0 7], laneVals (wide f.ty) [(srcB s c .ia f.sb).toNat], 2⟩
  | _ => none

/-- An invalid row among the elements a word reads is counted (R144, R150). -/
def noteElems (s : State) (c : Ctx) (es : List Nat) (t : State) : State :=
  match c.uninitElem es with
  | none => t
  | some w => onCtx s (fun c => c.recordUninit w) t

/-- `vpack` (R192): the packed string into VD and the four scales into VB, after 5 cycles. -/
def packWord (c : Ctx) : Instr → Option (Doing × List Nat)
  | .vpack h f =>
    let w := mxWidth f.ty.toNat
    let b := packBlocks w (c.lanes true f.va)
    some (⟨h, usesLanes [(true, f.va)], fun t =>
      (t.deliverElems f.vd ((groupLanes w f.sub).map (laneElem f.vd)) (packLanes w (b.flatMap (·.2))) 5).deliverElems f.vb
        ((scaleLanes f.sub).map (laneElem f.vb)) (b.map fun e => BitVec.ofNat 16 e.1) 5⟩, readElems true f.va)
  | _ => none

/-- A word that forms a scalar from the lanes of VA. -/
def toScalar (c : Ctx) (h : Hdr) (f : FmtVR) (lat : Nat) (fn : List Nat → Word) : Option (Doing × List Nat) :=
  some (⟨h, { usesLanes [(wide f.ty, f.va)] with d1 := f.d1, d2 := f.d2, lat := lat }, fun t =>
    t.deliver f.d1 f.d2 (fn (c.lanes (wide f.ty) f.va)) lat⟩, readElems (wide f.ty) f.va)

/-- The words that deliver a scalar formed from lanes, with the elements they read (R190, R197, R198). -/
def scalarWord (s : State) (c : Ctx) : Instr → Option (Doing × List Nat)
  | .vpopc h f => toScalar c h f 3 fun l => toWord (l.filter (· ≠ 0)).length
  | .vrmax h f =>
    toScalar c h f 5 fun l =>
      if f.sub = 0 then reduceF (fmtOf f.ty) (fun x y => (fmtOf f.ty).ofVal .rne (((fmtOf f.ty).decode x).max ((fmtOf f.ty).decode y))) l
      else wordI (bestI (fun x y => decide (y < x)) (l.map (intVal (intTy f.ty))))
  | .vrmin h f =>
    toScalar c h f 5 fun l =>
      if f.sub = 0 then reduceF (fmtOf f.ty) (fun x y => (fmtOf f.ty).ofVal .rne (((fmtOf f.ty).decode x).min ((fmtOf f.ty).decode y))) l
      else wordI (bestI (fun x y => decide (x < y)) (l.map (intVal (intTy f.ty))))
  | .vrsum h f =>
    toScalar c h f 9 fun l =>
      if f.sub = 0 then
        reduceF (fmtOf f.ty) (fun x y => (fmtOf f.ty).ofVal (rmOf f.rm) (((fmtOf f.ty).decode x).add (rmOf f.rm) ((fmtOf f.ty).decode y))) l
      else wordI ((l.map (intVal (intTy f.ty))).foldl (· + ·) 0)
  | .vrargmax h f =>
    toScalar c h f 5 fun l =>
      toWord (if f.sub = 0 then argBest greaterF (l.map (fmtOf f.ty).decode)
        else argBest (fun x y => decide (y < x)) (l.map (intVal (intTy f.ty))))
  | .vext h f =>
    let es := pickElems (wide f.ty) f.va f.sa s
    some (⟨h, { sa := some (aFile s.focus.2 .ia, f.sa), entries := readEntries f.va, elems := es, d1 := f.d1, d2 := f.d2, lat := 2 }, fun t =>
      let x := c.lane (wide f.ty) f.va (bits (srcA s c .ia f.sa) 0 7)
      t.deliver f.d1 f.d2 (if f.sub = 1 then signExtend x (laneWidth f.ty) else toWord x) 2⟩, es)
  | _ => none

/-! ### M's words (R199 to R224) -/

/-- The bytes of a half that a word reads are in its regions and in range of no other access of the cycle, and free of errors (R211). -/
def halfReads (s : State) (c : Ctx) (half n : Nat) (a : Word) : Bool :=
  let o := half * 2 ^ 22 + bits a 0 22
  c.who.au && bits a 22 42 == 0 && bits a 0 5 == 0 && c.owns o n && populated c.who.die o && !c.xPort.contains half &&
    ((s.core c.core).badByte o n).isNone && (((s.core c.core).invalidLine o n).isNone || c.umode != 0)

/-- Those bytes. -/
def halfBytes (s : State) (c : Ctx) (half n : Nat) (a : Word) : List Byte := (s.core c.core).getBytes (half * 2 ^ 22 + bits a 0 22) n

/-- An invalid line among them is counted (R150). -/
def noteHalf (s : State) (c : Ctx) (half n : Nat) (a : Word) (t : State) : State :=
  match (s.core c.core).invalidLine (half * 2 ^ 22 + bits a 0 22) n with
  | none => t
  | some l => onCtx s (fun c => c.recordUninit (uninitWord 0 (l * 64))) t

/-- Changes the array, and drains a row to the MRF after 4 cycles. -/
def onArray (s : State) (f : MatrixArray → MatrixArray) (t : State) : State := onCtx s (fun c => { c with array := f c.array }) t
def drainTo (dacc : BitVec 8) (dt : BitVec 15) (df : BitVec 2) (m : MatrixArray) (t : State) : State :=
  t.deliverElems dt (drainElemsOf dt df) ((m.row dacc.toNat).drainVals df) 4

/-- The elements that M's drains have pending (R222). -/
def pendingDrains (c : Ctx) : List Nat := (c.landings.filter fun l => l.cl == .m).flatMap (·.elems)

/-- M's words on a task with the array, with what they do to it (R213 to R222). -/
def matrixWord (s : State) (c : Ctx) (i : Instr) : Option Doing :=
  if !c.who.au then none
  else
    let m := c.array
    match i with
    | .mbeat h f =>
      let a := srcA s c .ia f.sa
      let n := if m.sp = 1 then 832 else 416
      let m' := m.advance (some (m.form f.wb.toNat f.acc.toNat (f.z == 1) (halfBytes s c f.h.toNat n a)))
      if halfReads s c f.h.toNat n a then
        some ⟨h, usesH f.sa s, fun t =>
          let t := onArray s (fun _ => m') (noteHalf s c f.h.toNat n a t)
          if f.dr = 1 then drainTo f.dacc f.dt f.df m' t else t⟩
      else none
    | .mshift h f =>
      let m' := m.advance none
      some ⟨h, {}, fun t => if f.dr = 1 then drainTo f.dacc f.dt f.df m' (onArray s (fun _ => m') t) else onArray s (fun _ => m') t⟩
    | .mdrain h f => some ⟨h, {}, drainTo f.dacc f.dt f.df m⟩
    | .mdrainc h f => some ⟨h, {}, fun t => onArray s (fun m => m.setRow f.dacc.toNat .cleared) (drainTo f.dacc f.dt f.df m t)⟩
    | .mwload h f =>
      let a := srcA s c .ia f.sa
      if halfReads s c f.half.toNat 384 a then
        some ⟨h, usesH f.sa s, fun t => onArray s (fun m =>
          { m with weights := m.weights.writeBytes (f.wb.toNat * 49152 + f.col.toNat * 384) (halfBytes s c f.half.toNat 384 a) })
          (noteHalf s c f.half.toNat 384 a t)⟩
      else none
    | .mbscale h f =>
      let a := srcA s c .ia f.sa
      if halfReads s c f.half.toNat 128 a then
        some ⟨h, usesH f.sa s, fun t => onArray s (fun m =>
          { m with scales := m.scales.writeBytes (f.wb.toNat * 128) (halfBytes s c f.half.toNat 128 a) })
          (noteHalf s c f.half.toNat 128 a t)⟩
      else none
    | .mcfg h f => some ⟨h, {}, onArray s fun m => { m with aw := f.aw, bw := f.bw, sp := f.sp, dens := f.dens, bss := f.bss }⟩
    | .mseed h f => some ⟨h, usesM f.sa s, onArray s fun m => { m with seed := srcA s c .ia f.sa }⟩
    | .mclr h f => some ⟨h, {}, onArray s fun m => (range f.acc.toNat (f.cnt.toNat + 1)).foldl (fun m r => m.setRow r .cleared) m⟩
    | .mexp h f => some ⟨h, { d1 := f.d1, d2 := f.d2 }, fun t => t.deliver f.d1 f.d2 (toWord (m.row f.acc.toNat).word) 1⟩
    | .mexpw h f =>
      some ⟨h, { usesM f.sa s with d1 := f.d1, d2 := f.d2 }, fun t =>
        onArray s (fun m => m.setRow f.acc.toNat ((m.row f.acc.toNat).setWord (srcA s c .ia f.sa)))
          (t.deliver f.d1 f.d2 (toWord (m.row f.acc.toNat).word) 1)⟩
    | .msat h f =>
      some ⟨h, { d1 := f.d1, d2 := f.d2 }, fun t => onArray s (fun m => { m with sat := false }) (t.deliver f.d1 f.d2 (boolWord m.sat) 1)⟩
    | .mstat h f => some ⟨h, { d1 := f.d1, d2 := f.d2 }, fun t => t.deliver f.d1 f.d2 m.stat 1⟩
    | .mwait h => some ⟨h, { elems := pendingDrains c }, id⟩
    | _ => none

end Sys2Proof.Effects
end

