-- ==== Sys2Proof/Effects/Memory.lean ====
section
/-! DEFINITION. What the rules give X's slot words, for the statements to compare the meanings with. -/

namespace Sys2Proof.Effects

open Sys2Proof.Machine Sys2Proof.Safety

/-! ### Loads and stores (R225 to R233) -/

/-- The uses of a word with two address operands. -/
def usesAB (s : State) (sa sb : BitVec 4) : Uses where
  sa := some (aFile s.focus.2 .ia, sa)
  sb := some (bFile s.focus.2 .ia, sb)
  mem := true

/-- The latency of a load: LSP_LAT, or LAND, 0 of which stands for the default of the space (R226, R230). -/
def landIn (c : Ctx) (sp : Space) (land : BitVec 20) : Nat :=
  if sp == .lsp then Config.lspLat c.who.die else if land = 0 then ldef sp else land.toNat

/-- An access passes the checks of R229, and a remote load finds a landing-buffer entry (R141). -/
def loadGood (s : State) (c : Ctx) (sp : Space) (a : Word) (n align : Nat) : Bool :=
  (s.checkAccess c sp a n align).isNone && (sp == .lsp || c.mayAllot sp)

/-- A scalar load. -/
def doLoad (s : State) (c : Ctx) (sp : Space) (h : Hdr) (f : FmtLD) : Option Doing :=
  let n := 2 ^ f.sz.toNat
  let a := loadAddr sp (srcA s c .ia f.sa) (srcB s c .ia f.sb)
  let lat := landIn c sp f.land
  let bytes := (s.core c.core).getBytes a.toNat n
  let base := fun l : Landing => { l with d1 := f.d1, d2 := f.d2, form := .scalar n (f.sx == 1) }
  if !loadGood s c sp a n n then none
  else
    some ⟨h, { usesAB s f.sa f.sb with d1 := f.d1, d2 := f.d2, lat := lat }, fun t =>
      if sp == .lsp then
        (onCtx s (fun c => c.usePort a.toNat) t).addLanding
          (fun l => lspLanding s c { base l with v1 := loadValue bytes n (f.sx == 1), v2 := loadValue bytes n (f.sx == 1) } a.toNat n) lat
      else
        (t.addLanding (fun l => { base l with lbuf := true, missing := 1, acquire := f.ord.toNat == 1, peer := sp == .peer }) lat).send
          s.focus.1 s.focus.2 sp a.toNat (.load n) f.ord.toNat f.sc.toNat (some s.serial) 0 []⟩

/-- A vector load, in four lines of 64 bytes. -/
def doLoadV (s : State) (c : Ctx) (sp : Space) (h : Hdr) (f : FmtLDV) : Option Doing :=
  let a := loadAddr sp (srcA s c .ia f.sa) (srcB s c .ia f.sb)
  let lat := landIn c sp f.land
  let bytes := (s.core c.core).getBytes a.toNat 256
  let base := fun l : Landing => { l with operand := some f.vd, elems := elems16 f.vd, form := .vector }
  if !loadGood s c sp a 256 64 then none
  else
    some ⟨h, usesAB s f.sa f.sb, fun t =>
      if sp == .lsp then
        (onCtx s (fun c => c.usePort a.toNat) t).addLanding (fun l => lspLanding s c { base l with vals := vectorVals bytes } a.toNat 256) lat
      else
        (t.addLanding (fun l => { base l with lbuf := true, missing := 4, acquire := f.ord.toNat == 1, peer := sp == .peer }) lat).sendLoads
          sp a.toNat f.ord.toNat f.sc.toNat s.serial [(0, 64), (64, 64), (128, 64), (192, 64)]⟩

/-- A store of bytes at an address value, `es` being the elements that VS names. -/
def doStore (s : State) (c : Ctx) (sp : Space) (h : Hdr) (u : Uses) (a : Word) (align : Nat) (bytes : List Byte) (es : List Nat)
    (ord sc : Nat) : Option Doing :=
  if (s.checkAccess c sp a bytes.length align).isSome || s.clobbers c sp a bytes.length || !((c.uninitElem es).isNone || c.umode != 0) ||
      (sp != .lsp && ord == 2 && !gateOpen s c (s.releaseGate sc)) then none
  else
    some ⟨h, u, fun t =>
      let t := noteElems s c es t
      if sp == .lsp then
        onCtx s (fun c => { (c.usePort a.toNat).setCl s.focus.2
            { c.cl s.focus.2 with lastAccess := max (c.cl s.focus.2).lastAccess c.time } with
          staged := c.staged ++ [.store a.toNat bytes] }) t
      else t.sendStores sp a.toNat ord sc (pieces 64 4 bytes)⟩

/-- The scalar and the vector store. -/
def doST (s : State) (c : Ctx) (sp : Space) (h : Hdr) (f : FmtST) : Option Doing :=
  let n := 2 ^ f.sz.toNat
  doStore s c sp h (usesAB s f.sa f.sb) (srcA s c .ia f.sa) n (toBytes (srcB s c .ia f.sb).toNat n) [] f.ord.toNat f.sc.toNat
def doSTV (s : State) (c : Ctx) (sp : Space) (h : Hdr) (f : FmtSTV) : Option Doing :=
  doStore s c sp h { sa := some (aFile s.focus.2 .ia, f.sa), elems := elems16 f.vs, mem := true } (srcA s c .ia f.sa) 64
    ((c.lanes false f.vs).flatMap fun v => toBytes v 2) (elems16 f.vs) f.ord.toNat f.sc.toNat

/-- The loads and stores whose checks hold (R226 to R229). -/
def memoryWord (s : State) (c : Ctx) : Instr → Option Doing
  | .ldl h f => doLoad s c .lsp h f
  | .ldc h f => doLoad s c .csp h f
  | .ldd h f => doLoad s c .dsp h f
  | .ldm h f => doLoad s c .mem h f
  | .ldn h f => doLoad s c .peer h f
  | .ldh h f => doLoad s c .host h f
  | .ldlV h f => doLoadV s c .lsp h f
  | .ldcV h f => doLoadV s c .csp h f
  | .lddV h f => doLoadV s c .dsp h f
  | .ldmV h f => doLoadV s c .mem h f
  | .ldnV h f => doLoadV s c .peer h f
  | .ldhV h f => doLoadV s c .host h f
  | .stl h f => doST s c .lsp h f
  | .stc h f => doST s c .csp h f
  | .std h f => doST s c .dsp h f
  | .stm h f => doST s c .mem h f
  | .stn h f => doST s c .peer h f
  | .sth h f => doST s c .host h f
  | .stlV h f => doSTV s c .lsp h f
  | .stcV h f => doSTV s c .csp h f
  | .stdV h f => doSTV s c .dsp h f
  | .stmV h f => doSTV s c .mem h f
  | .stnV h f => doSTV s c .peer h f
  | .sthV h f => doSTV s c .host h f
  | _ => none

/-! ### Ordering, clearing, prefetching and commands (R234 to R246) -/

/-- A command and record of 32 bytes each that a push reads lie in the regions, free of errors, in valid lines unless UMODE is 1. -/
def recordGood (s : State) (c : Ctx) (o : Nat) : Bool :=
  c.owns o 32 && populated c.who.die o && ((s.core c.core).badByte o 32).isNone &&
    (((s.core c.core).invalidLine o 32).isNone || c.umode != 0)
def recordAt (s : State) (c : Ctx) (o : Nat) : Quad Word := quadOf ((s.core c.core).getBytes o 32)

/-- The first invalid line that a push meets is counted. -/
def noteRecord (s : State) (c : Ctx) (os : List Nat) (t : State) : State :=
  match os.findSome? fun o => (s.core c.core).invalidLine o 32 with
  | none => t
  | some l => onCtx s (fun c => c.recordUninit (uninitWord 0 (l * 64))) t

/-- A push of a command to a queue: it is read, patched and checked, and enters the queue (R241, R242). -/
def doPush (s : State) (c : Ctx) (h : Hdr) (u : Uses) (off : BitVec 24) (w : Quad Word) (shaped : Bool) (bad : Quad Word → Quad Word → Bool)
    (e : EngineUnit) (q : Nat) : Option Doing :=
  let os := if shaped then [off.toNat, shpOf w] else [off.toNat]
  let r : Quad Word := if shaped then recordAt s c (shpOf w) else .all 0
  if off.toNat % 32 ≠ 0 || !os.all (recordGood s c) || bad w r then none
  else
    some ⟨h, u, fun t =>
      (noteRecord s c os (os.foldl (fun t o => onCtx s (fun c => c.usePort o) t) t)).pushCmd e c.who.die q w r off⟩

/-- X's words that order, clear, prefetch and push commands, where nothing stops them. -/
def exchangeWord (s : State) (c : Ctx) : Instr → Option Doing
  | .drain h f =>
    let m := f.mask.toNat
    some ⟨h, {}, onCtx s fun c => { c with holds := c.holds ++ [.gate ⟨s.serial, maskSpaces m, maskSpaces m, 4, 0,
      m / 4 % 2 = 1 || m / 8 % 2 = 1, m / 16 % 2 = 1, false, none⟩] }⟩
  | .fence h f =>
    let p := f.pre.toNat
    let su := f.suc.toNat
    let sc := f.sc.toNat
    let g : Gate :=
      { seq := s.serial, loads := if p % 2 = 1 then allSpaces else [], stores := if p / 2 % 2 = 1 then allSpaces else [], sc := sc
        cmds := if p / 4 % 4 = 0 then 0 else c.pushes, flush := p / 2 % 2 = 1 && decide (2 ≤ sc)
        nodes := p / 2 % 2 = 1 && decide (4 ≤ sc), reads := p % 2 = 1 && decide (2 ≤ sc)
        passes := if (su / 2 % 2 = 1 ∨ su / 8 % 2 = 1) ∧ 2 ≤ sc then some sc else none }
    let told := fun c : Ctx =>
      if p % 2 = 1 ∧ 2 ≤ sc then c.heard.elems.foldl (fun m n => m.insert n (max (sc * 2) (m.getD n 0))) c.learnt else c.learnt
    some ⟨h, { elems := if p / 32 % 2 = 1 then pendingDrains c else [] }, onCtx s fun c =>
      { c with learnt := told c
               cmdHolds := if su / 4 % 4 = 0 then c.cmdHolds else c.cmdHolds ++ [g]
               holds := if su % 4 = 0 && su / 16 = 0 then c.holds else c.holds ++ [.gate g]
               fenced := c.fenced || decide (2 ≤ sc) }⟩
  | .salloc h f =>
    let a := srcA s c .ia f.sa
    let b := srcB s c .ia f.sb
    if bits a 0 6 ≠ 0 || bits b 0 6 ≠ 0 || bits a 24 40 ≠ 0 then none
    else if b = 0 then some ⟨h, usesAB s f.sa f.sb, id⟩
    else if !c.owns a.toNat b.toNat || (s.core c.core).tagged a.toNat b.toNat then none
    else
      some ⟨h, usesAB s f.sa f.sb, onCtx s fun c =>
        { (c.usePort a.toNat).setCl s.focus.2 { c.cl s.focus.2 with lastAccess := max (c.cl s.focus.2).lastAccess c.time } with
          staged := c.staged ++ [.clear (a.toNat / 64) (b.toNat / 64)] }⟩
  | .pfm h f =>
    some ⟨h, { sa := some (aFile s.focus.2 .ia, f.sa), mem := true }, fun t =>
      if c.who.die = 0 then t else t.prefill c .mem ((srcA s c .ia f.sa).toNat / 64 * 64) 64⟩
  | .cpy h f =>
    let w := patched (recordAt s c f.off.toNat) f.p1 f.p2 f.w1 f.w2 (srcA s c .ia f.sa) (srcB s c .ia f.sb)
    doPush s c h { usesPatch f.p1 f.p2 f.sa f.sb s with room := s.moverRoom [f.mq.toNat] } f.off w (hasShape (kindOf w)) badMover
      .mover f.mq.toNat
  | .ecmd h f =>
    let w := patched (recordAt s c f.off.toNat) f.p1 f.p2 f.w1 f.w2 (srcA s c .ia f.sa) (srcB s c .ia f.sb)
    let e := engineOf f.eng
    doPush s c h { usesPatch f.p1 f.p2 f.sa f.sb s with
        room := s.engineRoom e f.eq.toNat, dieIllegal := f.eng != 0 && decide (c.who.die = 0) }
      f.off w (e == .coll && kindOf w == 7) (badEngine e) e f.eq.toNat
  | .qfence h f =>
    let qs := setBitsOf f.mqm.toNat 0 4
    some ⟨h, { mem := true, room := s.moverRoom qs }, fun t =>
      qs.foldl (fun t q => t.pushCmd .mover c.who.die q ⟨0, 0, toWord f.mqm.toNat, 0x0600000000000000⟩ (.all 0) 0) t⟩
  | _ => none

/-! ### Barriers and multicast (R270 to R285) -/

/-- A barrier word on a granule of the cluster, with the deliveries and latency of its landing. -/
def doBar (s : State) (c : Ctx) (h : Hdr) (u : Uses) (a : Word) (act : Action) (bad : Bool) (land : Option (BitVec 6 × BitVec 6 × Nat)) :
    Option Doing :=
  let rel := act.writes
  if bad || bits a 27 37 ≠ 0 || bits a 0 4 ≠ 0 || (land.isSome && !c.mayAllot .csp) || (rel && !gateOpen s c (s.releaseGate 1)) then none
  else
    some ⟨h, u, fun t =>
      match land with
      | none => t.send s.focus.1 s.focus.2 .csp a.toNat act 2 1 none 0 []
      | some (d1, d2, lat) =>
        (t.addLanding (fun l => { l with d1 := d1, d2 := d2, form := .scalar 8 false, lbuf := true, missing := 1, acquire := !rel }) lat).send
          s.focus.1 s.focus.2 .csp a.toNat act (if rel then 2 else 1) 1 (some s.serial) 0 []⟩

/-- The deliveries of a landing, none when the word names none. -/
def landTo (d1 d2 : BitVec 6) (lat : Nat) : Option (BitVec 6 × BitVec 6 × Nat) := if d1 = 63 && d2 = 63 then none else some (d1, d2, lat)

/-- X's barrier words and `mcast` on operands within their limits. -/
def barrierWord (s : State) (c : Ctx) : Instr → Option Doing
  | .barInit h f =>
    let b := srcB s c .ia f.sb
    let free := bits b 17 1 = 1
    doBar s c h (usesAB s f.sa f.sb) (srcA s c .ia f.sa) (.barInit (bits b 0 16) (bits b 16 1 = 1) free)
      (bits b 18 46 ≠ 0 || (if free then bits b 0 17 ≠ 0 else bits b 0 16 = 0)) none
  | .barArr h f =>
    let b := srcB s c .ia f.sb
    doBar s c h { usesAB s f.sa f.sb with d1 := f.d1, d2 := f.d2, lat := 24 } (srcA s c .ia f.sa) (.barArr (bits b 0 16))
      (bits b 16 48 ≠ 0 || bits b 0 16 = 0) (landTo f.d1 f.d2 24)
  | .barExp h f =>
    let b := srcB s c .ia f.sb
    doBar s c h (usesAB s f.sa f.sb) (srcA s c .ia f.sa) (.barExp (bits b 0 40)) (bits b 40 24 ≠ 0) none
  | .barCred h f =>
    let b := srcB s c .ia f.sb
    doBar s c h (usesAB s f.sa f.sb) (srcA s c .ia f.sa) (.barCred (bits b 0 40)) (bits b 40 24 ≠ 0) none
  | .barWait h f =>
    let b := srcB s c .ia f.sb
    let lat := 24 + 16 * f.fn.toNat
    doBar s c h { usesAB s f.sa f.sb with d1 := f.d1, d2 := f.d2, lat := lat } (srcA s c .ia f.sa) (.barWait (bits b 0 1 = 1))
      (bits b 1 63 ≠ 0) (some (f.d1, f.d2, lat))
  | .barTest h f =>
    doBar s c h { sa := some (aFile s.focus.2 .ia, f.sa), mem := true, d1 := f.d1, d2 := f.d2, lat := 24 } (srcA s c .ia f.sa) .barTest
      false (landTo f.d1 f.d2 24)
  | .barBrk h f => doBar s c h { sa := some (aFile s.focus.2 .ia, f.sa), mem := true } (srcA s c .ia f.sa) .barBrk false none
  | .mcast h f =>
    let a := srcA s c .ia f.sa
    let b := srcB s c .ia f.sb
    let n := 64 * 2 ^ f.fn.toNat
    let m := s.core c.core
    if mcastIllegal b || bits a 24 40 ≠ 0 || bits a 0 6 ≠ 0 || bits b 0 6 ≠ 0 || !c.owns a.toNat n || !populated c.who.die a.toNat ||
        (m.badByte a.toNat n).isSome || !((m.invalidLine a.toNat n).isNone || c.umode != 0) then none
    else
      some ⟨h, usesAB s f.sa f.sb, fun t =>
        let t := onCtx s (fun c => c.usePort a.toNat) t
        let t :=
          match m.invalidLine a.toNat n with
          | none => t
          | some l => onCtx s (fun c => c.recordUninit (uninitWord 0 (l * 64))) t
        t.mcastSend b (m.getBytes a.toNat n)⟩
  | _ => none

/-! ### Atomics and ticketed reductions (R315 to R329) -/

/-- An atomic word: its space, its address value and the request it sends. -/
def doAtomic (s : State) (c : Ctx) (h : Hdr) (f : FmtAM) (pops n : Nat) (deliver : Bool) (act : List Word → Action) : Option Doing :=
  let sp := amSpace f.sp.toNat
  let a := srcA s c .ia f.sa + srcB s c .ia f.sb
  let ord := f.ord.toNat
  let lat := if f.land = 0 then ldef sp else f.land.toNat
  let data := ((c.queue 2).take pops).map fun e => e.value.getD 0
  if s.badAddress c sp a || a.toNat % n ≠ 0 || (deliver && !c.mayAllot sp) || (2 ≤ ord && !gateOpen s c (s.releaseGate f.sc.toNat)) then none
  else
    some ⟨h, { usesAB s f.sa f.sb with data := pops, d1 := f.d1, d2 := f.d2, lat := lat }, fun t =>
      if deliver then
        (t.addLanding (fun l =>
            { l with d1 := f.d1, d2 := f.d2, form := .scalar n false, lbuf := true, missing := 1, acquire := ord % 2 == 1 }) lat).send
          s.focus.1 s.focus.2 sp a.toNat (act data) ord f.sc.toNat (some s.serial) 0 []
      else t.send s.focus.1 s.focus.2 sp a.toNat (act data) ord f.sc.toNat none 0 []⟩

/-- The space and address value of a window word, where they pass its checks (R327). -/
def windowAt (s : State) (c : Ctx) (a : Word) : Option (Space × Nat) :=
  let sp := amSpace (bits a 62 2)
  if bits a 62 2 = 3 || s.badAddress c sp (toWord (bits a 0 62)) || bits a 0 2 ≠ 0 then none else some (sp, bits a 0 62)

/-- X's atomics and window words where nothing stops them. -/
def atomicWord (s : State) (c : Ctx) : Instr → Option Doing
  | .amo h f =>
    doAtomic s c h f (amoPops f.aop) (if f.w = 1 then 8 else 4) true fun d => .amo f.aop.toNat (d.getD 0 0) (f.w == 1)
  | .ared h f =>
    doAtomic s c h f (amoPops f.aop) (if f.w = 1 then 8 else 4) false fun d => .amo f.aop.toNat (d.getD 0 0) (f.w == 1)
  | .amocas h f =>
    doAtomic s c h f (if f.w = 1 then 2 else 1) (if f.w = 1 then 8 else 4) true fun d =>
      if f.w = 1 then .cas (d.getD 0 0) (d.getD 1 0) true
      else .cas (toWord (bits (d.getD 0 0) 0 32)) (toWord (bits (d.getD 0 0) 32 32)) false
  | .amof h f =>
    doAtomic s c h f 1 (if f.w = 1 then 2 else 4) true fun d =>
      .ticket f.aop.toNat (f.w == 1) (BitVec.ofNat 32 (bits (d.getD 0 0) 32 32)) (BitVec.ofNat 32 (bits (d.getD 0 0) 0 32))
  | .aredf h f =>
    doAtomic s c h f 1 (if f.w = 1 then 2 else 4) false fun d =>
      .ticket f.aop.toNat (f.w == 1) (BitVec.ofNat 32 (bits (d.getD 0 0) 32 32)) (BitVec.ofNat 32 (bits (d.getD 0 0) 0 32))
  | .amotOpen h f =>
    let b := srcB s c .ia f.sb
    match windowAt s c (srcA s c .ia f.sa) with
    | none => none
    | some (sp, a) =>
      if bits b 33 31 ≠ 0 || (bits b 32 1 = 1 && bits b 0 32 ≠ 0) || !gateOpen s c (s.releaseGate 2) then none
      else
        some ⟨h, usesAB s f.sa f.sb, fun t =>
          t.send s.focus.1 s.focus.2 sp a (.winOpen (BitVec.ofNat 32 (bits b 0 32)) (bits b 32 1 = 1)) 2 2 none 0 []⟩
  | .amotSkip h f =>
    let b := srcB s c .ia f.sb
    match windowAt s c (srcA s c .ia f.sa) with
    | none => none
    | some (sp, a) =>
      if bits b 32 32 ≠ 0 then none
      else
        some ⟨h, usesAB s f.sa f.sb, fun t =>
          t.send s.focus.1 s.focus.2 sp a (.winSkip (BitVec.ofNat 32 (bits b 0 32))) 0 0 none 0 []⟩
  | .drainT h f =>
    match windowAt s c (srcA s c .ia f.sa) with
    | none => none
    | some (sp, a) =>
      some ⟨h, { sa := some (aFile s.focus.2 .ia, f.sa), mem := true }, onCtx s fun c =>
        if s.isolated c sp a then
          { c with traps := c.traps ++ [.landing causeRemoteAbort .x (toWord a) (finfoOf (spaceCode sp) false)] }
        else
          match s.home c sp a true with
          | .error e => { c with traps := c.traps ++ [.landing e .x (toWord a) (finfoOf (spaceCode sp) false)] }
          | .ok _ => { c with holds := c.holds ++ [.ticket s.serial a sp] }⟩
  | _ => none

/-! ### The fabric (R448, R449, R458, R459) -/

/-- The gate of the digest words: CSP, DSP and MEM accesses issued and commands pushed before (R351, R458). -/
def stepGate (s : State) (c : Ctx) : Gate := ⟨s.serial, [.csp, .dsp, .mem], [.csp, .dsp, .mem], 3, c.pushes, true, false, false, none⟩

/-- X's words about other packages, where nothing stops them. -/
def fabricWord (s : State) (c : Ctx) : Instr → Option Doing
  | .pseq h f =>
    let a := srcA s c .ia f.sa
    let m := if f.fn = 0 then s.fab.tx else if f.fn = 1 then s.fab.ack else s.fab.rx
    if bits a 10 54 ≠ 0 then none
    else
      some ⟨h, { sa := some (aFile s.focus.2 .ia, f.sa), d1 := f.d1, d2 := f.d2 }, fun t =>
        t.deliver f.d1 f.d2 ((m.getD a.toNat 0).setWidth 64) 1⟩
  | .pflush h f =>
    let a := srcA s c .ia f.sa
    if bits a 16 48 ≠ 0 || (bits a 10 6 ≠ 0 && a ≠ 0xFFFF) then none
    else
      some ⟨h, { sa := some (aFile s.focus.2 .ia, f.sa) }, onCtx s fun c => { c with holds := c.holds ++ [.peerFlush a.toNat] }⟩
  | .rdig h f =>
    let a := srcA s c .ia f.sa
    if bits a 1 63 ≠ 0 || !s.replicated c.who.gid || !gateOpen s c (stepGate s c) then none
    else
      some ⟨h, { sa := some (aFile s.focus.2 .ia, f.sa), d1 := f.d1, d2 := f.d2 }, fun t =>
        t.deliver f.d1 f.d2 (BitVec.ofNat 64 (if a = 0 then s.fab.digest.toNat else s.fab.digest.toNat / 2 ^ 64)) 1⟩
  | .rcmp h f =>
    let a := srcA s c .ia f.sa
    let lat := 1024 * (f.fn.toNat + 1)
    let step := BitVec.ofNat 32 a.toNat
    let v : Word := step.setWidth 64
    if bits a 32 32 ≠ 0 || !s.replicated c.who.gid || decide (64 ≤ c.lndcnt) || !gateOpen s c (stepGate s c) ||
        s.fab.waiting.isSome then none
    else
      some ⟨h, { sa := some (aFile s.focus.2 .ia, f.sa), d1 := f.d1, d2 := f.d2, lat := lat }, fun t =>
        match s.fab.pair with
        | none =>
          { t.landWord f.d1 f.d2 v v lat (fun l => { l with missing := 1 }) with
              fab := { s.fab with waiting := some (c.key, s.serial, step, s.fab.digest) } }
        | some p =>
          if p = (step, s.fab.digest) then { t.landWord f.d1 f.d2 v v lat id with fab := s.fab.agree step }
          else
            { t.landWord f.d1 f.d2 v v lat (fun l => l.take (unplaced causeDigestMismatch s.serial)) with fab := s.fab.differ }⟩
  | _ => none

end Sys2Proof.Effects
end

