-- ==== Sys2Proof/Effects/Control.lean ====
section
/-! DEFINITION. What the rules give C's register, scheduler and package words, for the statements to compare the meanings with. -/

namespace Sys2Proof.Effects

open Sys2Proof.Machine Sys2Proof.Safety

/-- The sources a and b of C's unit ib. -/
def ibA (c : Ctx) (e : BitVec 4) : Word := c.source .c 4 e
def ibB (c : Ctx) (e : BitVec 4) : Word := c.source .c 5 e

/-! ### Control registers (R91, R92) -/

/-- The register words, where the register may be read and the write may be made. -/
def registerWord (s : State) (c : Ctx) : Instr → Option Doing
  | .crr h f =>
    if !crrReadable f.crn then none
    else
      some ⟨h, { d1 := f.d1, d2 := f.d2, dieIllegal := crnForeign c.who.die f.crn }, fun t =>
        t.deliver f.d1 f.d2 (t.readReg (c.issueOn s.focus.2 { d1 := f.d1, d2 := f.d2, dieIllegal := crnForeign c.who.die f.crn }
          (Pends c s.focus.2 h { d1 := f.d1, d2 := f.d2, dieIllegal := crnForeign c.who.die f.crn })) s.focus.2 f.crn) 1⟩
  | .crrp h f =>
    let u : Uses := { d1 := f.d1, d2 := f.d2, priv := true, dieIllegal := crnForeign c.who.die f.crn }
    some ⟨h, u, fun t => t.deliver f.d1 f.d2 (t.readReg (c.issueOn s.focus.2 u (Pends c s.focus.2 h u)) s.focus.2 f.crn) 1⟩
  | .crw h f =>
    let u : Uses := { sa := some (4, f.sa), d1 := f.d1, d2 := f.d2, priv := true, dieIllegal := crnForeign c.who.die f.crn }
    if f.crn = 0x043 && !c.inHandler then none
    else
      some ⟨h, u, fun t =>
        onCtx s (fun x => { x with staged := x.staged ++ [.reg f.crn (ibA c f.sa)] })
          (t.deliver f.d1 f.d2 (t.readReg (c.issueOn s.focus.2 u (Pends c s.focus.2 h u)) s.focus.2 f.crn) 1)⟩
  | _ => none

/-! ### Exceptions and the save area (R98 to R100) -/

/-- C is held until the transfer that its word has started ends, at a die time that the spec leaves open (R140, log 48). -/
def holdC (s : State) (c : Ctx) (t : State) : State :=
  { onCtx s (fun x => { x with holds := x.holds ++ [.transfer ((s.die c.who.die).time + Config.transferCycles t.serial)] }) t with
    serial := t.serial + 1 }

/-- `ctxsv` and `ctxld` in a handler, on an area that passes their checks. -/
def areaWord (s : State) (c : Ctx) : Instr → Option Doing
  | .ctxsv h f =>
    if !c.inHandler || (s.areaFault c (ibA c f.sa) (ibB c f.sb) false).isSome then none
    else
      some ⟨h, { sa := some (4, f.sa), sb := some (5, f.sb), priv := true }, fun t =>
        holdC s c (t.saveParts s.focus.1 (ibA c f.sa).toNat (ibB c f.sb).toNat)⟩
  | .ctxld h f =>
    if !c.inHandler || (s.areaFault c (ibA c f.sa) (ibB c f.sb) true).isSome ||
        s.areaBad c (ibA c f.sa).toNat (ibB c f.sb).toNat then none
    else
      some ⟨h, { sa := some (4, f.sa), sb := some (5, f.sb), priv := true }, fun t =>
        holdC s c (t.loadParts s.focus.1 (ibA c f.sa).toNat (ibB c f.sb).toNat)⟩
  | _ => none

/-! ### The scheduler (R346 to R351) -/

/-- The uses of a scheduler word with two sources, one source and none. -/
def usesS2 (f : FmtRR) (lat : Nat) : Uses where
  sa := some (4, f.sa)
  sb := some (5, f.sb)
  d1 := f.d1
  d2 := f.d2
  lat := lat
def usesS1 (f : FmtRR) (lat : Nat) : Uses where
  sa := some (4, f.sa)
  d1 := f.d1
  d2 := f.d2
  lat := lat

/-- C's scheduler words, where nothing stops them. -/
def schedulerWord (s : State) (c : Ctx) : Instr → Option Doing
  | .launch h f =>
    let a := ibA c f.sa
    if bits a 16 48 ≠ 0 || decide (64 ≤ c.lndcnt) || !gateOpen s c (s.releaseGate 2) then none
    else some ⟨h, usesS2 f 64, fun t => t.launchChild f.d1 f.d2 (bits a 0 16) (ibB c f.sb)⟩
  | .wchild h f =>
    let b := ibB c f.sb
    let lat := 64 * (1 + f.fn.toNat)
    if bits b 1 63 ≠ 0 || decide (64 ≤ c.lndcnt) then none
    else some ⟨h, usesS2 f lat, fun t => t.waitChild c f.d1 f.d2 lat (ibA c f.sa).toNat (bits b 0 1 = 1)⟩
  | .semSig h f =>
    let b := ibB c f.sb
    match s.semNumber c (ibA c f.sa) with
    | none => none
    | some n =>
      if bits b 32 32 ≠ 0 || !gateOpen s c (s.releaseGate 2) || c.semFault.isSome then none
      else
        some ⟨h, { sa := some (4, f.sa), sb := some (5, f.sb) }, fun t =>
          let r := t.semSignal c.who.die n (bits b 0 32)
          if r.2 then { onCtx s (fun c => c.refuseSignal s.serial) t with serial := s.serial + 1 } else r.1⟩
  | .semWait h f =>
    let lat := 64 * (1 + f.fn.toNat)
    match s.semNumber c (ibA c f.sa) with
    | none => none
    | some n =>
      if 64 ≤ c.lndcnt then none
      else
        some ⟨h, { sa := some (4, f.sa), d1 := f.d1, d2 := f.d2, lat := lat }, fun t =>
          (t.landSem f.d1 f.d2 0 lat fun l => { l with missing := 1, acquire := true }).semWait c.who.die n
            ⟨c.key, s.serial, f.imm.toNat⟩⟩
  | .semInit h f =>
    let a := ibA c f.sa
    let b := ibB c f.sb
    if bits a 12 52 ≠ 0 || bits b 32 32 ≠ 0 then none
    else
      some ⟨h, { sa := some (4, f.sa), sb := some (5, f.sb), priv := true }, fun t =>
        t.releaseWaits c.who.die a.toNat ⟨BitVec.ofNat 32 b.toNat, false, []⟩⟩
  | .semRd h f =>
    match s.semNumber c (ibA c f.sa) with
    | none => none
    | some n =>
      if 64 ≤ c.lndcnt then none
      else
        some ⟨h, usesS1 f 64, fun t =>
          let x := (s.die c.who.die).sem n
          t.landSem f.d1 f.d2 (toWord (x.count.toNat + if x.broken then 2 ^ 32 else 0)) 64 id⟩
  | .dgstRd h f =>
    let a := ibA c f.sa
    if bits a 1 63 ≠ 0 || !gateOpen s c (stepGate s c) then none
    else
      some ⟨h, usesS1 f 1, fun t =>
        t.deliver f.d1 f.d2 (BitVec.ofNat 64 (if a = 0 then c.digest.toNat else c.digest.toNat / 2 ^ 64)) 1⟩
  | .dgstClr h =>
    if !gateOpen s c (stepGate s c) then none else some ⟨h, { priv := true }, onCtx s fun c => { c with digest := 0 }⟩
  | _ => none

/-! ### The package (R369, R376, R377, R402 to R412) -/

/-- The 64 bytes at a local offset are in the regions, and, when they are read, free of errors and valid unless UMODE is 1 (R404). -/
def blockGood (s : State) (c : Ctx) (a : Word) (read : Bool) : Bool :=
  let m := s.core c.core
  (c.blockFault a).isNone && (!read || ((m.badByte a.toNat 64).isNone && ((m.invalidLine a.toNat 64).isNone || c.umode != 0)))
def blockAt (s : State) (c : Ctx) (a : Word) : List Byte := (s.core c.core).getBytes a.toNat 64
def noteBlock (s : State) (c : Ctx) (a : Word) (t : State) : State :=
  match (s.core c.core).invalidLine a.toNat 64 with
  | none => t
  | some l => onCtx s (fun c => c.recordUninit (uninitWord 0 (l * 64))) t

/-- C's package words, where nothing stops them. -/
def packageWord (s : State) (c : Ctx) : Instr → Option Doing
  | .mbxSend h f =>
    let a := ibA c f.sa
    let b := ibB c f.sb
    if bits b 11 53 ≠ 0 || !blockGood s c a true || bits b 9 2 = 3 || Config.ncore (bits b 9 2) ≤ bits b 2 7 ||
        !gateOpen s c (s.releaseGate 3) then none
    else
      some ⟨h, { sa := some (4, f.sa), sb := some (5, f.sb), mem := true }, fun t =>
        (noteBlock s c a t).send s.focus.1 .c .lsp (bits b 9 2 * 2 ^ 31 + bits b 2 7 * 2 ^ 24) (.mail (bits b 0 2) (blockAt s c a)) 2 3
          none 0 []⟩
  | .mbxRecv h f =>
    let a := ibA c f.sa
    let b := ibB c f.sb
    match (s.core c.core).box b.toNat with
    | [] => none
    | m :: rest =>
      if bits b 2 62 ≠ 0 || !blockGood s c a false then none
      else
        some ⟨h, { usesS2 f 1 with room := s.emptyBox f.sb, mem := true }, fun t =>
          { onCtx s (fun c => Ctx.touch { c with staged := c.staged ++ [Staged.message s.serial a.toNat m.2] } .c c.time)
              (t.modCore c.core fun x => { x with mail := x.mail.insert b.toNat rest }) with serial := s.serial + 1 }.deliver f.d1 f.d2 m.1 1⟩
  | .mbxCnt h f =>
    let a := ibA c f.sa
    if bits a 2 62 ≠ 0 then none
    else some ⟨h, usesS1 f 1, fun t => t.deliver f.d1 f.d2 (toWord ((s.core c.core).box a.toNat).length) 1⟩
  | .deskew h f =>
    some ⟨h, { d1 := f.d1, d2 := f.d2 }, fun t =>
      onCtx s (fun c => { c with holds := c.holds ++ [.deskew] })
        { t.addLanding (fun l => { l with d1 := f.d1, d2 := f.d2, missing := 1 }) 1 with
          deskewing := s.deskewing ++ [(s.focus.1, s.serial)] }⟩
  | .zlat h f =>
    let a := ibA c f.sa
    let src := bits a 0 2
    let dst := bits a 2 2
    if bits a 5 59 ≠ 0 || src = 3 || dst = 3 then none
    else
      some ⟨h, usesS1 f 1, fun t =>
        t.deliver f.d1 f.d2
          ((if src = dst then 0 else if bits a 4 1 = 0 then s.zone.getD (src * 4 + dst) 0 else s.zoneCopy.getD (src * 4 + dst) 0).setWidth 64) 1⟩
  | .propPush h f =>
    let a := ibA c f.sa
    if !blockGood s c a true || badProposal (blockAt s c a) || !gateOpen s c (s.releaseGate 3) || (s.die 1).resetting then none
    else
      some ⟨h, { sa := some (4, f.sa), room := if 4096 ≤ s.pq.length then some (3, true) else none, mem := true }, fun t =>
        { noteBlock s c a t with pq := s.pq ++ [blockAt s c a] }⟩
  | .propPop h f =>
    let a := ibA c f.sa
    let lat := 32 * (1 + f.fn.toNat / 4)
    if !blockGood s c a false || decide (64 ≤ c.lndcnt) then none
    else
      some ⟨h, { usesS1 f lat with mem := true, dieIllegal := c.who.die != 1 }, fun t =>
        match s.pq with
        | [] => t.landWord f.d1 f.d2 0xFFFFFFFFFFFFFFFF 0xFFFFFFFFFFFFFFFF lat id
        | r :: rest =>
          { t with pq := rest }.landWord f.d1 f.d2 (toWord (ofBytes (r.take 8))) (toWord (ofBytes (r.take 8))) lat
            fun l => { l with put := some (a.toNat, r) }⟩
  | .hznRd h f =>
    let a := ibA c f.sa
    let lat := 32 * (1 + f.fn.toNat / 4)
    let target := f.fn.toNat % 4
    if bits a 12 52 ≠ 0 || decide (64 ≤ c.lndcnt) || (s.die (if target = 0 then 0 else 1)).resetting then none
    else
      let x := s.seq a.toNat
      some ⟨h, usesS1 f lat, fun t =>
        t.landWord f.d1 f.d2 (if target = 0 then x.horizon else x.seqt) (if target = 0 then x.horizon else x.seqt) lat id⟩
  | .hznWr h f =>
    let a := ibA c f.sa
    let b := ibB c f.sb
    let n := bits a 0 12
    let target := bits a 12 1
    let bad := if target = 0 then bits b 32 32 != 0 else bits b 21 11 != 0 || bits b 16 5 == 0 || decide (16 < bits b 16 5)
    if bits a 13 51 ≠ 0 || bad || !gateOpen s c (s.releaseGate 3) || (s.die (if target = 0 then 0 else 1)).resetting then none
    else
      let x := s.seq n
      some ⟨h, { sa := some (4, f.sa), sb := some (5, f.sb) }, fun t =>
        t.setSeq n (if target = 0 then
            { x with horizon := toWord (b.toNat % 2 ^ 32 + (bits x.horizon 32 16 + 1) % 2 ^ 16 * 2 ^ 32) }
          else { x with seqt := b })⟩
  | .lnkSt h f =>
    let a := ibA c f.sa
    let l := bits a 0 2
    let n := bits a 4 4
    if l = 3 || bits a 2 2 ≠ 0 || bits a 8 56 ≠ 0 || (f.fn ≠ 1 && n ≠ 0) || Config.linkModules l ≤ n then none
    else some ⟨h, usesS1 f 1, fun t => t.deliver f.d1 f.d2 (s.linkWord l f.fn.toNat n) 1⟩
  | .lnkRate h f =>
    let a := ibA c f.sa
    let b := ibB c f.sb
    let l := bits a 0 2
    let x := s.link l
    if l = 3 || bits a 2 62 ≠ 0 || bits b 3 61 ≠ 0 || 4 < b.toNat || !x.want.isEmpty then none
    else
      some ⟨h, { sa := some (4, f.sa), sb := some (5, f.sb), priv := true }, fun t =>
        if x.down then t
        else
          onCtx s (fun c => { c with holds := c.holds ++ [.link l] })
            { t with links := s.links.insert l { x with
                want := [⟨some b.toNat, false, true⟩]
                movedAt := if x.closed then x.movedAt else s.serial } }⟩
  | _ => none

end Sys2Proof.Effects
end

