-- ==== Sys2Proof/Effects/Frames.lean ====
section
/-! DEFINITION. What a step leaves as it was: registers, queues, the array, bytes of memory, and everything else, for the statements. -/

namespace Sys2Proof.Effects

open Sys2Proof.Machine Sys2Proof.Safety

/-- Every file entry, predicate and MRF element, every PC, loop counter and return address but those of the clusters `own`, and every
control, trap and identity register of a context read as before. -/
structure RegistersKept (own : List Cluster) (c d : Ctx) : Prop where
  files : ∀ cl f e, (d.cl cl).file f e = (c.cl cl).file f e
  preds : ∀ cl j, (d.cl cl).pred j = (c.cl cl).pred j
  loops : ∀ cl, cl ∉ own → (d.cl cl).lc0 = (c.cl cl).lc0 ∧ (d.cl cl).lc1 = (c.cl cl).lc1 ∧ (d.cl cl).ret = (c.cl cl).ret
  pcs : ∀ cl, cl ∉ own → (d.cl cl).pc = (c.cl cl).pc
  mrf : d.mrf = c.mrf
  who : d.who = c.who
  control : d.coreCtl = c.coreCtl
  traps : d.cause = c.cause ∧ d.epc = c.epc ∧ d.inHandler = c.inHandler
  entries : d.entry = c.entry ∧ d.code = c.code
  areas : d.ctxArea = c.ctxArea ∧ d.traceBase = c.traceBase ∧ d.xroot = c.xroot ∧ d.rgn = c.rgn
  counts : d.ctr.freeze = c.ctr.freeze ∧ d.ctr.late = c.ctr.late ∧ d.ctr.retry = c.ctr.retry
  time : d.time = c.time ∧ d.coreTime = c.coreTime

/-- Every byte of the HBM, of host and peer memory and of every scratchpad reads as before. -/
structure BytesKept (s t : State) : Prop where
  hbm : ∀ a, t.hbm.read a = s.hbm.read a
  host : ∀ a, t.hostMem.read a = s.hostMem.read a
  peer : ∀ a, t.peerMem.read a = s.peerMem.read a
  scratch : ∀ k o, (t.core k).get o = (s.core k).get o

/-- What the raw contents of a byte's home read as, decode views aside. -/
def rawByte (s : State) : HomeOf → Byte
  | .scratch k o => (s.core k).get o
  | .mem pa => s.hbm.read pa
  | .host a => s.hostMem.read a
  | .peer n va => s.peerMem.read (n * 2 ^ 48 + va)

/-- A landing that a word of a cluster has scheduled: to its delivery codes, its predicates, and MRF elements among given ones. -/
def scheduledBy (cl : Cluster) (u : Uses) (es : List Nat) (l : Landing) : Prop :=
  l.cl = cl ∧ l.d1 = u.d1 ∧ l.d2 = u.d2 ∧ l.pmask = u.pmask &&& 0xFE ∧ ∀ e ∈ l.elems, e ∈ es

/-- What a word of the cluster in focus that reaches no memory leaves as it was when it issues: all registers, since its results only
land later; every landing that was pending, its own following them; every queue that it neither pops nor delivers to; every other
context; and the rest of the machine, every byte of memory among it. -/
structure Quiet (s t : State) (c d : Ctx) (u : Uses) (es : List Nat) (own : List Cluster) : Prop where
  after : t.ctx? s.focus.1 = some d
  registers : RegistersKept own c d
  landings : ∃ l, d.landings = c.landings ++ l ∧ ∀ x ∈ l, scheduledBy s.focus.2 u es x
  queues : ∀ q, (∀ i ∈ u.pops s.focus.2, inQueue s.focus.2 i ≠ q) → (∀ e ∈ u.outs, outQueue s.focus.2 e ≠ q) → d.queue q = c.queue q
  others : ∀ j, j ≠ s.focus.1 → t.ctx? j = s.ctx? j
  rest : t = { s with ctxs := t.ctxs, serial := t.serial }

/-- The words that raise a cause, end or halt the context at the end of the cycle, or change the fork set (R90, R96, R101, R102). -/
def directs : Instr → Bool
  | .trap _ _ | .fork _ _ | .yield _ | .exit _ => true
  | _ => false

/-- Of a context, the clusters `own`, the queues, the landings, the counts, and what tells of the issue have changed alone; a word that `directs` may have
changed the causes raised, the end, the yield and the fork set as well. -/
structure OnlyIssued (own : List Cluster) (i : Instr) (c d : Ctx) : Prop where
  others : ∀ cl, cl ∉ own → d.cl cl = c.cl cl
  rest : d = { c with
    cls := d.cls, queues := d.queues, freed := d.freed, landings := d.landings, ctr := d.ctr, verdict := d.verdict
    issuedCls := d.issuedCls, issuedPcs := d.issuedPcs, traps := d.traps, ends := d.ends, yields := d.yields, forkset := d.forkset }
  marks : directs i = false → d.traps = c.traps ∧ d.ends = c.ends ∧ d.yields = c.yields ∧ d.forkset = c.forkset

/-- The loop counters and the return stack of the cluster in focus are kept, but for the count of a loop that ends at its word (R87). -/
def LoopsKept (cl : Cluster) (c d : Ctx) : Prop :=
  (d.cl cl).ret = (c.cl cl).ret ∧
    (d.cl cl).lc0.start = (c.cl cl).lc0.start ∧ (d.cl cl).lc0.stop = (c.cl cl).lc0.stop ∧
    (d.cl cl).lc1.start = (c.cl cl).lc1.start ∧ (d.cl cl).lc1.stop = (c.cl cl).lc1.stop ∧
    ((c.cl cl).lc0.stop ≠ (c.cl cl).pc → (d.cl cl).lc0.count = (c.cl cl).lc0.count) ∧
    ((c.cl cl).lc1.stop ≠ (c.cl cl).pc → (d.cl cl).lc1.count = (c.cl cl).lc1.count)

/-- The clusters that a word reaches: its own, and those that a `fork` releases (R96). -/
def reached (s : State) : Instr → List Cluster
  | .fork _ f => s.focus.2 :: forkNames f
  | _ => [s.focus.2]

/-- The words that change the loop counters or the return stack of their cluster (R85, R86). -/
def steers : Instr → Bool
  | .jal _ _ | .ret _ | .loop _ _ | .loopi _ _ | .lend _ _ => true
  | _ => false

/-- The elements of the operands that `vpack` writes; the other words of the scalar frame write none. -/
def packElems : Instr → List Nat
  | .vpack _ f => elems16 f.vd ++ elems16 f.vb
  | _ => []

/-- The elements that a word of M drains to (R219, R222). -/
def drained : Instr → List Nat
  | .mdrain _ f | .mdrainc _ f => drainElemsOf f.dt f.df
  | .mbeat _ f => if f.dr = 1 then drainElemsOf f.dt f.df else []
  | .mshift _ f => if f.dr = 1 then drainElemsOf f.dt f.df else []
  | _ => []

/-- The places that `ctxsv` writes, as scratchpad, first offset and length: the area, the chunks its mask needs, and for the regions of a task with
the array its spill area (R168, R170, R224). -/
def areaPlaces (s : State) (c : Ctx) (a mask : Nat) : List (Nat × Nat × Nat) :=
  (((a, 0x15000) :: (c.neededChunks mask).map fun e => (s.chunk a e.1, e.2)).map fun e => ((areaHome e.1).1, (areaHome e.1).2, e.2)) ++
    (if 8 ≤ mask && c.who.au then [(c.core, c.spillAt, spillBytes)] else [])

/-- A byte of a scratchpad lies outside every one of given places. -/
def outside (places : List (Nat × Nat × Nat)) (k o : Nat) : Prop := ∀ e ∈ places, k ≠ e.1 ∨ o < e.2.1 ∨ e.2.1 + e.2.2 ≤ o

/-- REPL_CTL after a word: an `rcmp` that meets the partner's pair sets LAST, or MISM where they differ (R456, R459). -/
def replAfter (s : State) (c : Ctx) : Instr → Word
  | .rcmp _ f =>
    match s.fab.pair with
    | none => s.fab.replCtl
    | some p =>
      let step := bits (srcA s c .ia f.sa) 0 32
      if p = (BitVec.ofNat 32 step, s.fab.digest) then setBits s.fab.replCtl 32 32 step else s.fab.replCtl ||| 8
  | _ => s.fab.replCtl

/-- The words whose frame is the scalar one, with the MRF elements they read. -/
def quietWord (s : State) (c : Ctx) (i : Instr) : Option (Doing × List Nat) :=
  let plain := fun o : Option Doing => o.map fun d => (d, ([] : List Nat))
  (plain (valueWord s c i)).orElse fun _ => (plain (divideWord s c i)).orElse fun _ => (plain (predicateWord s c i)).orElse fun _ =>
    (plain (countWord s c i)).orElse fun _ => (plain ((branchWord s c i).map Prod.fst)).orElse fun _ =>
    (plain (controlWord s c i)).orElse fun _ => (scalarWord s c i).orElse fun _ => packWord c i

/-- The words whose frame is that of what they send: memory, order, events, atomics, registers and units. -/
def outgoingWord (s : State) (c : Ctx) (i : Instr) : Option Doing :=
  (memoryWord s c i).orElse fun _ => (exchangeWord s c i).orElse fun _ => (barrierWord s c i).orElse fun _ =>
    (atomicWord s c i).orElse fun _ => (fabricWord s c i).orElse fun _ => (registerWord s c i).orElse fun _ =>
    (schedulerWord s c i).orElse fun _ => packageWord s c i

/-- The sequence slot whose HORIZON or SEQT a word writes, the semaphore of a die that it changes, and the mailbox of a core that it takes from: `hzn.wr`, the
semaphore words but `sem.rd`, and `mbx.recv` change these at their issue (R350, R406, R409). -/
def slotWritten (c : Ctx) : Instr → Option Nat
  | .hznWr _ f => some (bits (ibA c f.sa) 0 12)
  | _ => none
def semChanged (s : State) (c : Ctx) : Instr → Option Nat
  | .semSig _ f => s.semNumber c (ibA c f.sa)
  | .semWait _ f => s.semNumber c (ibA c f.sa)
  | .semInit _ f => some (ibA c f.sa).toNat
  | _ => none
def boxTaken (c : Ctx) : Instr → Option Nat
  | .mbxRecv _ f => some (ibB c f.sb).toNat
  | _ => none

/-- The words that put a proposal into the queue of VD0 or take one (R404, R405). -/
def proposes : Instr → Bool
  | .propPush _ _ | .propPop _ _ => true
  | _ => false

/-- The registers of the dies, of the links and of the package that a slot word does not write at its issue: all of them, but for the ones named above. -/
structure UnitsKept (s t : State) (c : Ctx) (i : Instr) : Prop where
  dies : ∀ d, (t.die d).heddle = (s.die d).heddle ∧ (t.die d).hslice = (s.die d).hslice ∧ (t.die d).savepool = (s.die d).savepool ∧
    (t.die d).atpool = (s.die d).atpool ∧ (t.die d).regions = (s.die d).regions ∧ (t.die d).handler = (s.die d).handler ∧
    (t.die d).banks = (s.die d).banks ∧ (t.die d).time = (s.die d).time
  links : ∀ l, { t.link l with want := [], movedAt := 0 } = { s.link l with want := [], movedAt := 0 }
  slots : ∀ n, slotWritten c i ≠ some n → t.seq n = s.seq n
  semaphores : ∀ d n, d ≠ c.who.die ∨ semChanged s c i ≠ some n → (t.die d).sem n = (s.die d).sem n
  mailboxes : ∀ k n, k ≠ c.core ∨ boxTaken c i ≠ some n → (t.core k).box n = (s.core k).box n
  proposals : proposes i = false → t.pq = s.pq
  package : t.zone = s.zone ∧ t.depthTab = s.depthTab ∧ t.qzero = s.qzero ∧ t.kvGeom = s.kvGeom ∧ t.kv = s.kv ∧ t.keys = s.keys ∧
    t.log = s.log ∧ t.fab.node = s.fab.node ∧ t.fab.ents = s.fab.ents ∧ t.fab.peerSel = s.fab.peerSel ∧
    (∀ n, n < 4 → t.window n = s.window n)
  faults : ∀ k, (t.core k).faddr = (s.core k).faddr ∧ (t.core k).finfo = (s.core k).finfo ∧ (t.core k).tags = (s.core k).tags

end Sys2Proof.Effects
end

