-- ==== Sys2Proof/Effects/Traps.lean ====
section
/-! DEFINITION. The faults at issue that the rules name, for the statements to compare the meanings with. -/

namespace Sys2Proof.Effects

open Sys2Proof.Machine Sys2Proof.Safety

/-- A word that traps: its header, its uses and its cause; the context with the core ports that the word has taken by then; and whether the fault lies in
what the word reaches, so that an outstanding acquire holds it back (R151, R237). -/
structure Trapping where
  h : Hdr
  u : Uses
  cause : Cause
  taken : Option Ctx := none
  late : Bool := false

/-- The state in which a trap is taken. -/
def Trapping.on (d : Trapping) (s : State) : State :=
  match d.taken with
  | none => s
  | some c => s.setCtx s.focus.1 c

/-- A division by 0 (R95). -/
def divideTrap (s : State) (c : Ctx) (h : Hdr) (f : FmtRR) : Option Trapping :=
  if srcB s c .im f.sb = 0 then some ⟨h, usesRR .im 20 f s, causeDivideByZero, none, false⟩ else none

/-- A word that may not issue in a handler (R97). -/
def inHandlerTrap (c : Ctx) (h : Hdr) : Option Trapping := if c.inHandler then some ⟨h, {}, causeIllegalOp, none, false⟩ else none

/-- A loop whose last word does not lie after the loop word (R86). -/
def loopTrap (h : Hdr) (u : Uses) (f : FmtLP) : Option Trapping := if 0 < f.off.toInt then none else some ⟨h, u, causeIllegalOp, none, false⟩

/-- A load that fails a check of R229, or finds no landing-buffer entry (R141). -/
def loadTrap (s : State) (c : Ctx) (sp : Space) (h : Hdr) (u : Uses) (a : Word) (n align : Nat) : Option Trapping :=
  match s.checkAccess c sp a n align with
  | some e => some ⟨h, u, e, none, false⟩
  | none => if sp != .lsp && !c.mayAllot sp then some ⟨h, u, causeLandingLimit, none, false⟩ else none
def loadTrapS (s : State) (c : Ctx) (sp : Space) (h : Hdr) (f : FmtLD) : Option Trapping :=
  loadTrap s c sp h { usesAB s f.sa f.sb with d1 := f.d1, d2 := f.d2, lat := landIn c sp f.land }
    (loadAddr sp (srcA s c .ia f.sa) (srcB s c .ia f.sb)) (2 ^ f.sz.toNat) (2 ^ f.sz.toNat)
def loadTrapV (s : State) (c : Ctx) (sp : Space) (h : Hdr) (f : FmtLDV) : Option Trapping :=
  loadTrap s c sp h (usesAB s f.sa f.sb) (loadAddr sp (srcA s c .ia f.sa) (srcB s c .ia f.sb)) 256 64

/-- A store that fails a check of R229 or meets a tagged granule (R272), or reads an invalid row under UMODE 0 (R144), `es` being the elements that
VS names. -/
def storeTrap (s : State) (c : Ctx) (sp : Space) (h : Hdr) (u : Uses) (a : Word) (n align : Nat) (es : List Nat) : Option Trapping :=
  match s.checkAccess c sp a n align with
  | some e => some ⟨h, u, e, none, false⟩
  | none =>
    if s.clobbers c sp a n then some ⟨h, u, causeBarrierClobber, some c, true⟩
    else if (c.uninitElem es).isSome && c.umode == 0 then
      some ⟨h, u, causeUninitRead, some (if sp == .lsp then c.usePort a.toNat else c), false⟩
    else none
def storeTrapS (s : State) (c : Ctx) (sp : Space) (h : Hdr) (f : FmtST) : Option Trapping :=
  storeTrap s c sp h (usesAB s f.sa f.sb) (srcA s c .ia f.sa) (2 ^ f.sz.toNat) (2 ^ f.sz.toNat) []
def storeTrapV (s : State) (c : Ctx) (sp : Space) (h : Hdr) (f : FmtSTV) : Option Trapping :=
  storeTrap s c sp h { sa := some (aFile s.focus.2 .ia, f.sa), elems := elems16 f.vs, mem := true } (srcA s c .ia f.sa) 256 64 (elems16 f.vs)

/-- A word of the matrix array on a task without it (R200). -/
def arrayTrap (c : Ctx) (h : Hdr) (u : Uses) : Option Trapping := if c.who.au then none else some ⟨h, u, causeSpaceFault, none, false⟩

/-- A word of M that reads `n` bytes of a half: without the array, outside its regions, misaligned, on the core port that X's word of the cycle has
taken (R151), or on a line with an error or, under UMODE 0, an invalid one (R211). -/
def halfTrap (s : State) (c : Ctx) (h : Hdr) (half n : Nat) (sa : BitVec 4) : Option Trapping :=
  let a := srcA s c .ia sa
  let o := half * 2 ^ 22 + bits a 0 22
  let m := s.core c.core
  let u := usesH sa s
  if !c.who.au || bits a 22 42 ≠ 0 then some ⟨h, u, causeSpaceFault, none, false⟩
  else if bits a 0 5 ≠ 0 then some ⟨h, u, causeMisalign, none, false⟩
  else if !(c.owns o n && populated c.who.die o) then some ⟨h, u, causeSpaceFault, none, false⟩
  else if c.xPort.contains half then some ⟨h, u, causeBankConflict, none, false⟩
  else if (m.badByte o n).isSome then some ⟨h, u, causeEccUe, some c, true⟩
  else if (m.invalidLine o n).isSome && c.umode == 0 then some ⟨h, u, causeUninitRead, some c, true⟩
  else none

/-- A word that reads MRF elements of an invalid row under UMODE 0 (R144). -/
def rowTrap (c : Ctx) (h : Hdr) (u : Uses) (es : List Nat) : Option Trapping :=
  if (c.uninitElem es).isSome && c.umode == 0 then some ⟨h, u, causeUninitRead, none, false⟩ else none

/-- The causes at issue of the words whose checks the rules list, other than those of R63 itself. -/
def trapWord (s : State) (c : Ctx) : Instr → Option Trapping
  | .div h f => divideTrap s c h f
  | .divu h f => divideTrap s c h f
  | .rem h f => divideTrap s c h f
  | .remu h f => divideTrap s c h f
  | .jr h f =>
    if (srcA s c .ib f.sa + srcB s c .ib f.sb).toNat % 8 = 0 then none
    else some ⟨h, { sa := some (aFile s.focus.2 .ib, f.sa), sb := some (bFile s.focus.2 .ib, f.sb) }, causeMisalign, none, false⟩
  | .ret h => if (c.cl s.focus.2).ret = [] then some ⟨h, {}, causeIllegalOp, none, false⟩ else none
  | .loop h f => loopTrap h { sa := some (aFile s.focus.2 .ib, f.sa) } f
  | .loopi h f => loopTrap h {} f
  | .join h => inHandlerTrap c h
  | .halt h => inHandlerTrap c h
  | .trap h _ => inHandlerTrap c h
  | .fork h _ => inHandlerTrap c h
  | .yield h => inHandlerTrap c h
  | .exit h => inHandlerTrap c h
  | .eret h => if c.inHandler then none else some ⟨h, { priv := true }, causeIllegalOp, none, false⟩
  | .ctxsv h f =>
    if c.inHandler then none else some ⟨h, { sa := some (4, f.sa), sb := some (5, f.sb), priv := true }, causeIllegalOp, none, false⟩
  | .ctxld h f =>
    if c.inHandler then none else some ⟨h, { sa := some (4, f.sa), sb := some (5, f.sb), priv := true }, causeIllegalOp, none, false⟩
  | .crr h f =>
    if crrReadable f.crn then none
    else some ⟨h, { d1 := f.d1, d2 := f.d2, dieIllegal := crnForeign c.who.die f.crn }, causePrivilege, none, false⟩
  | .ldl h f => loadTrapS s c .lsp h f
  | .ldc h f => loadTrapS s c .csp h f
  | .ldd h f => loadTrapS s c .dsp h f
  | .ldm h f => loadTrapS s c .mem h f
  | .ldn h f => loadTrapS s c .peer h f
  | .ldh h f => loadTrapS s c .host h f
  | .ldlV h f => loadTrapV s c .lsp h f
  | .ldcV h f => loadTrapV s c .csp h f
  | .lddV h f => loadTrapV s c .dsp h f
  | .ldmV h f => loadTrapV s c .mem h f
  | .ldnV h f => loadTrapV s c .peer h f
  | .ldhV h f => loadTrapV s c .host h f
  | .stl h f => storeTrapS s c .lsp h f
  | .stc h f => storeTrapS s c .csp h f
  | .std h f => storeTrapS s c .dsp h f
  | .stm h f => storeTrapS s c .mem h f
  | .stn h f => storeTrapS s c .peer h f
  | .sth h f => storeTrapS s c .host h f
  | .stlV h f => storeTrapV s c .lsp h f
  | .stcV h f => storeTrapV s c .csp h f
  | .stdV h f => storeTrapV s c .dsp h f
  | .stmV h f => storeTrapV s c .mem h f
  | .stnV h f => storeTrapV s c .peer h f
  | .sthV h f => storeTrapV s c .host h f
  | .mdrain h _ => arrayTrap c h {}
  | .mdrainc h _ => arrayTrap c h {}
  | .mshift h _ => arrayTrap c h {}
  | .mcfg h _ => arrayTrap c h {}
  | .mclr h _ => arrayTrap c h {}
  | .mexp h f => arrayTrap c h { d1 := f.d1, d2 := f.d2 }
  | .msat h f => arrayTrap c h { d1 := f.d1, d2 := f.d2 }
  | .mstat h f => arrayTrap c h { d1 := f.d1, d2 := f.d2 }
  | .mwait h => arrayTrap c h { elems := pendingDrains c }
  | .mbeat h f => halfTrap s c h f.h.toNat (if c.array.sp = 1 then 832 else 416) f.sa
  | .mwload h f => halfTrap s c h f.half.toNat 384 f.sa
  | .mbscale h f => halfTrap s c h f.half.toNat 128 f.sa
  | .mseed h f => arrayTrap c h (usesM f.sa s)
  | .mexpw h f => arrayTrap c h { usesM f.sa s with d1 := f.d1, d2 := f.d2 }
  | i =>
    match laneWord s c i, (scalarWord s c i).orElse fun _ => packWord c i with
    | some w, _ => rowTrap c w.h w.u w.u.elems
    | none, some d => rowTrap c d.1.h d.1.u d.2
    | none, none => none

end Sys2Proof.Effects
end

