-- ==== Sys2Proof/Effects/Faults.lean ====
section
/-! DEFINITION. The faults at issue of the words that push commands, send events and atomics, and use the units of a die and of the package; and the
gates that words set themselves, for the statements to compare the meanings with. -/

namespace Sys2Proof.Effects

open Sys2Proof.Machine Sys2Proof.Safety

/-- Checks in their order, each with the cause it comes to, the context whose core ports the word has taken by then, and whether an outstanding acquire
holds the fault back. -/
abbrev Checks := List (Bool × Cause × Option Ctx × Bool)

/-- The trap of the first check that fails. -/
def firstFault (h : Hdr) (u : Uses) (l : Checks) : Option Trapping :=
  (l.find? fun e => e.1).map fun e => ⟨h, u, e.2.1, e.2.2.1, e.2.2.2⟩

/-- A check of operands and of state that is known without a read of scratchpad. -/
def plain (b : Bool) (cause : Cause) : Bool × Cause × Option Ctx × Bool := (b, cause, none, false)

/-- A check of what a word reads in scratchpad, after it has taken its core ports. -/
def found (b : Bool) (cause : Cause) (c : Ctx) : Bool × Cause × Option Ctx × Bool := (b, cause, some c, true)

/-! ### Commands (R239, R241, R242) -/

/-- A push: OFF24 is misaligned or outside the regions; then the second record is outside them; then a line of either is bad, or invalid under UMODE 0;
then the command is illegal. -/
def pushChecks (s : State) (c : Ctx) (off : BitVec 24) (w : Quad Word) (shaped : Bool) (bad : Quad Word → Quad Word → Bool) : Checks :=
  let m := s.core c.core
  let inside := fun o => c.owns o 32 && populated c.who.die o
  let os := if shaped then [off.toNat, shpOf w] else [off.toNat]
  let d := os.foldl Ctx.usePort c
  [plain (off.toNat % 32 != 0) causeMisalign, plain (!inside off.toNat) causeSpaceFault, found (!os.all inside) causeSpaceFault c,
   found (os.any fun o => (m.badByte o 32).isSome) causeEccUe d,
   found ((os.any fun o => (m.invalidLine o 32).isSome) && c.umode == 0) causeUninitRead d,
   found (bad w (if shaped then recordAt s c (shpOf w) else .all 0)) causeIllegalOp d]

/-- The faults of `salloc`, `cpy` and `ecmd`. -/
def exchangeFault (s : State) (c : Ctx) : Instr → Option Trapping
  | .salloc h f =>
    let a := srcA s c .ia f.sa
    let b := srcB s c .ia f.sb
    firstFault h (usesAB s f.sa f.sb)
      [plain (bits a 0 6 != 0 || bits b 0 6 != 0) causeMisalign, plain (bits a 24 40 != 0) causeSpaceFault,
       plain (b != 0 && !c.owns a.toNat b.toNat) causeSpaceFault,
       found (b != 0 && c.owns a.toNat b.toNat && (s.core c.core).tagged a.toNat b.toNat) causeBarrierClobber c]
  | .cpy h f =>
    let w := patched (recordAt s c f.off.toNat) f.p1 f.p2 f.w1 f.w2 (srcA s c .ia f.sa) (srcB s c .ia f.sb)
    firstFault h { usesPatch f.p1 f.p2 f.sa f.sb s with room := s.moverRoom [f.mq.toNat] }
      (pushChecks s c f.off w (hasShape (kindOf w)) badMover)
  | .ecmd h f =>
    let w := patched (recordAt s c f.off.toNat) f.p1 f.p2 f.w1 f.w2 (srcA s c .ia f.sa) (srcB s c .ia f.sb)
    let e := engineOf f.eng
    firstFault h { usesPatch f.p1 f.p2 f.sa f.sb s with
        room := s.engineRoom e f.eq.toNat, dieIllegal := f.eng != 0 && decide (c.who.die = 0) }
      (pushChecks s c f.off w (e == .coll && kindOf w == 7) (badEngine e))
  | _ => none

/-! ### Barriers, atomics and windows (R275, R285, R316, R327) -/

/-- The checks of a barrier word: its operand b, its granule, and a landing-buffer entry where it lands. -/
def barChecks (c : Ctx) (a : Word) (bad lands : Bool) : Checks :=
  [plain bad causeIllegalOp, plain (bits a 27 37 != 0) causeSpaceFault, plain (bits a 0 4 != 0) causeMisalign,
   plain (lands && !c.mayAllot .csp) causeLandingLimit]

/-- The faults of the barrier words and of `mcast`. -/
def barrierFault (s : State) (c : Ctx) : Instr → Option Trapping
  | .barInit h f =>
    let b := srcB s c .ia f.sb
    firstFault h (usesAB s f.sa f.sb) (barChecks c (srcA s c .ia f.sa)
      (bits b 18 46 != 0 || (if bits b 17 1 = 1 then bits b 0 17 != 0 else bits b 0 16 == 0)) false)
  | .barArr h f =>
    let b := srcB s c .ia f.sb
    firstFault h { usesAB s f.sa f.sb with d1 := f.d1, d2 := f.d2, lat := 24 }
      (barChecks c (srcA s c .ia f.sa) (bits b 16 48 != 0 || bits b 0 16 == 0) (f.d1 != 63 || f.d2 != 63))
  | .barExp h f => firstFault h (usesAB s f.sa f.sb) (barChecks c (srcA s c .ia f.sa) (bits (srcB s c .ia f.sb) 40 24 != 0) false)
  | .barCred h f => firstFault h (usesAB s f.sa f.sb) (barChecks c (srcA s c .ia f.sa) (bits (srcB s c .ia f.sb) 40 24 != 0) false)
  | .barWait h f =>
    firstFault h { usesAB s f.sa f.sb with d1 := f.d1, d2 := f.d2, lat := 24 + 16 * f.fn.toNat }
      (barChecks c (srcA s c .ia f.sa) (bits (srcB s c .ia f.sb) 1 63 != 0) true)
  | .barTest h f =>
    firstFault h { sa := some (aFile s.focus.2 .ia, f.sa), mem := true, d1 := f.d1, d2 := f.d2, lat := 24 }
      (barChecks c (srcA s c .ia f.sa) false (f.d1 != 63 || f.d2 != 63))
  | .barBrk h f => firstFault h { sa := some (aFile s.focus.2 .ia, f.sa), mem := true } (barChecks c (srcA s c .ia f.sa) false false)
  | .mcast h f =>
    let a := srcA s c .ia f.sa
    let b := srcB s c .ia f.sb
    let n := 64 * 2 ^ f.fn.toNat
    let m := s.core c.core
    firstFault h (usesAB s f.sa f.sb)
      [plain (mcastIllegal b) causeIllegalOp, plain (bits a 24 40 != 0) causeSpaceFault,
       plain (bits a 0 6 != 0 || bits b 0 6 != 0) causeMisalign, plain (!c.owns a.toNat n || !populated c.who.die a.toNat) causeSpaceFault,
       found (m.badByte a.toNat n).isSome causeEccUe (c.usePort a.toNat),
       found ((m.invalidLine a.toNat n).isSome && c.umode == 0) causeUninitRead (c.usePort a.toNat)]
  | _ => none

/-- An atomic word that pops `pops` entries and accesses `n` bytes: an address outside its space, a misaligned one, no landing-buffer entry. -/
def atomicChecks (s : State) (c : Ctx) (h : Hdr) (f : FmtAM) (pops n : Nat) (lands : Bool) : Option Trapping :=
  let sp := amSpace f.sp.toNat
  let a := srcA s c .ia f.sa + srcB s c .ia f.sb
  firstFault h { usesAB s f.sa f.sb with data := pops, d1 := f.d1, d2 := f.d2, lat := if f.land = 0 then ldef sp else f.land.toNat }
    [plain (s.badAddress c sp a) causeSpaceFault, plain (a.toNat % n != 0) causeMisalign, plain (lands && !c.mayAllot sp) causeLandingLimit]

/-- A window word: its operand b, its space and address, its alignment. -/
def windowChecks (s : State) (c : Ctx) (a : Word) (bad : Bool) : Checks :=
  [plain bad causeIllegalOp, plain (bits a 62 2 == 3 || s.badAddress c (amSpace (bits a 62 2)) (toWord (bits a 0 62))) causeSpaceFault,
   plain (bits a 0 2 != 0) causeMisalign]

/-- The faults of the atomics and of the window words. -/
def atomicFault (s : State) (c : Ctx) : Instr → Option Trapping
  | .amo h f => atomicChecks s c h f (amoPops f.aop) (if f.w = 1 then 8 else 4) true
  | .ared h f => atomicChecks s c h f (amoPops f.aop) (if f.w = 1 then 8 else 4) false
  | .amocas h f => atomicChecks s c h f (if f.w = 1 then 2 else 1) (if f.w = 1 then 8 else 4) true
  | .amof h f => atomicChecks s c h f 1 (if f.w = 1 then 2 else 4) true
  | .aredf h f => atomicChecks s c h f 1 (if f.w = 1 then 2 else 4) false
  | .amotOpen h f =>
    let b := srcB s c .ia f.sb
    firstFault h (usesAB s f.sa f.sb)
      (windowChecks s c (srcA s c .ia f.sa) (bits b 33 31 != 0 || (bits b 32 1 == 1 && bits b 0 32 != 0)))
  | .amotSkip h f => firstFault h (usesAB s f.sa f.sb) (windowChecks s c (srcA s c .ia f.sa) (bits (srcB s c .ia f.sb) 32 32 != 0))
  | .drainT h f =>
    firstFault h { sa := some (aFile s.focus.2 .ia, f.sa), mem := true } (windowChecks s c (srcA s c .ia f.sa) false)
  | _ => none

/-! ### The fabric, registers and save areas (R92, R97, R99, R100, R448, R449, R458, R459) -/

/-- The faults of X's words about other packages. -/
def fabricFault (s : State) (c : Ctx) : Instr → Option Trapping
  | .pseq h f =>
    firstFault h { sa := some (aFile s.focus.2 .ia, f.sa), d1 := f.d1, d2 := f.d2 } [plain (bits (srcA s c .ia f.sa) 10 54 != 0) causeIllegalOp]
  | .pflush h f =>
    let a := srcA s c .ia f.sa
    firstFault h { sa := some (aFile s.focus.2 .ia, f.sa) } [plain (bits a 16 48 != 0 || (bits a 10 6 != 0 && a != 0xFFFF)) causeIllegalOp]
  | .rdig h f =>
    firstFault h { sa := some (aFile s.focus.2 .ia, f.sa), d1 := f.d1, d2 := f.d2 }
      [plain (bits (srcA s c .ia f.sa) 1 63 != 0) causeIllegalOp, plain (!s.replicated c.who.gid) causePrivilege]
  | .rcmp h f =>
    firstFault h { sa := some (aFile s.focus.2 .ia, f.sa), d1 := f.d1, d2 := f.d2, lat := 1024 * (f.fn.toNat + 1) }
      [plain (bits (srcA s c .ia f.sa) 32 32 != 0) causeIllegalOp, plain (!s.replicated c.who.gid) causePrivilege,
       plain (decide (64 ≤ c.lndcnt)) causeLandingLimit]
  | _ => none

/-- A write of ESC outside a handler; a save area that its check refuses, or that a load finds bad. -/
def registerFault (s : State) (c : Ctx) : Instr → Option Trapping
  | .crw h f =>
    firstFault h { sa := some (4, f.sa), d1 := f.d1, d2 := f.d2, priv := true, dieIllegal := crnForeign c.who.die f.crn }
      [plain (f.crn == 0x043 && !c.inHandler) causeIllegalOp]
  | .ctxsv h f =>
    let e := s.areaFault c (ibA c f.sa) (ibB c f.sb) false
    firstFault h { sa := some (4, f.sa), sb := some (5, f.sb), priv := true } [plain (c.inHandler && e.isSome) (e.getD 0)]
  | .ctxld h f =>
    let e := s.areaFault c (ibA c f.sa) (ibB c f.sb) true
    firstFault h { sa := some (4, f.sa), sb := some (5, f.sb), priv := true }
      [plain (c.inHandler && e.isSome) (e.getD 0),
       plain (c.inHandler && s.areaBad c (ibA c f.sa).toNat (ibB c f.sb).toNat) causeEccUe]
  | _ => none

/-! ### The scheduler and the package (R346 to R351, R376, R377, R404 to R412) -/

/-- The faults of C's scheduler words. -/
def schedulerFault (s : State) (c : Ctx) : Instr → Option Trapping
  | .launch h f =>
    firstFault h (usesS2 f 64) [plain (bits (ibA c f.sa) 16 48 != 0) causeIllegalOp, plain (decide (64 ≤ c.lndcnt)) causeLandingLimit]
  | .wchild h f =>
    firstFault h (usesS2 f (64 * (1 + f.fn.toNat)))
      [plain (bits (ibB c f.sb) 1 63 != 0) causeIllegalOp, plain (decide (64 ≤ c.lndcnt)) causeLandingLimit]
  | .semSig h f =>
    firstFault h { sa := some (4, f.sa), sb := some (5, f.sb) }
      [plain (bits (ibB c f.sb) 32 32 != 0) causeIllegalOp, plain (s.semNumber c (ibA c f.sa)).isNone causeSpaceFault]
  | .semWait h f =>
    firstFault h { sa := some (4, f.sa), d1 := f.d1, d2 := f.d2, lat := 64 * (1 + f.fn.toNat) }
      [plain (s.semNumber c (ibA c f.sa)).isNone causeSpaceFault, plain (decide (64 ≤ c.lndcnt)) causeLandingLimit]
  | .semInit h f =>
    firstFault h { sa := some (4, f.sa), sb := some (5, f.sb), priv := true }
      [plain (bits (ibA c f.sa) 12 52 != 0 || bits (ibB c f.sb) 32 32 != 0) causeIllegalOp]
  | .semRd h f =>
    firstFault h (usesS1 f 64)
      [plain (s.semNumber c (ibA c f.sa)).isNone causeSpaceFault, plain (decide (64 ≤ c.lndcnt)) causeLandingLimit]
  | .dgstRd h f => firstFault h (usesS1 f 1) [plain (bits (ibA c f.sa) 1 63 != 0) causeIllegalOp]
  | _ => none

/-- The checks of R404 on the 64 bytes at a local offset, and on what a word reads there. -/
def blockChecks (c : Ctx) (a : Word) : Checks :=
  [plain (bits a 24 40 != 0) causeSpaceFault, plain (bits a 0 6 != 0) causeMisalign,
   plain (!c.owns a.toNat 64 || !populated c.who.die a.toNat) causeSpaceFault]
def readChecks (s : State) (c : Ctx) (a : Word) : Checks :=
  [found ((s.core c.core).badByte a.toNat 64).isSome causeEccUe c,
   found (((s.core c.core).invalidLine a.toNat 64).isSome && c.umode == 0) causeUninitRead c]

/-- The faults of C's package words. -/
def packageFault (s : State) (c : Ctx) : Instr → Option Trapping
  | .mbxSend h f =>
    let a := ibA c f.sa
    let b := ibB c f.sb
    firstFault h { sa := some (4, f.sa), sb := some (5, f.sb), mem := true }
      (plain (bits b 11 53 != 0) causeIllegalOp :: blockChecks c a ++
        plain (bits b 9 2 == 3 || decide (Config.ncore (bits b 9 2) ≤ bits b 2 7)) causeSpaceFault :: readChecks s c a)
  | .mbxRecv h f =>
    firstFault h { usesS2 f 1 with room := s.emptyBox f.sb, mem := true }
      (plain (bits (ibB c f.sb) 2 62 != 0) causeIllegalOp :: blockChecks c (ibA c f.sa))
  | .mbxCnt h f => firstFault h (usesS1 f 1) [plain (bits (ibA c f.sa) 2 62 != 0) causeIllegalOp]
  | .zlat h f =>
    let a := ibA c f.sa
    firstFault h (usesS1 f 1) [plain (bits a 5 59 != 0 || bits a 0 2 == 3 || bits a 2 2 == 3) causeIllegalOp]
  | .propPush h f =>
    let a := ibA c f.sa
    firstFault h { sa := some (4, f.sa), room := if 4096 ≤ s.pq.length then some (3, true) else none, mem := true }
      (blockChecks c a ++ readChecks s c a ++ [found (badProposal (blockAt s c a)) causeIllegalOp c])
  | .propPop h f =>
    firstFault h { usesS1 f (32 * (1 + f.fn.toNat / 4)) with mem := true, dieIllegal := c.who.die != 1 }
      (blockChecks c (ibA c f.sa) ++ [plain (decide (64 ≤ c.lndcnt)) causeLandingLimit])
  | .hznRd h f =>
    firstFault h (usesS1 f (32 * (1 + f.fn.toNat / 4)))
      [plain (bits (ibA c f.sa) 12 52 != 0) causeIllegalOp, plain (decide (64 ≤ c.lndcnt)) causeLandingLimit]
  | .hznWr h f =>
    let a := ibA c f.sa
    let b := ibB c f.sb
    let bad := if bits a 12 1 = 0 then bits b 32 32 != 0 else bits b 21 11 != 0 || bits b 16 5 == 0 || decide (16 < bits b 16 5)
    firstFault h { sa := some (4, f.sa), sb := some (5, f.sb) } [plain (bits a 13 51 != 0 || bad) causeIllegalOp]
  | .lnkSt h f =>
    let a := ibA c f.sa
    let l := bits a 0 2
    let n := bits a 4 4
    firstFault h (usesS1 f 1)
      [plain (l == 3 || bits a 2 2 != 0 || bits a 8 56 != 0 || (f.fn != 1 && n != 0) || decide (Config.linkModules l ≤ n)) causeIllegalOp]
  | .lnkRate h f =>
    let a := ibA c f.sa
    let b := ibB c f.sb
    firstFault h { sa := some (4, f.sa), sb := some (5, f.sb), priv := true }
      [plain (bits a 0 2 == 3 || bits a 2 62 != 0 || bits b 3 61 != 0 || decide (4 < b.toNat)) causeIllegalOp]
  | _ => none

/-- The faults at issue of the words of these families. -/
def unitFault (s : State) (c : Ctx) (i : Instr) : Option Trapping :=
  [exchangeFault s c i, barrierFault s c i, atomicFault s c i, fabricFault s c i, registerFault s c i, schedulerFault s c i,
   packageFault s c i].findSome? id

/-! ### The gates that words set themselves (R237, R305, R351, R458) -/

/-- A word whose checks have passed, and the gate of its own that it waits for. -/
structure Gating where
  h : Hdr
  u : Uses
  gate : Gate

/-- The gate of a word that no check stops; none where it sets none. -/
def gating (fault : Option Trapping) (h : Hdr) (u : Uses) (releases : Bool) (g : Gate) : Option Gating :=
  if fault.isSome || !releases then none else some ⟨h, u, g⟩

/-- The scalar and vector stores with ORD = 2 of the spaces beyond LSP. -/
def storeGate (s : State) (c : Ctx) (i : Instr) (sp : Space) (h : Hdr) (f : FmtST) : Option Gating :=
  gating (trapWord s c i) h (usesAB s f.sa f.sb) (f.ord == 2 && sp != .lsp) (s.releaseGate f.sc.toNat)
def storeGateV (s : State) (c : Ctx) (i : Instr) (sp : Space) (h : Hdr) (f : FmtSTV) : Option Gating :=
  gating (trapWord s c i) h { sa := some (aFile s.focus.2 .ia, f.sa), elems := elems16 f.vs, mem := true } (f.ord == 2 && sp != .lsp)
    (s.releaseGate f.sc.toNat)

/-- An atomic with ORD 2 or 3. -/
def atomicGate (s : State) (c : Ctx) (i : Instr) (h : Hdr) (f : FmtAM) (pops : Nat) : Option Gating :=
  gating (atomicFault s c i) h
    { usesAB s f.sa f.sb with
      data := pops, d1 := f.d1, d2 := f.d2, lat := if f.land = 0 then ldef (amSpace f.sp.toNat) else f.land.toNat }
    (decide (2 ≤ f.ord.toNat)) (s.releaseGate f.sc.toNat)

/-- The words that gate their own cycle: releases, and the words that read or clear a digest. -/
def gateOf (s : State) (c : Ctx) : Instr → Option Gating
  | .stc h f => storeGate s c (.stc h f) .csp h f
  | .std h f => storeGate s c (.std h f) .dsp h f
  | .stm h f => storeGate s c (.stm h f) .mem h f
  | .stn h f => storeGate s c (.stn h f) .peer h f
  | .sth h f => storeGate s c (.sth h f) .host h f
  | .stcV h f => storeGateV s c (.stcV h f) .csp h f
  | .stdV h f => storeGateV s c (.stdV h f) .dsp h f
  | .stmV h f => storeGateV s c (.stmV h f) .mem h f
  | .stnV h f => storeGateV s c (.stnV h f) .peer h f
  | .sthV h f => storeGateV s c (.sthV h f) .host h f
  | .barInit h f => gating (barrierFault s c (.barInit h f)) h (usesAB s f.sa f.sb) true (s.releaseGate 1)
  | .barArr h f =>
    gating (barrierFault s c (.barArr h f)) h { usesAB s f.sa f.sb with d1 := f.d1, d2 := f.d2, lat := 24 } true (s.releaseGate 1)
  | .barExp h f => gating (barrierFault s c (.barExp h f)) h (usesAB s f.sa f.sb) true (s.releaseGate 1)
  | .barCred h f => gating (barrierFault s c (.barCred h f)) h (usesAB s f.sa f.sb) true (s.releaseGate 1)
  | .barBrk h f =>
    gating (barrierFault s c (.barBrk h f)) h { sa := some (aFile s.focus.2 .ia, f.sa), mem := true } true (s.releaseGate 1)
  | .amo h f => atomicGate s c (.amo h f) h f (amoPops f.aop)
  | .ared h f => atomicGate s c (.ared h f) h f (amoPops f.aop)
  | .amocas h f => atomicGate s c (.amocas h f) h f (if f.w = 1 then 2 else 1)
  | .amof h f => atomicGate s c (.amof h f) h f 1
  | .aredf h f => atomicGate s c (.aredf h f) h f 1
  | .amotOpen h f => gating (atomicFault s c (.amotOpen h f)) h (usesAB s f.sa f.sb) true (s.releaseGate 2)
  | .rdig h f =>
    gating (fabricFault s c (.rdig h f)) h { sa := some (aFile s.focus.2 .ia, f.sa), d1 := f.d1, d2 := f.d2 } true (stepGate s c)
  | .rcmp h f =>
    gating (fabricFault s c (.rcmp h f)) h
      { sa := some (aFile s.focus.2 .ia, f.sa), d1 := f.d1, d2 := f.d2, lat := 1024 * (f.fn.toNat + 1) } true (stepGate s c)
  | .launch h f => gating (schedulerFault s c (.launch h f)) h (usesS2 f 64) true (s.releaseGate 2)
  | .semSig h f => gating (schedulerFault s c (.semSig h f)) h { sa := some (4, f.sa), sb := some (5, f.sb) } true (s.releaseGate 2)
  | .dgstRd h f => gating (schedulerFault s c (.dgstRd h f)) h (usesS1 f 1) true (stepGate s c)
  | .dgstClr h => gating none h { priv := true } true (stepGate s c)
  | .mbxSend h f =>
    gating (packageFault s c (.mbxSend h f)) h { sa := some (4, f.sa), sb := some (5, f.sb), mem := true } true (s.releaseGate 3)
  | .propPush h f =>
    gating (packageFault s c (.propPush h f)) h
      { sa := some (4, f.sa), room := if 4096 ≤ s.pq.length then some (3, true) else none, mem := true } true (s.releaseGate 3)
  | .hznWr h f => gating (packageFault s c (.hznWr h f)) h { sa := some (4, f.sa), sb := some (5, f.sb) } true (s.releaseGate 3)
  | _ => none

end Sys2Proof.Effects
end

