-- ==== Sys2Proof/Effects/Header.lean ====
section
/-! DEFINITION. The header and the uses of every slot word, for the statements about all of them. -/

namespace Sys2Proof.Effects

open Sys2Proof.Machine Sys2Proof.Safety

/-- The sync bit, guard negation and guard predicate of a slot word; a further step of the opcode table has none (R39, R40). -/
def headerOf : Instr → Option Hdr
  | .nop h => some h
  | .add h _ => some h
  | .sub h _ => some h
  | .andW h _ => some h
  | .orW h _ => some h
  | .xorW h _ => some h
  | .andn h _ => some h
  | .shl h _ => some h
  | .shr h _ => some h
  | .sra h _ => some h
  | .rot h _ => some h
  | .cmp h _ => some h
  | .sel h _ => some h
  | .mov h _ => some h
  | .clz h _ => some h
  | .popc h _ => some h
  | .addi h _ => some h
  | .andi h _ => some h
  | .ori h _ => some h
  | .xori h _ => some h
  | .shli h _ => some h
  | .shri h _ => some h
  | .srai h _ => some h
  | .roti h _ => some h
  | .cmpi h _ => some h
  | .li h _ => some h
  | .lih h _ => some h
  | .ext h _ => some h
  | .pand h _ => some h
  | .por h _ => some h
  | .pxor h _ => some h
  | .prd h _ => some h
  | .pwr h _ => some h
  | .br h _ => some h
  | .jal h _ => some h
  | .jr h _ => some h
  | .ret h => some h
  | .loop h _ => some h
  | .loopi h _ => some h
  | .lend h _ => some h
  | .qcnt h _ => some h
  | .crr h _ => some h
  | .join h => some h
  | .trap h _ => some h
  | .halt h => some h
  | .mul h _ => some h
  | .mulh h _ => some h
  | .mulhu h _ => some h
  | .div h _ => some h
  | .divu h _ => some h
  | .rem h _ => some h
  | .remu h _ => some h
  | .muli h _ => some h
  | .fork h _ => some h
  | .crw h _ => some h
  | .crrp h _ => some h
  | .eret h => some h
  | .ctxsv h _ => some h
  | .ctxld h _ => some h
  | .yield h => some h
  | .exit h => some h
  | .launch h _ => some h
  | .wchild h _ => some h
  | .semSig h _ => some h
  | .semWait h _ => some h
  | .semInit h _ => some h
  | .semRd h _ => some h
  | .dgstRd h _ => some h
  | .dgstClr h => some h
  | .mbxSend h _ => some h
  | .mbxRecv h _ => some h
  | .mbxCnt h _ => some h
  | .deskew h _ => some h
  | .zlat h _ => some h
  | .propPush h _ => some h
  | .propPop h _ => some h
  | .hznRd h _ => some h
  | .hznWr h _ => some h
  | .lnkSt h _ => some h
  | .lnkRate h _ => some h
  | .vadd h _ => some h
  | .vsub h _ => some h
  | .vmul h _ => some h
  | .vfma h _ => some h
  | .vfms h _ => some h
  | .vfnma h _ => some h
  | .vmax h _ => some h
  | .vmin h _ => some h
  | .vabs h _ => some h
  | .vneg h _ => some h
  | .vdiv h _ => some h
  | .vsqrt h _ => some h
  | .vexp2 h _ => some h
  | .vexp h _ => some h
  | .vscale h _ => some h
  | .viadd h _ => some h
  | .visub h _ => some h
  | .vimul h _ => some h
  | .vimax h _ => some h
  | .vimin h _ => some h
  | .vand h _ => some h
  | .vor h _ => some h
  | .vxor h _ => some h
  | .vshl h _ => some h
  | .vshr h _ => some h
  | .vsra h _ => some h
  | .vcmp h _ => some h
  | .vicmp h _ => some h
  | .vsel h _ => some h
  | .viota h _ => some h
  | .vpopc h _ => some h
  | .vcvt h _ => some h
  | .vpack h _ => some h
  | .vunpack h _ => some h
  | .vperm h _ => some h
  | .vrot h _ => some h
  | .vbcast h _ => some h
  | .vmov h _ => some h
  | .vclr h _ => some h
  | .vins h _ => some h
  | .vext h _ => some h
  | .vrmax h _ => some h
  | .vrmin h _ => some h
  | .vrsum h _ => some h
  | .vrargmax h _ => some h
  | .mbeat h _ => some h
  | .mshift h _ => some h
  | .mdrain h _ => some h
  | .mdrainc h _ => some h
  | .mwload h _ => some h
  | .mbscale h _ => some h
  | .mcfg h _ => some h
  | .mseed h _ => some h
  | .mclr h _ => some h
  | .mexp h _ => some h
  | .mexpw h _ => some h
  | .msat h _ => some h
  | .mstat h _ => some h
  | .mwait h => some h
  | .ldl h _ => some h
  | .stl h _ => some h
  | .ldlV h _ => some h
  | .stlV h _ => some h
  | .ldc h _ => some h
  | .stc h _ => some h
  | .ldcV h _ => some h
  | .stcV h _ => some h
  | .ldd h _ => some h
  | .std h _ => some h
  | .lddV h _ => some h
  | .stdV h _ => some h
  | .ldm h _ => some h
  | .stm h _ => some h
  | .ldmV h _ => some h
  | .stmV h _ => some h
  | .ldn h _ => some h
  | .stn h _ => some h
  | .ldnV h _ => some h
  | .stnV h _ => some h
  | .ldh h _ => some h
  | .sth h _ => some h
  | .ldhV h _ => some h
  | .sthV h _ => some h
  | .drain h _ => some h
  | .fence h _ => some h
  | .cpy h _ => some h
  | .ecmd h _ => some h
  | .qfence h _ => some h
  | .salloc h _ => some h
  | .pfm h _ => some h
  | .mqcnt h _ => some h
  | .barInit h _ => some h
  | .barArr h _ => some h
  | .barExp h _ => some h
  | .barCred h _ => some h
  | .barWait h _ => some h
  | .barTest h _ => some h
  | .barBrk h _ => some h
  | .mcast h _ => some h
  | .amo h _ => some h
  | .amocas h _ => some h
  | .ared h _ => some h
  | .amof h _ => some h
  | .aredf h _ => some h
  | .amotOpen h _ => some h
  | .amotSkip h _ => some h
  | .drainT h _ => some h
  | .pseq h _ => some h
  | .pflush h _ => some h
  | .rdig h _ => some h
  | .rcmp h _ => some h
  | _ => none

/-- What the common part of examining a word knows of it, where some table of effects or of traps lists it (R63). -/
def usesOf (s : State) (c : Ctx) (i : Instr) : Option (Hdr × Uses) :=
  let one := fun o : Option Doing => o.map fun d => (d.h, d.u)
  [one (valueWord s c i), one (divideWord s c i), one (predicateWord s c i), one (countWord s c i), one (controlWord s c i),
   (branchWord s c i).map fun d => (d.1.h, d.1.u), (laneWord s c i).map fun w => (w.h, w.u), (scalarWord s c i).map fun d => (d.1.h, d.1.u),
   (packWord c i).map fun d => (d.1.h, d.1.u), one (matrixWord s c i), one (memoryWord s c i), one (exchangeWord s c i),
   one (barrierWord s c i), one (atomicWord s c i), one (fabricWord s c i), one (registerWord s c i), one (areaWord s c i),
   one (schedulerWord s c i), one (packageWord s c i), (trapWord s c i).map fun d => (d.h, d.u),
   (unitFault s c i).map fun d => (d.h, d.u), (gateOf s c i).map fun d => (d.h, d.u),
   (match i with
    | .eret h => some (h, { priv := true })
    | .fork h _ => some (h, {})
    | .mbxRecv h f => some (h, { usesS2 f 1 with room := s.emptyBox f.sb, mem := true })
    | .hznRd h f => some (h, usesS1 f (32 * (1 + f.fn.toNat / 4)))
    | .lnkRate h f => some (h, { sa := some (4, f.sa), sb := some (5, f.sb), priv := true })
    | _ => none)].findSome? id

end Sys2Proof.Effects
end

