-- ==== Sys2Proof/Effects/Homes.lean ====
section
/-! DEFINITION. What the rules give a barrier event, an atomic and a ticketed request at their homes: the tables of R273, R274, R318, R319 and R325, for
the statements to compare the meanings with. -/

namespace Sys2Proof.Effects

open Sys2Proof.Machine Sys2Proof.Safety

/-! ### Barriers (R270 to R281) -/

/-- A cell of the table of R274: the status with which the waiters wake before the granule changes, whether it is tagged or untagged, the barrier that it
then holds, the status with which they wake after it, and what the event answers. -/
structure BarCell where
  before : Option Nat := none
  tag : Option Bool := none
  set : Option Bar := none
  after : Option Nat := none
  result : BarResult := .status 0

/-- A change in state A, after which R273 is applied: with ARRV = EXPA and no bytes pending the phase completes, and the waiters wake with status 0. The
answer tells of the barrier as it then is, and whether the phase has completed. -/
def changed (y : Bar) (answer : Bar → Bool → Word) : BarCell :=
  let z := { y with phase := !y.phase, arrv := 0, wait := 0 }
  if y.arrv = y.expa ∧ y.s = 0 then { set := some z, after := some 0, result := .status (answer z true) }
  else { set := some y, result := .status (answer y false) }

/-- An arrival, a count of bytes and a wait at a tagged granule with BRK = 0, `n` being the core that registers. -/
def openCell (x : Bar) (n : Nat) : Action → BarCell
  | .barArr k =>
    if x.expa < x.arrv + k then { result := .refused causeBarrierOverflow }
    else changed { x with arrv := x.arrv + k, reg := x.reg ||| 2 ^ n } Bar.stat
  | .barExp b =>
    if 2 ^ 40 - 1 < x.s + b then { result := .refused causeBarrierOverflow }
    else changed { x with s := x.s + b, reg := x.reg ||| 2 ^ n } fun _ _ => 0
  | .barCred b =>
    if x.s - b < -(2 ^ 40 - 1) then { result := .refused causeBarrierOverflow }
    else changed { x with s := x.s - b, reg := x.reg ||| 2 ^ n } fun _ _ => 0
  | .barWait p =>
    if x.phase ≠ p then { set := some { x with reg := x.reg ||| 2 ^ n } }
    else { set := some { x with reg := x.reg ||| 2 ^ n, wait := x.wait ||| 2 ^ n }, result := .parked }
  | _ => {}

/-- The table of R274 for the events of words: the granule is tagged or not, its scratchpad has no room for another tag, it holds `x`, and the event is
one of core `n` of the cluster and of the context `owner`. -/
def barrierCell (tagged full : Bool) (x : Bar) (n owner : Nat) (act : Action) : BarCell :=
  let woken : Option Nat := if tagged = true ∧ x.brk = false then some 1 else none
  match act with
  | .barInit expa ph free =>
    if free then (if tagged then { before := woken, tag := some false } else {})
    else if tagged = false ∧ full = true then { result := .refused causeBarrierOverflow }
    else { before := woken, tag := some true, set := some ⟨expa, 0, ph, false, 0, 2 ^ n, 0, owner⟩ }
  | .barBrk =>
    if tagged = true ∧ x.brk = false then { set := some { x with reg := x.reg ||| 2 ^ n, brk := true, wait := 0 }, after := some 1 } else {}
  | .barTest => if tagged then { result := .status (x.stat false) } else { result := .refused causeSpaceFault }
  | act =>
    if tagged = false then { result := .refused causeSpaceFault }
    else if x.brk then
      { result := .status (match act with
          | .barArr _ => x.stat false
          | .barWait _ => 1
          | _ => 0) }
    else openCell x n act

/-- A credit of an `mcast`, which core `n` registers: a refusal breaks the barrier. -/
def creditCell (tagged : Bool) (x : Bar) (n b : Nat) : BarCell :=
  if tagged = false then { result := .refused causeSpaceFault }
  else if x.brk then {}
  else if x.s - b < -(2 ^ 40 - 1) then
    { set := some { x with brk := true, wait := 0 }, after := some 1, result := .refused causeBarrierOverflow }
  else changed { x with s := x.s - b, reg := x.reg ||| 2 ^ n } fun _ _ => 0

/-- The state after a cell at a granule. -/
def barrierState (s : State) (k o : Nat) (x : BarCell) : State :=
  let wake := fun (v : Option Nat) (s : State) =>
    match v with
    | none => s
    | some v => s.wakeAll k o v
  let t := wake x.before s
  let t :=
    match x.tag, x.set with
    | some true, some y => t.modCore k fun m => { m.setBar o y with tags := m.tags.add (o / 16) }
    | some false, _ => t.modCore k fun m => { m.putBytes (o / 16 * 16) (List.replicate 16 0) with tags := m.tags.del (o / 16) }
    | _, some y => t.setBar k o y
    | _, none => t
  wake x.after t

/-- An answer goes to the landing of an event, or is taken deferred; a wait is parked. -/
def barrierAnswers (t : State) (id : Nat) (p : Packet) : BarResult → State
  | .refused e => t.failPacket id p e p.addr
  | .parked => t.setPacket id { p with stage := .parked }
  | .status v =>
    let t := if p.reads then t.hear p else t
    match p.land with
    | some _ => t.setPacket id { p with stage := .answered, data := toBytes v.toNat 8 }
    | none => t.dropPacket id

/-- A barrier event at its home: a granule outside every region of the launch is SPACE_FAULT (R275); a credit of an `mcast` may bring an arrival. -/
def barrierAt (s : State) (id : Nat) (p : Packet) (c : Ctx) : State :=
  let k := (s.cspHome p).1
  let o := (s.cspHome p).2
  let n := p.lcore % 8
  let cell := fun (t : State) (f : Bool → Bool → Bar → BarCell) =>
    let m := t.core k
    f (m.tags.has (o / 16)) (decide (256 ≤ m.tags.elems.length)) (m.bar o)
  match s.home c .csp p.addr true with
  | .error e => s.failPacket id p e p.addr
  | .ok _ =>
    match p.act with
    | .mcCredit b arrive =>
      let x := cell s fun tagged _ x => creditCell tagged x n b
      let t := barrierState s k o x
      match x.result, arrive with
      | .status _, true =>
        let y := cell t fun tagged full x => barrierCell tagged full x n 0 (.barArr 1)
        barrierAnswers (barrierState t k o y) id p (match y.result with
          | .refused e => .refused e
          | _ => .status 0)
      | r, _ => barrierAnswers t id p r
    | act =>
      let x := cell s fun tagged full x => barrierCell tagged full x n (p.ctx % 2 ^ 24) act
      barrierAnswers (barrierState s k o x) id p x.result

/-! ### Integer atomics (R318, R319) -/

/-- The new value of R318's table. -/
def integerNew {w : Nat} (aop : Nat) (old d : BitVec w) : BitVec w :=
  match aop with
  | 0 => old + d
  | 1 => old &&& d
  | 2 => old ||| d
  | 3 => old ^^^ d
  | 4 => if d.toInt < old.toInt then d else old
  | 5 => if old.toInt < d.toInt then d else old
  | 6 => if d.toNat < old.toNat then d else old
  | 7 => if old.toNat < d.toNat then d else old
  | 8 => d
  | 9 => old + 1
  | 10 => old - 1
  | _ => old

/-- What an integer atomic writes over old bytes of its width; `amocas` writes nothing where they are not its compare value. -/
def integerBytes (act : Action) (old : List Byte) : Option (List Byte) :=
  match act with
  | .amo aop d w8 =>
    let n := if w8 then 8 else 4
    some (toBytes (integerNew aop (BitVec.ofNat (8 * n) (ofBytes old)) (BitVec.ofNat (8 * n) d.toNat)).toNat n)
  | .cas c v w8 =>
    let n := if w8 then 8 else 4
    if ofBytes old = bits c 0 (8 * n) then some (toBytes v.toNat n) else none
  | _ => none

/-- An integer atomic at its home, as one access: it writes its bytes and answers the old ones (R297, R318, R319), unless it meets a tagged granule or an
error (R272, R397). -/
def atomicAt (s : State) (id : Nat) (p : Packet) (c : Ctx) : State :=
  match s.homes c p.space true p.addr p.act.length with
  | .error (e, a) => s.failPacket id p e a
  | .ok l =>
    if l.any s.taggedAt then s.failPacket id p causeBarrierClobber p.addr
    else if l.any s.poisoned then s.failPacket id p causeEccUe p.addr
    else
      let old := l.map s.peek
      let t :=
        match integerBytes p.act old with
        | none => s
        | some b => (s.pokes l b).sealUnder (s.slotAt c) (l.map fun h => (h, p.addr))
      (t.foldAtomic p).reply id p old

/-! ### Windows (R323 to R328) -/

/-- How a ticket lies to NEXT (R324). -/
inductive Distance where
  | due | ahead | far | behind
  deriving DecidableEq, Repr
def distanceOf (next t : BitVec 32) : Distance :=
  let d := (t - next).toNat
  if d = 0 then .due else if d ≤ 63 then .ahead else if d < 2 ^ 31 then .far else .behind

/-- The requests that become due one after another from a ticket on, at most `n` of them. -/
def dueRun (buffer : FMap Nat) (t : BitVec 32) : Nat → List Nat
  | 0 => []
  | n + 1 =>
    match buffer.find? t.toNat with
    | none => []
    | some r => r :: dueRun buffer (t + 1) n

/-- A buffered request leaves its window, NEXT moves on, and it is applied unless it has been refused meanwhile (R317, R325). -/
def takeOne (h : HomeOf) (s : State) (r : Nat) : State :=
  match s.win? h with
  | none => s
  | some w =>
    let t := s.setWin h { w with buffer := w.buffer.erase w.nextT.toNat, nextT := w.nextT + 1, timer := s.timeAt h, retried := false }
    match t.packet? r with
    | none => t
    | some p => if p.stage = .parked then t.applyTicket h r p else t

/-- A ticketed request or skip at the window of its word, by the table of R325: due, it is applied, and then the buffered tickets that follow, in the order
of their tickets. -/
def windowMeets (s : State) (h : HomeOf) (id : Nat) (p : Packet) (t : BitVec 32) : State :=
  let refused := fun cause => s.failPacket id p cause p.addr
  match s.win? h with
  | none => refused causeSpaceFault
  | some w =>
    if w.broken then refused causeBroken
    else
      let timer := if w.buffer.items.isEmpty = false ∨ w.retried = true then w.timer else s.timeAt h
      match distanceOf w.nextT t with
      | .due =>
        let u := (s.setWin h { w with nextT := w.nextT + 1, timer := s.timeAt h, retried := false }).applyTicket h id p
        (dueRun w.buffer (w.nextT + 1) 64).foldl (takeOne h) u
      | .ahead =>
        if (w.buffer.find? t.toNat).isSome then refused causeTicketGap
        else (s.setWin h { w with buffer := w.buffer.insert t.toNat id, timer := timer }).setPacket id { p with stage := .parked }
      | .far => (s.setWin h { w with retried := true, timer := timer }).setPacket id { p with stage := .retry, sentAt := (s.die p.die).time }
      | .behind => refused causeTicketGap

/-- `amot.open` at the window of its word (R325, R327). -/
def windowOpens (s : State) (h : HomeOf) (id : Nat) (p : Packet) (first : BitVec 32) (close : Bool) : State :=
  let fresh : Window := ⟨first, .empty, p.ctx, p.space, p.addr, false, s.timeAt h, false⟩
  let limit := match h with
    | .scratch _ _ => 32
    | _ => 1024
  match s.win? h, close with
  | none, true => s.dropPacket id
  | some w, true => ((s.discard w).modWins h fun t => t.erase h.slot).dropPacket id
  | none, false =>
    if limit ≤ (s.winTable h).items.length then s.failPacket id p causeBarrierOverflow p.addr else (s.setWin h fresh).dropPacket id
  | some w, false =>
    if w.broken then (s.setWin h fresh).dropPacket id
    else ((s.discard w).setWin h { w with nextT := first, buffer := .empty, timer := s.timeAt h, retried := false }).dropPacket id

end Sys2Proof.Effects
end

