-- ==== Sys2Proof/Effects/Events.lean ====
section
/-! DEFINITION. What the rules give the steps that are no slot words: accesses, boundaries, commands, contexts and the scheduler, for the
statements to compare the meanings with. Each table answers the state that a step leads to, and nothing where the step cannot come
about. -/

namespace Sys2Proof.Effects

open Sys2Proof.Machine Sys2Proof.Safety

/-- A state that is reached under a condition. -/
def onlyIf (b : Bool) (t : State) : Option State := if b then some t else none

/-- The packet with a serial number, and its context. -/
def packetOf (s : State) (id : Nat) : Option (Packet × Ctx) := (s.packet? id).bind fun p => (s.ctx? p.ctx).map fun c => (p, c)

/-! ### Accesses at their homes (R226, R227, R231, R232, R274, R285, R296 to R299, R318 to R329, R407) -/

/-- An access of an isolated home ends with REMOTE_ABORT (R155, R379). -/
def orAbort (s : State) (id : Nat) (p : Packet) (c : Ctx) (t : State) : State :=
  if s.isolated c p.space p.addr then s.failPacket id p causeRemoteAbort p.addr else t

/-- A load or store that may be applied now. -/
def accessApplies (s : State) (id : Nat) (p : Packet) (c : Ctx) : Option State :=
  let done := fun t : State => if p.space = .peer then t.acknowledge (p.addr / 2 ^ 48) else t
  match p.act with
  | .load n => some (done (orAbort s id p c (s.applyLoad id p c n)))
  | .store b =>
    if (p.space = .host ∨ p.space = .peer) ∧ s.fab.refusing = true ∧ s.replicated c.who.gid = true then
      some (s.failPacket id p causeDigestMismatch p.addr)
    else some (done (orAbort s id p c (s.applyStore id p c b)))
  | .line b => some (orAbort s id p c (s.applyLine id p c b))
  | _ => none

/-- A request that another one carried is applied after it (R320). -/
def carriedApplies (s : State) (id : Nat) : State :=
  match s.packet? id with
  | none => s
  | some p =>
    match s.ctx? p.ctx with
    | none => s.dropPacket id
    | some c => orAbort s id p c (atomicAt s id p c)

/-- The event at a window that a packet is (R325). -/
def atWindow (s : State) (id : Nat) (p : Packet) (c : Ctx) : Option State :=
  match s.homes c p.space true p.addr p.act.length with
  | .error (e, a) => some (s.failPacket id p e a)
  | .ok l =>
    match l, p.act with
    | h :: _, .winOpen f close => some (windowOpens s h.word id p f close)
    | h :: _, .winSkip t => some (windowMeets s h.word id p t)
    | h :: _, .ticket _ _ t _ =>
      some (if l.any s.taggedAt then s.failPacket id p causeBarrierClobber p.addr else windowMeets s h.word id p t)
    | _, _ => none

/-- The next access of a mover command that lies in another package or the host faults: the command does (R250). -/
def outsideFault (s : State) (id : Nat) (cause : Cause) (out : Space → Bool) : Option State :=
  ((s.cmds.find? id).bind Cmd.outside).bind fun (sp, a, wr) => onlyIf (out sp) (s.cmdFault id cause sp a wr)

/-- The steps of the memory system on an access. -/
def accessEvent (s : State) : Instr → Option State
  | .homeAccessApply id =>
    (packetOf s id).bind fun (p, c) => if s.enabled id p then accessApplies s id p c else none
  | .egressBufferDrain id =>
    (packetOf s id).bind fun (p, c) =>
      match p.act with
      | .store _ =>
        if p.stage = .egress ∧ (∀ e ∈ s.egress p.die p.lcore, e.1 < id → s.meet e.2 p = false) ∧
            s.enabled id { p with stage := .sent } = true then
          accessApplies (s.setPacket id { p with stage := .sent }) id { p with stage := .sent } c
        else none
      | _ => none
  | .deferredStoreFault id cause =>
    if ¬[causeSpaceFault, causeXlateFault, causeEccUe, causeRemoteAbort].contains cause then none
    else
      match s.packet? id with
      | none => outsideFault s id cause fun sp => sp == .peer || sp == .host
      | some p =>
        let t := (s.uncredit id p.act.length).failPacket id p cause p.addr
        onlyIf (p.land.isNone && p.act.writes && (p.stage == .sent || p.stage == .egress))
          (if p.space = .peer then t.acknowledge (p.addr / 2 ^ 48) else t)
  | .hostAccessTimeout id =>
    match s.packet? id with
    | none => outsideFault s id causeRemoteAbort fun sp => sp == .host
    | some p => onlyIf (p.space == .host && p.stage == .sent) (s.failPacket id p causeRemoteAbort p.addr)
  | .landingDataArrival id r =>
    (s.packet? id).bind fun p =>
      if p.land = none then none
      else if p.stage = .answered then
        some (if r.cause = causeEccUe ∧ p.act.fetches = true then s.landAnswer id { p with faddr := p.addr } [] causeEccUe none
          else s.landAnswer id p p.data p.cause p.uninit)
      else if (p.space = .peer ∨ p.space = .host) ∧ s.enabled id p = true ∧
          [0, causeSpaceFault, causeXlateFault, causeEccUe, causeRemoteAbort].contains r.cause = true then
        some (s.landAnswer id { p with faddr := p.addr } r.data r.cause none)
      else if r.cause = causeEccUe then (s.ctx? p.ctx).map fun c => s.strike id p c
      else none
  | .barrierEventApply id =>
    (packetOf s id).bind fun (p, c) =>
      match p.act with
      | .barInit _ _ _ | .barArr _ | .barExp _ | .barCred _ | .barWait _ | .barTest | .barBrk | .mcCredit _ _ =>
        onlyIf (s.enabled id p) (orAbort s id p c (barrierAt s id p c))
      | _ => none
  | .routerMerge id other =>
    (s.packet? id).bind fun p => (s.packet? other).bind fun q =>
      onlyIf (id != other && s.enabled id p && s.enabled other q && s.mayMerge p q && !s.carried id && !s.carried other)
        ((s.setPacket id { p with merged := p.merged ++ other :: q.merged }).setPacket other { q with merged := [] })
  | .atomicHomeApply id =>
    (packetOf s id).bind fun (p, c) =>
      match p.act with
      | .amo _ _ _ =>
        onlyIf (s.enabled id p && !s.carried id) (p.merged.foldl carriedApplies (orAbort s id p c (atomicAt s id p c)))
      | .cas _ _ _ => onlyIf (s.enabled id p) (orAbort s id p c (atomicAt s id p c))
      | _ => none
  | .ticketRequestArrival id =>
    (packetOf s id).bind fun (p, c) =>
      if s.enabled id p = true then
        if s.isolated c p.space p.addr then
          match p.act with
          | .ticket _ _ _ _ | .winOpen _ _ | .winSkip _ => some (s.failPacket id p causeRemoteAbort p.addr)
          | _ => none
        else
          match p.act with
          | .ticket _ _ _ _ | .winOpen _ _ | .winSkip _ => atWindow s id p c
          | _ => none
      else none
  | .retryResend id =>
    (s.packet? id).bind fun p =>
      let away := ((s.ctx? p.ctx).map fun c => c.status == .halted || c.status == .saved).getD true
      onlyIf (p.stage == .retry && !away && decide (p.sentAt + 64 ≤ (s.die p.die).time))
        ((s.setPacket id { p with stage := .sent }).modCtx p.ctx fun c => { c with ctr := { c.ctr with retry := satInc c.ctr.retry } })
  | .gapTimerExpiry win =>
    let h := winHome win
    (s.win? h).bind fun w =>
      if !w.broken && (!w.buffer.items.isEmpty || w.retried) && decide (w.timer + 2 ^ 24 ≤ (s.die h.die).time) then
        let t := s.setWin h { w with timer := (s.die h.die).time }
        match (t.ctx? w.owner).filter fun c => c.status != .ending && !c.status.over with
        | some c =>
          some (t.setCtx w.owner (c.offerAsync (.landing causeTicketGap .x (toWord w.addr) (finfoOf (spaceCode w.space) false))))
        | none =>
          let num := match t.ctx? w.owner with
            | some c => c.who.num
            | none => w.owner % 2 ^ 24
          some (t.report h.die 6 causeTicketGap (containLoc num 0 0))
      else none
  | .mailboxPlace id =>
    (packetOf s id).bind fun (p, c) =>
      match p.act with
      | .mail n msg =>
        let die := dspDie p.addr
        let k := coreKey die (dspCore p.addr)
        let before := s.net.items.any fun e =>
          decide (e.1 < id) && decide (e.2.ctx = p.ctx) && decide (e.2.addr = p.addr) &&
            (match e.2.act with
             | .mail m _ => m == n
             | _ => false)
        if s.cutOff die then some ((s.dropPacket id).deferNotice p.ctx causeRemoteAbort)
        else if s.ctxs.vals.all fun x => !(decide (x.core = k) && decide (x.who.launch = c.who.launch) && !x.status.over) then
          some ((s.dropPacket id).deferNotice p.ctx causeSpaceFault)
        else
          onlyIf (!before && s.hasTurn die (dspCore p.addr) && decide (((s.core k).box n).length < 16))
            ((s.dropPacket id).modCore k fun m => { m with mail := m.mail.insert n (m.box n ++ [(c.identity, msg)]) })
      | _ => none
  | _ => none

/-! ### Boundaries and flushes (R22 to R24, R32, R34, R139, R234, R303, R304, R447, R461) -/

/-- A context stands at its boundary, with what is due there. -/
def standsAt (s : State) (k : Nat) (b : AtBoundary) : Option Ctx :=
  (s.ctx? k).filter fun c => c.phase == .boundary && s.atBoundary k c == b

/-- A cause is taken at the boundary: the handler issues from the next die-time cycle on. -/
def trapsAt (s : State) (k : Nat) (i : TrapInfo) : State := (s.takeTrap k i).modCtx k fun c => { c with phase := .rest }

/-- The markers of a flush leave: those to a node take its TX, one for each port that carried a request there (R303, R447, log 51). -/
def markersSent (s : State) (k : Nat) (c : Ctx) (f : Flush) : State :=
  let fab := (f.wait.filter fun d => decide (4 ≤ d)).foldl
    (fun (b : Fabric) d => { b with tx := b.tx.insert (d - 4) (b.tx.getD (d - 4) 0 + BitVec.ofNat 32 (markerCount s.serial (d - 4))) }) s.fab
  { s.setCtx k { c with flushing := some { f with sent := true, seq := s.serial } } with fab := fab, serial := s.serial + 1 }

/-- The steps of a context at its boundary, and those of its flush. -/
def boundaryEvent (s : State) : Instr → Option State
  | .deliveryVisible k =>
    match standsAt s k .freeze with
    | some c =>
      some (s.setCtx k { c with
        phase := .rest
        ctr := if c.inHandler then c.ctr else { c.ctr with freeze := satInc c.ctr.freeze } })
    | none => (standsAt s k .land).map fun c => s.landAll k c
  | .queueDeadlock k =>
    (standsAt s k .deadlock).map fun c =>
      let cl := ([Cluster.c, .v, .m, .x].find? fun cl => [RunState.qwait, .swait, .joined].contains (c.cl cl).run).getD .c
      trapsAt (s.setCtx k { c with deadlock := 0 }) k (.issue causeQueueDeadlock cl)
  | .joinRendezvous k =>
    (standsAt s k .join).map fun c =>
      let d := c.forked.foldl (fun c cl => c.setCl cl { c.cl cl with run := if cl = .c then .run else .idle }) c
      s.setCtx k { d with forkset := 0 }
  | .gateLift k =>
    (standsAt s k .lift).map fun c =>
      if c.inHandler then s.setCtx k { c with holds := c.holds.filter fun h => !h.fixed }
      else
        let gone := fun n => (s.net.find? n).isNone
        let d := { c with holds := [], took := c.took.delIf gone, heard := c.heard.delIf gone, learnt := c.learnt.filter fun n _ => !gone n }
        match c.takeDeferred c.covered with
        | some (i, _) => trapsAt (s.setCtx k { d with deferred := c.deferred.filter fun e => !c.covered e }) k i
        | none =>
          match s.holdCause c with
          | some i => trapsAt (s.setCtx k d) k i
          | none => s.setCtx k d
  | .asyncCauseOffer k =>
    (s.ctx? k).bind fun c =>
      match c.async with
      | [] => none
      | i :: rest =>
        if c.phase = .boundary ∧ s.atBoundary k c = .async i then some (trapsAt (s.setCtx k { c with async := rest }) k i) else none
  | .flushMarkerGather k dest =>
    (s.ctx? k).bind fun c =>
      match c.flushing with
      | none => some (s.setCtx k (((s.queuedGates k c).filter fun g => !s.gateMet k c g).foldl Ctx.startFlush c))
      | some f =>
        if !f.sent then some ((markersSent s k c f).abortCut k)
        else if f.wait.contains dest then
          let got := { c with flushing := some { f with wait := f.wait.filter (· ≠ dest) } }
          if dest < 4 ∧ s.flushCut c.who.die f dest = true then
            some { s.setCtx k { got with deferred := c.deferred ++ [⟨0, .flush, abortInfo s.serial dest⟩] } with serial := s.serial + 1 }
          else if s.behindMarker k f.seq dest then none
          else if dest < 4 then some (s.setCtx k got)
          else some ((s.setCtx k got).acknowledge (dest - 4))
        else none
  | .flushCompletion k =>
    (s.ctx? k).bind fun c =>
      match c.flushing with
      | some f => onlyIf (f.sent && f.wait.isEmpty) (s.setCtx k { c with flushing := none })
      | none => none
  | _ => none

/-! ### Engine commands (R66, R246 to R255, R282, R286) -/

/-- A running command of a mover does the next of its work, or faults; what waits leaves it as it is. -/
def moverRuns (s : State) (id kind : Nat) : Option State :=
  (s.cmds.find? id).bind fun cmd =>
    if cmd.unit = .mover ∧ kindOf cmd.words = kind ∧ cmd.running = true ∧ cmd.finished = false then
      (s.ctx? cmd.ctx).bind fun c =>
        match s.moverStep id cmd c with
        | .ok t => some t
        | .error x => onlyIf (x.cause != 0) (s.cmdFault id x.cause x.sp x.addr x.wr)
    else none

/-- The steps of a command in its queue. -/
def commandEvent (s : State) : Instr → Option State
  | .moverCommandStart k q =>
    (s.ctx? k).bind fun c =>
      (s.nextCmd (s.moverCmds c q)).map fun (id, cmd) =>
        let t := { s with cmds := s.cmds.insert id { cmd with running := true } }
        if issueTime cmd.words ≠ 0 ∧ issueTime cmd.words < (s.die cmd.die).time then
          t.modCtx cmd.ctx fun c => { c with ctr := { c.ctr with late := satInc c.ctr.late } }
        else t
  | .copy id => moverRuns s id 1
  | .mcastCommand id => moverRuns s id 2
  | .gather id => moverRuns s id 3
  | .i2c id => moverRuns s id 4
  | .fill id => moverRuns s id 5
  | .qfenceCommand id =>
    (s.cmds.find? id).bind fun c =>
      onlyIf (kindOf c.words == 6 && !c.finished && (c.running || (c.unit != .mover && s.eligible id c)))
        { s with cmds := s.cmds.insert id { c with
            running := true, finished := true, credits := c.credits ++ c.barriers.map fun a => (a, 0, cba c.words) } }
  | .engineCredit id =>
    (s.cmds.find? id).bind fun c =>
      match c.credits with
      | [] => none
      | (a, n, arrive) :: rest =>
        let launch := ((s.ctx? c.ctx).map fun x => x.who.launch).getD 0
        let h := s.barHome launch c.ctx a
        if ((s.ctx? c.ctx).all fun x => !s.portClosed x .dsp a) = true then
          let r := if n = 0 then (s, (0 : Cause)) else s.creditBar h.1 h.2 n 0
          if r.2 ≠ 0 then some (r.1.cmdFault id r.2 .dsp a true)
          else
            let q := if arrive then r.1.arriveBar h.1 h.2 1 0 else (r.1, (0 : Cause))
            if q.2 ≠ 0 then some (q.1.cmdFault id q.2 .dsp a true)
            else some { q.1 with cmds := q.1.cmds.insert id { c with credits := rest } }
        else none
  | .commandComplete id =>
    (s.cmds.find? id).bind fun c => onlyIf (c.finished && c.credits.isEmpty) { s with cmds := s.cmds.erase id }
  | _ => none

/-! ### Contexts (R35, R101, R102, R171, R172, R337 to R340, R345, R358) -/

/-- The steps in the life of a context and of a gang. -/
def contextEvent (s : State) : Instr → Option State
  | .preemptionRequest k => (s.ctx? k).bind fun c => onlyIf (!c.who.nopre) (s.requestSave k)
  | .contextSave k =>
    (s.ctx? k).bind fun c =>
      if c.status = .halted ∧ s.settled k = true then
        let t := (s.modCtx k fun c => { c.pendFault with holds := c.holds.filter fun h => !h.transfers }).spill c
        let l := ((t.ctx? k).map fun d => slotted 0 [] (t.records k d)).getD []
        let whole := c.moves || t.sharesPlace c
        some ((t.saveParts k c.ctxArea.toNat (if whole then 15 else 7)).modCtx k fun c =>
          { c with status := .saved, records := l, moves := whole })
      else onlyIf (c.status == .halted) (s.setCtx k (c.holds.foldl Ctx.flushFor c))
  | .contextResume k =>
    (s.ctx? k).bind fun c =>
      onlyIf (c.status == .saved && !s.gangSaved k && !c.away && s.hasTurn c.who.die c.who.lcore && !s.coreBusy k c) (s.resumeCtx k)
  | .instanceStart k =>
    (s.ctx? k).bind fun c =>
      if c.status = .placed then
        (s.graphOf c.who.die c.who.launch).map fun g =>
          let arg := ((s.runs.find? c.who.run).map (·.arg)).getD 0
          ((s.loadRegion k c g.image).modCtx k fun c => { c.withArgs arg with status := .loaded }).release k
      else none
  | .instanceEnd k =>
    (s.ctx? k).bind fun c => onlyIf (c.status == .gone) ((s.leave k c).endOne c.who.run c.who.index c.digest)
  | .taskComplete k =>
    (s.ctx? k).bind fun c =>
      if c.status = .ending ∧ s.quiet k = true then
        if s.gateMet k c (s.endGate c) = false then some (s.setCtx k (c.startFlush (s.endGate c)))
        else
          match c.exitFault with
          | none => some (s.setCtx k { c with status := .gone })
          | some (i, d) => some ((s.setCtx k d).offerTask k i)
      else none
  | .schedulingStep die => onlyIf (!(s.die die).resetting) (s.schedule die)
  | .gangResume n =>
    (s.gangs.find? n).bind fun g => onlyIf (((s.candidates g.die).head?.bind fun c => c.gang) == some n) (s.schedule g.die)
  | .turnChange die p =>
    let d := s.die die
    let all := s.sharers die p
    if all = [] then none
    else
      (s.turnOf die p).bind fun l =>
        (nextTurn l all).bind fun m =>
          let live := (s.liveOn die l).filter fun k => ((s.ctx? k).map fun c => c.status == .live).getD false
          onlyIf (m != l && decide (d.turnStart.getD p 0 + d.hslice.toNat ≤ d.time) && decide (live.length ≤ d.freeAreas) &&
              (s.liveOn die l).all fun k => !((s.ctx? k).map fun c => c.who.nopre).getD false)
            ((live.foldl State.requestSave s).modDie die fun d =>
              { d with turns := d.turns.insert p m, turnStart := d.turnStart.insert p d.time })
  | .powerThrottle n cycles => some { s with gangs := s.gangs.modify n fun g => { g with throttle := g.throttle + cycles } }
  | _ => none

/-! ### Launches (R341, R342, R353, R354, R357, R381, R382) -/

/-- The doorbell of a die that follows on the last one. -/
def doorbellHeard (s : State) (die : Nat) (r : List Byte) : Bool :=
  decide (r.length = 16) && decide (die < 3) && !(s.die die).resetting && !(s.die 1).resetting &&
    decide (BitVec.ofNat 32 (recordField r 4 4) = (s.die die).win.seqSeen + 1)

/-- The steps of a launch and of containment. -/
def launchEvent (s : State) : Instr → Option State
  | .doorbell die r =>
    if doorbellHeard s die r then
      let hseq := BitVec.ofNat 32 (recordField r 4 4)
      let gid := recordField r 0 2
      let t := s.modDie die fun d => { d with win := { d.win with seqSeen := hseq } }
      if s.logFull then some (t.complete die hseq gid 4 0 0xFFFF)
      else
        match ((t.die die).graphs.find? gid).bind fun g => t.parameterBlock g.image (recordField r 2 2) (recordField r 8 8) with
        | none => some (t.complete die hseq gid 1 0 0xFFFF)
        | some pb =>
          some { t.modDie die (fun d => { d with pendings := d.pendings ++ [⟨hseq, gid, pb, t.serial⟩] }) with serial := t.serial + 1 }
    else none
  | .launchAdmit n =>
    let die := n / 2 ^ 32
    ((s.die die).pendings.find? fun p => launchKey die p.hseq = n).bind fun p =>
      ((s.die die).graphs.find? p.gid).bind fun g => onlyIf (s.mayAdmit p g.image) (s.takeUp die p g)
  | .twinRunEnd n =>
    (s.runs.find? n).bind fun r =>
      (s.imageOf r).bind fun g =>
        if g.twin r.task = true ∧ r.allEnded g = true ∧ r.phase = .ready ∧ r.twin < 2 then
          if r.twin = 0 then some (s.modRun n fun r => { r with twin := 1, digest0 := r.digest, started := [], ended := [] })
          else if r.digest = r.digest0 then some (s.runDone n)
          else some { (s.modRun n fun r => { r with twin := 2 }) with
            offers := s.offers ++ [⟨0, n, r.launch, causeDigestMismatch, false, false⟩] }
        else none
  | .containmentOffer =>
    match s.offers with
    | [] => none
    | o :: rest =>
      let t := { s with offers := rest }
      some (match t.subject o with
        | none => t
        | some x =>
          if o.ctx ≠ 0 ∧ (s.ctx? o.ctx).isNone = true then t.report x.run.die 6 o.cause (containLoc (o.ctx % 2 ^ 24) 2 2)
          else
            let a := x.absorb o.notice [.task, .gang, .graph, .context]
            (t.act o x a.1 a.2).report x.run.die 6 o.cause (containLoc (o.ctx % 2 ^ 24) a.1.code a.2.code))
  | _ => none

end Sys2Proof.Effects
end

