-- ==== Sys2Proof/Effects/Picks.lean ====
section
/-! DEFINITION. The arithmetic of a pick in exact numbers, and what its commit leaves, for the statements to compare the meanings with (R420 to R427). -/

namespace Sys2Proof.Effects

open Sys2Proof.Machine Sys2Proof.Safety

/-- A value that is a number. -/
def isFin : FVal → Bool
  | .fin _ _ _ => true
  | _ => false

/-- The rational number that a value is. -/
def ratOf : FVal → ℚ
  | .fin neg n x => (if neg then -1 else 1) * (n : ℚ) * (2 : ℚ) ^ x
  | _ => 0

/-- Token `j` may be drawn from the weights `w` with the uniform `u`: its weight is positive and its running sum reaches `u` × total / 2^24 (R423). -/
def drawable (w : List FVal) (u j : Nat) : Prop :=
  j < w.length ∧ zeroF.less (w.getD j zeroF) = true ∧
    (((w.take (j + 1)).foldl add32 zeroF).mul (natF (2 ^ 24))).less ((natF u).mul (w.foldl add32 zeroF)) = false

/-- The tail that a pick extends stands where the pick begins, or no tail is held (R425). -/
def tailFits (s : State) (slot base : Nat) : Prop :=
  bits (s.seq slot).seqt 32 32 = 0 ∨
    ∃ e, s.kv.find? (bits (s.seq slot).seqt 32 32) = some e ∧ e.phase = .tail ∧ e.pos0.toNat + e.len = base

/-- Nothing has come between a pick and its slot (R425). -/
def pickFits (s : State) (slot : Nat) (d : List Byte) : Prop :=
  tailFits s slot (recBase d) ∧ bits (s.seq slot).horizon 0 32 = recBase d ∧ bits (s.seq slot).horizon 32 16 = recVer d

/-- The slot after a commit of `a` of `k` tokens, with the depth table `dt`: H and VER, ACNT and NEXTK (R425, R426). -/
def seqAfter (y : SeqSlot) (dt : Word) (base a k : Nat) : SeqSlot :=
  let acnt : Int := bits y.seqt 0 16
  let new := (acnt + (((min 0xFFFF (a * 2 ^ 16 / k) : Nat) : Int) - acnt) / 8).toNat
  { horizon := toWord ((base + a + 1) % 2 ^ 32 + (bits y.horizon 32 16 + 1) % 2 ^ 16 * 2 ^ 32)
    seqt := setBits (setBits y.seqt 0 16 new) 16 5 (bits dt (4 * (new / 4096)) 4 + 1) }

/-- The tail after a commit: the accepted and the emitted tokens stand in its next tag slots. -/
def tailAfter (e : KvEntry) (d : List Byte) (a token : Nat) : KvEntry :=
  { e with
    tag := (range 0 (a + 1)).foldl (fun m j => m.insert (e.len + j) (BitVec.ofNat 32 (if j < a then recTok d j else token))) e.tag
    len := e.len + a + 1 }

/-- The state that a commit leaves. -/
def committed (s : State) (cmd : Cmd) (p : Pick) (x : Drawn) : State :=
  let slot := bits cmd.words.q2 0 12
  let h := bits (s.seq slot).seqt 32 32
  { s with
    kv := match s.kv.find? h with
      | some e => if h = 0 then s.kv else s.kv.insert h (tailAfter e p.desc x.a x.token)
      | none => s.kv
    seqs := s.seqs.insert slot (seqAfter (s.seq slot) (s.depths cmd) (recBase p.desc) x.a (recK p.desc))
    qzero := if s.qzero.toNat + x.qz < 2 ^ 64 then s.qzero + toWord x.qz else 0xFFFFFFFFFFFFFFFF }

/-- A result record: its fields, and H, VER, ACNT and NEXTK of the slot (R427). -/
def resultOf (y : SeqSlot) (status acc flags token qz rej : Nat) : List Byte :=
  [BitVec.ofNat 8 status, BitVec.ofNat 8 acc, BitVec.ofNat 8 (bits y.seqt 16 5), BitVec.ofNat 8 flags] ++ toBytes token 4 ++
    toBytes (bits y.horizon 0 32) 4 ++ toBytes (bits y.seqt 0 16) 2 ++ toBytes (bits y.horizon 32 16) 2 ++
    [BitVec.ofNat 8 qz, BitVec.ofNat 8 rej] ++ List.replicate 46 0

end Sys2Proof.Effects
end

