-- ==== Sys2Proof/Effects/Units.lean ====
section
/-! DEFINITION. What the rules give the steps of the engines, registers, links, resets, the management processor and the fabric, for the
statements to compare the meanings with. -/

namespace Sys2Proof.Effects

open Sys2Proof.Machine Sys2Proof.Safety

/-! ### The page directory (R430 to R437) -/

/-- A command of a page-directory port is applied, its record appended and folded into the digest, and its credit due; a rebuilt page has a record of
TYPE 2 instead, which signals, and its children follow it (R432, R433, R437). -/
def directoryRuns (s : State) (id op : Nat) (go : Ctx → Cmd → KvStep) : Option State :=
  (s.cmds.find? id).bind fun cmd =>
    if s.kvReady id op cmd then
      (s.ctx? cmd.ctx).bind fun c =>
        let r : Except ElemFault (State × KvResult × Nat × List (Nat × List Byte)) := do
          let (t, r) ← go c cmd
          let (die, x) :=
            match r.rebuilt, r.page with
            | true, some e => (e.die, (⟨2, some r.status, none, r.flags, r.handle, e.ownseq, none, some e⟩ : RingRecord))
            | _, _ => (cmd.die, ⟨0, some r.status, some op, r.flags, r.handle, bits cmd.words.q2 4 12, none, r.page⟩)
          let (t, l) ← t.append die x
          pure (t, r, die, l)
        match r with
        | .error x => onlyIf (x.cause != 0) (s.cmdFault id x.cause x.sp x.addr x.wr)
        | .ok (t, r, die, l) =>
          let t := l.foldl (fun t e => t.fold cmd.ctx (writeRecords 2 e.1 (e.2.map some))) t
          let t :=
            match r.rebuilt, r.handle with
            | true, some h => (t.signalRing die).offerChildren h
            | _, _ => t
          some { t with cmds := t.cmds.insert id (cmd.finish (r.bytes + 32 * l.length)) }
    else none

/-- An operation that only reports a status: 1 FULL, 2 NOTFULL, 3 BUSY, 4 BADSTATE, 5 NOHANDLE (R433). -/
def reports (s : State) (status : Nat) : KvStep := .ok (s, ⟨status, 0, none, none, 0, false⟩)

/-- An operation that has changed an entry, or told of one, with its flags: 1 DUP, 2 COPIED, 4 FREED (R433). -/
def tells (s : State) (flags h : Nat) (e : KvEntry) : KvStep := .ok (s, ⟨0, flags, some h, some e, 0, false⟩)

/-- An operation on the entry that ARGA names, and what QUAR and REBUILD answer it with. -/
def onEntry (s : State) (w : Quad Word) (go : Nat → KvEntry → KvStep) : KvStep :=
  match s.kv.find? (bits w.q0 0 32) with
  | none => reports s 5
  | some e => go (bits w.q0 0 32) e
def unlessBusy (s : State) (e : KvEntry) (r : KvStep) : KvStep := if e.phase = .quar ∨ e.phase = .rebuild then reports s 3 else r

/-- The entries of the directory with a page written, or made FREE. -/
def withPage (s : State) (h : Nat) (e : KvEntry) : State := { s with kv := s.kv.insert h e }
def withoutPage (s : State) (h : Nat) : State := { s with kv := s.kv.erase h }

/-- The PA and bytes that a storage word names lie in installed memory (R432). -/
def stored (s : State) (w : Word) : Bool := s.installedAll (bits w 12 40 * 2 ^ 12) (bits w 0 12 * 4096)
def unstored (w : Word) : ElemFault := ⟨causeXlateFault, .mem, bits w 12 40 * 2 ^ 12, true⟩

/-- A page takes a FREE entry of a stack, which is open (log 21); none where there is none. -/
def takesEntry (s : State) (stack : Nat) (e : KvEntry) : Option (State × Nat) :=
  (s.freeHandle stack).map fun h => ({ s with kv := s.kv.insert h e, serial := s.serial + 1 }, h)

/-- SEQT[slot].TAIL names a page. -/
def namesTail (s : State) (slot h : Nat) : State :=
  { s with seqs := s.seqs.insert slot { s.seq slot with seqt := setBits (s.seq slot).seqt 32 32 h } }

/-- A new tail in the stack with the most FREE entries, named by SEQT[slot].TAIL. -/
def opens (s : State) (slot : Nat) (storage : Word) (parent : Nat) (pos0 : BitVec 32) (len : Nat) (tag : FMap (BitVec 32)) :
    Option (State × Nat × KvEntry) :=
  let e : KvEntry := { phase := .tail, storage := storage, parent := parent, pos0 := pos0, len := len, ref := 1, ownseq := slot,
                       prior := .tail, tag := tag, cause := 0, injectAt := none, owed := none }
  (takesEntry s s.bestStack e).map fun x => (namesTail x.1 slot x.2, x.2, e)

/-- SEAL of a tail that holds 64 tokens: the page is an equal SHARED one with room for another reference (DUP), or a new SHARED one in the stack of
its key, or PRIVATE where every equal one has its greatest REF (COPIED); then the next tail carries the other tokens, or none is named
(R435). -/
def seals (s : State) (slot h : Nat) (e : KvEntry) (next : Word) : KvStep :=
  let page := fun p => { e with phase := p, ref := 1, len := 64, tag := e.tag.filter fun n _ => decide (n < 64) }
  let equal := s.kv.items.filter fun x =>
    x.2.phase == .shared && x.2.parent == e.parent && (range 0 64).all fun n => x.2.tag.getD n 0 == e.tag.getD n 0
  let sealed : Option (State × Nat × Nat × KvEntry) :=
    match equal.find? fun x => decide (x.2.ref < 65535) with
    | some (g, x) =>
      some (withPage (withoutPage s h) g { x with ref := x.ref + 1 }, 1, g, { x with ref := x.ref + 1, storage := e.storage })
    | none =>
      match equal with
      | [] => (takesEntry (withoutPage s h) (e.key % 12) (page .shared)).map fun x => (x.1, 0, x.2, page .shared)
      | _ => some (withPage s h (page .priv), 2, h, page .priv)
  let after : Option (State × Nat × Nat × KvEntry) := sealed.bind fun (t, flags, g, y) =>
    if next = 0 then some (namesTail t slot 0, flags, g, y)
    else
      let carried := (e.tag.items.filter fun x => decide (64 ≤ x.1) && decide (x.1 < e.len)).map fun x => (x.1 - 64, x.2)
      (opens t slot next g (e.pos0 + 64) (e.len - 64) ⟨carried⟩).map fun x => (x.1, flags, g, y)
  match after with
  | none => reports s 1
  | some (t, flags, g, y) => tells t flags g y

/-- A page copied to a spare becomes a new entry (R434, R436). -/
def copies (s : State) (w : Quad Word) (e : KvEntry) (p : KvPhase) : KvStep := do
  let t ← s.copyStorage e w.q1
  let y := { e with phase := p, storage := w.q1, ref := 1, ownseq := bits w.q2 4 12 }
  match takesEntry t t.bestStack y with
  | none => reports s 1
  | some (t, h) => .ok (t, ⟨0, 2, some h, some y, bits e.storage 0 12 * 4096, false⟩)

/-- A page in QUAR whose parent is ready enters REBUILD, once a task is registered (R434). -/
def rebuilds (s : State) (h : Nat) (e : KvEntry) : State :=
  let ready := match s.kv.find? e.parent with
    | none => true
    | some p => p.phase != .quar && p.phase != .rebuild
  if e.phase = .quar ∧ ready = true ∧ (s.ring e.die).isSome then
    withPage s h { e with phase := .rebuild, injectAt := some (s.die e.die).time }
  else s

/-- The steps of the page directory. -/
def directoryEvent (s : State) : Instr → Option State
  | .kvopRegister id => directoryRuns s id 0 fun c x =>
    let w := x.words
    let task := bits w.q1 0 10
    match s.graphOf x.die c.who.launch with
    | none => reports s 4
    | some g =>
      if task < g.image.ntask ∧ g.image.devonly task = true ∧ (bits w.q1 28 1 = 1 → bits w.q1 16 12 < g.image.semn) then
        let r : KvRing := ⟨bits w.q0 0 33, bits w.q0 36 3, task, bits w.q1 16 12, decide (bits w.q1 28 1 = 1), c.who.launch, c.key, c.who.run,
          c.who.depth, 0⟩
        .ok ({ s with rings := s.rings.insert x.die r }, ⟨0, 0, some 0, none, 0, false⟩)
      else reports s 4
  | .kvopOpen id => directoryRuns s id 1 fun _ x =>
    let w := x.words
    if stored s w.q0 then
      match opens s (bits w.q2 4 12) w.q0 (bits w.q1 0 32) (BitVec.ofNat 32 (bits w.q1 32 32)) 0 .empty with
      | none => reports s 1
      | some (t, h, e) => tells t 0 h e
    else .error (unstored w.q0)
  | .kvopSeal id => directoryRuns s id 2 fun _ x =>
    onEntry s x.words fun h e => unlessBusy s e
      (if e.phase ≠ .tail then reports s 4
       else if e.len < 64 then reports s 2
       else if x.words.q1 ≠ 0 ∧ stored s x.words.q1 = false then .error (unstored x.words.q1)
       else seals s (bits x.words.q2 4 12) h e x.words.q1)
  | .kvopFork id => directoryRuns s id 3 fun _ x =>
    onEntry s x.words fun h e =>
      match e.phase with
      | .quar | .rebuild => reports s 3
      | .tail => copies s x.words e .tail
      | .priv => copies s x.words e .priv
      | .shared =>
        if e.ref < 65535 then tells (withPage s h { e with ref := e.ref + 1 }) 0 h { e with ref := e.ref + 1 }
        else copies s x.words e .priv
  | .kvopRelease id => directoryRuns s id 4 fun _ x =>
    onEntry s x.words fun h e => unlessBusy s e
      (if e.phase = .shared ∧ 1 < e.ref then tells (withPage s h { e with ref := e.ref - 1 }) 0 h { e with ref := e.ref - 1 }
       else tells (withoutPage s h) 4 h { e with ref := 0 })
  | .kvopResolve id => directoryRuns s id 5 fun _ x => onEntry s x.words fun h e => tells s 0 h e
  | .kvopTrunc id => directoryRuns s id 6 fun _ x =>
    onEntry s x.words fun h e => unlessBusy s e
      (if e.phase ≠ .tail ∨ e.len < bits x.words.q1 0 7 then reports s 4
       else tells (withPage s h { e with len := bits x.words.q1 0 7 }) 0 h { e with len := bits x.words.q1 0 7 })
  | .kvopTagrd id => directoryRuns s id 7 fun c x =>
    onEntry s x.words fun h e => do
      let t ← s.engineWrite c .dsp x.words.q1.toNat
        (toBytes e.parent 4 ++ toBytes e.pos0.toNat 4 ++ toBytes e.len 4 ++ toBytes 0 4 ++
          (range 0 80).flatMap fun n => toBytes (e.tag.getD n 0).toNat 4)
      pure (t, ⟨0, 0, some h, some e, 336, false⟩)
  | .kvopDone id => directoryRuns s id 8 fun _ x =>
    onEntry s x.words fun h e =>
      if e.phase = .rebuild then
        let y := { e with phase := e.prior, injectAt := none }
        .ok (withPage s h y, ⟨0, 0, some h, some y, 0, true⟩)
      else reports s 4
  | .kvopRebuild id => directoryRuns s id 9 fun _ x =>
    onEntry s x.words fun h e =>
      if e.phase = .quar then let t := rebuilds s h e; tells t 0 h ((t.kv.find? h).getD e) else reports s 4
  | .kvFaultReport die n vec seg cause =>
    let r := (s.die die).regions.getD n .zero
    let x : KvReport := ⟨die, n, vec * r.segs + seg, cause⟩
    if s.kvReports.contains x = false then none
    else
      let t := { s with kvReports := s.kvReports.erase x }
      match (s.die die).regions.find? n with
      | none => some t
      | some r =>
        let pa := s.faultAt r x.seg cause
        match s.entryAt pa with
        | none => some (t.report die 4 cause 0)
        | some (h, e) =>
          if e.phase = .quar ∨ e.phase = .rebuild then some (t.report die 4 cause h)
          else
            let u := (withPage t h { e with phase := .quar, prior := e.phase, cause := cause, injectAt := none, owed := none }).report
              e.die 4 cause h
            (u.notify e.die ⟨1, some cause.toNat, none, 0, some h, e.ownseq, some (s.kvPlace (pa - storagePa e.storage)), some e⟩).map
              fun u => (u.noticeKv e.die cause).offerRebuild h
  | .rebuildInject h =>
    (s.kv.find? h).bind fun e =>
      match e.owed with
      | some status =>
        let y := { e with owed := none }
        (withPage s h y).notify e.die ⟨1, some status.toNat, none, 0, some h, e.ownseq, some (0xFFFF, 0xFFFF), some y⟩
      | none =>
        e.injectAt.bind fun t =>
          (s.ring e.die).bind fun r =>
            let now := (s.die e.die).time
            if now < t then none
            else if 4096 ≤ s.poolUsed e.die then some (withPage s h { e with injectAt := some (now + Config.cycles64us) })
            else
              some { withPage s h { e with injectAt := none } with
                runs := s.runs.insert s.serial
                  { Run.fresh r.launch r.task e.die h (r.depth + 1) now .ready with injected := some h, reaped := true }
                serial := s.serial + 1 }
  | _ => none

/-! ### The engines (R413 to R418, R450 to R454) -/

/-- An attempt of a pick command. -/
def pickTries (s : State) (id : Nat) (cmd : Cmd) (go : Ctx → Except ElemFault State) : Option State :=
  (s.ctx? cmd.ctx).bind fun c =>
    if (s.die 0).resetting then some (s.cmdFault id causeRemoteAbort .dsp cmd.words.q0.toNat true)
    else
      match go c with
      | .error x => onlyIf (x.cause != 0) (s.cmdFault id x.cause x.sp x.addr x.wr)
      | .ok t => some t

/-- Element `m` of rank `k` of an exchange, whose ranks have the bytes `all` (R453). -/
def rankElem (r : Quad Word) (all : List (List Byte)) (k m : Nat) : Nat :=
  let size := if bits r.q0 12 2 = 1 then 2 else 4
  ofBytes (((all.getD k []).drop (m * size)).take size)

/-- Elements reduced in rank order: TY INT32 sums modulo 2^32, or takes the greater or lesser; FP32 and BF16 round each step to FP32, and the result
to the element type (R453). -/
def reduceRanks (r : Quad Word) (l : List Nat) : Nat :=
  let red := bits r.q0 10 2
  if bits r.q0 12 2 = 2 then
    match l.map (signed · 32) with
    | [] => 0
    | x :: l =>
      (BitVec.ofInt 32 (l.foldl (fun a b =>
        if red = 0 then (BitVec.ofInt 32 (a + b)).toInt else if red = 1 then max a b else min a b) x)).toNat
  else
    let f := if bits r.q0 12 2 = 1 then bf16 else fp32
    match l.map f.decode with
    | [] => 0
    | x :: l => f.ofVal .rne (l.foldl (fun a b => if red = 0 then (a.add .rne b).to32 else if red = 1 then a.max b else a.min b) x)

/-- DST element `n` of rank `my`: all-reduce, all-gather, reduce-scatter (R453). -/
def dstElem (r : Quad Word) (all : List (List Byte)) (my n : Nat) : List Byte :=
  let count := bits r.q1 0 32
  let ranks := range 0 (bits r.q0 16 11)
  toBytes
    (match bits r.q0 8 2 with
     | 0 => reduceRanks r (ranks.map fun k => rankElem r all k n)
     | 1 => rankElem r all (n / count) (n % count)
     | _ => reduceRanks r (ranks.map fun k => rankElem r all k (my * count + n)))
    (if bits r.q0 12 2 = 1 then 2 else 4)

/-- Writes the DST elements of a rank in index order until one faults. -/
def writesDst (c : Ctx) (cmd : Cmd) (all : List (List Byte)) : List Nat → State → State × Option ElemFault
  | [], s => (s, none)
  | n :: l, s =>
    let b := dstElem cmd.shape all (bits cmd.shape.q0 32 10) n
    match s.engineWrite c (dsOf cmd.shape) (cmd.words.q1.toNat + n * b.length) b with
    | .error x => (s, some x)
    | .ok t => writesDst c cmd all l t

/-- Writes the DST of each rank of this package, whose command is done or faults; none while one of them waits (R453, R454). -/
def writesRanks (all : List (List Byte)) : List (Nat × Cmd) → State → Option State
  | [], s => some s
  | (id, cmd) :: l, s =>
    (s.ctx? cmd.ctx).bind fun c =>
      let n := bits cmd.shape.q1 0 32 * (if bits cmd.shape.q0 8 2 = 1 then bits cmd.shape.q0 16 11 else 1)
      match writesDst c cmd all (range 0 n) s with
      | (t, some x) => if x.cause = 0 then none else writesRanks all l (t.cmdFault id x.cause x.sp x.addr x.wr)
      | (t, none) =>
        let d := { cmd with note := 2, notes := [] }.finish (n * (if bits cmd.shape.q0 12 2 = 1 then 2 else 4))
        writesRanks all l { t with cmds := t.cmds.insert id d }

/-- The exchange of a COLL: every rank of this package has started, and the ranks of other packages give the bytes of their SRC. Differing headers break
it (R452 to R454). -/
def exchanges (s : State) (x : Cmd) (others : List RankInput) : Option State :=
  let here := fun e : Word => decide (bits e 0 10 = bits s.fab.node 0 10)
  let own := x.notes.filter here
  let mine := own.filterMap (s.rankCmd x.q)
  if mine.length < own.length ∨ others.length ≠ x.notes.length - own.length ∨
      (others.all fun y => !y.same || decide (y.data.length = collSrcBytes x.shape)) = false then none
  else if ¬((∀ e ∈ mine, e.2.sameHeader x = true) ∧ ∀ y ∈ others, y.same = true) then
    some (mine.foldl (fun t e => t.cmdFaultFree e.1 causeBroken) s)
  else
    match s.rankSources mine with
    | .error (id, f) => onlyIf (f.cause != 0) (s.cmdFault id f.cause f.sp f.addr f.wr)
    | .ok (t, srcs) =>
      let far := (x.notes.zipIdx.filter fun e => !here e.1).map (·.2)
      let bytes := srcs ++ far.zip (others.map (·.data))
      let all := (range 0 (bits x.shape.q0 16 11)).map fun n => ((bytes.find? fun e => e.1 = n).map (·.2)).getD []
      (writesRanks all mine t).map fun u => u.collTraffic x.notes

/-- The steps of the collective engine and of the Lauter units. -/
def engineEvent (s : State) : Instr → Option State
  | .coll id ranks =>
    (s.cmds.find? id).bind fun x =>
      (s.ctx? x.ctx).bind fun c =>
        if x.unit ≠ .coll ∨ kindOf x.words ≠ 7 then none
        else if x.running && !x.finished && x.note == 1 then exchanges s x ranks
        else if s.eligible id x && s.cmds.items.all fun e => !(e.2.sameQueue x && decide (e.1 < id)) then
          match s.startColl id x c with
          | .ok t => some t
          | .error e => onlyIf (e.cause != 0) (s.cmdFault id e.cause e.sp e.addr e.wr)
        else none
  | .lauter id =>
    (s.cmds.find? id).bind fun x =>
      if s.lauterStarts id x then pickTries s id x fun c => s.startLauter c id x
      else if x.unit = .lauter ∧ x.running = true ∧ x.note = 2 ∧ s.lauterRunning < 8 then
        pickTries s id x fun c => s.runPick c id x (unpackPick x.notes)
      else none
  | .lauterMaskPoll id =>
    (s.cmds.find? id).bind fun x =>
      if x.unit = .lauter ∧ x.running = true ∧ x.note = 1 ∧ (x.notes.headD 0).toNat ≤ (s.die 1).time then
        pickTries s id x fun c => do
          let (t, arrived) ← s.maskArrived c (unpackPick x.notes).desc
          let y := if arrived then { x with note := 2 } else { x with notes := toWord ((t.die 1).time + 4096) :: x.notes.drop 1 }
          pure { t with cmds := t.cmds.insert id y }
      else none
  | .lauterForward id =>
    (s.cmds.find? id).bind fun x =>
      if x.unit = .lauter ∧ x.die = 2 ∧ x.visible ≤ (s.die 2).time ∧
          (∀ e ∈ s.cmds.items, e.2.unit = .lauter → e.2.die = 2 → id ≤ e.1) then
        if (s.die 1).resetting then some (s.cmdFault id causeRemoteAbort .dsp x.words.q0.toNat false)
        else
          onlyIf (decide (s.lauterQueue.length < 64))
            { s with cmds := (s.cmds.erase id).insert s.serial { x with die := 1, visible := (s.die 1).time }, serial := s.serial + 1 }
      else none
  | _ => none

/-! ### Register writes (R6, R92, R120, R121, R159, R167, R331, R339, R359, R360, R375, R442, R456) -/

/-- A write that a `crw` of a context has staged, or that holds C, takes effect: what it does, given the context (R92, R140). -/
def writeOf (s : State) (k : Nat) (crn : Nat) (v : Word) (f : Ctx → State → State) : Option State :=
  (s.ctx? k).bind fun c =>
    let w : Staged := .reg (BitVec.ofNat 12 crn) v
    let h : Hold := .write (BitVec.ofNat 12 crn) v
    if c.staged.contains w then some (f c (s.setCtx k { c with staged := c.staged.erase w }))
    else onlyIf (c.holds.contains h) (f c (s.setCtx k { c with holds := c.holds.erase h }))

/-- A context has such a write under way. -/
def writesReg (c : Ctx) (crn : Nat) (v : Word) : Bool :=
  c.staged.contains (.reg (BitVec.ofNat 12 crn) v) || c.holds.contains (.write (BitVec.ofNat 12 crn) v)

/-- The same for a register of a die or of the package, by the first context, of that die where one is named, that has it under way. -/
def sharedWrite (s : State) (die : Option Nat) (crn : Nat) (v : Word) (f : Ctx → State → State) : Option State :=
  (s.ctxs.items.find? fun e => writesReg e.2 crn v && (die.map fun d => decide (e.2.who.die = d)).getD true).bind
    fun e => writeOf s e.1 crn v f

/-- The steps that write a register. -/
def registerEvent (s : State) : Instr → Option State
  | .xinvWrite k v => writeOf s k 0x046 v fun _ t => t.modCtx k fun c => { c with tlb := .empty }
  | .escWrite k v => writeOf s k 0x043 v fun _ t => t.escalate k
  | .decodeRegionEnable die n v =>
    if n < 16 ∧ bits v 0 1 = 1 then sharedWrite s (some die) (0x103 + 4 * n) v fun c t => t.writeDrc c.who.die n v else none
  | .decodeRegionDisable die n v =>
    if n < 16 ∧ bits v 0 1 = 0 then sharedWrite s (some die) (0x103 + 4 * n) v fun c t => t.writeDrc c.who.die n v else none
  | .decodeFill die n vec seg =>
    let r := (s.die die).region n
    onlyIf (r.en && decide (vec < r.nvec) && decide (seg < r.segs)) (s.fillFor die (r.vbase + (vec * r.segs + seg) * 384) 1)
  | .heddleWrite die l v => if l < 80 then sharedWrite s (some die) (0x200 + l) v fun c t => t.writeHeddle c.who.die l v else none
  | .savepoolWrite die v =>
    sharedWrite s (some die) 0x074 v fun c t =>
      t.modDie c.who.die fun d => if d.areas.items.isEmpty then { d with savepool := maskWord v 0xFF01FFFFF000 } else d
  | .hsliceWrite die v =>
    sharedWrite s (some die) 0x073 v fun c t => t.modDie c.who.die fun d => { d with hslice := BitVec.ofNat 32 (max 1024 (bits v 0 32)) }
  | .atpoolWrite die v =>
    sharedWrite s (some die) 0x060 v fun c t => t.modDie c.who.die fun d => { d with atpool := atpoolAfter d.atpool v }
  | .lnkCtlWrite link v => if link < 3 then sharedWrite s none (0x084 + link) v fun _ t => t.writeLnkCtl link v else none
  | .fabNodeWrite v =>
    sharedWrite s none 0x0A0 v fun _ t =>
      if t.fab.ents.vals.any fun e => bits e 0 1 = 1 then t else { t with fab := { t.fab with node := maskWord v 0x103FF } }
  | .peerEntWrite v => sharedWrite s none 0x0A3 v fun _ t => t.writePeerEnt v
  | .replCtlWrite v => sharedWrite s none 0x0A4 v fun _ t => t.writeReplCtl v
  | .registerWrite k crn v => writeOf s k crn.toNat v fun _ t => t.writeReg k crn v
  | _ => none

/-! ### Links and die time (R369, R372 to R374) -/

/-- The steps of the links, and the deskew epoch. -/
def linkEvent (s : State) : Instr → Option State
  | .laneFail l n up =>
    if l < 3 ∧ n < Config.linkModules l ∧ (s.link l).down = false ∧ (s.link l).moduleLive n = true then
      some (((s.modLink l fun x => (x.failLane n up).settle l).degraded l n).modLink l fun x =>
        if x.down then x else { x with want := x.want ++ [⟨none, false, false⟩] })
    else none
  | .retrain l step t =>
    let x := s.link l
    if 3 ≤ l ∨ x.down = true then none
    else
      match x.want with
      | [] => onlyIf (decide (step = x.rate)) (s.modLink l fun x => { x with want := [⟨none, false, false⟩] })
      | r :: rest =>
        if step ≠ min (if r.rises then r.step.getD x.rate else min (r.step.getD x.rate) x.rate) x.cap.toNat then none
        else if x.train = false then onlyIf (!s.linkBusy l) (s.modLink l fun x => { x with train := true })
        else
          let u := (s.modLink l fun x => { x with rate := step, want := rest, train := false }).retireFailed l t
          let (a, b) := if l = 0 then (0, 1) else if l = 1 then (0, 2) else (1, 2)
          let u := { u with zone := (u.zone.insert (a * 4 + b) t.latUp).insert (b * 4 + a) t.latDown }
          some (if r.down then (u.reportLink l 0 true).offerLink l else u)
  | .flitReplay l =>
    if l < 3 ∧ (s.link l).down = false then
      let now := (s.die 0).time
      some (s.modLink l fun x => { x with
        replay := satInc x.replay
        window := if x.windowStart / 2 ^ 24 = now / 2 ^ 24 then x.window + 1 else 1
        windowStart := now })
    else none
  | .replayWindowStepDown l step =>
    let x := s.link l
    onlyIf (decide (l < 3) && !x.down && decide (0 < x.rate) && x.rlim != 0 && decide (64 * x.rlim.toNat < x.window) && x.want.isEmpty && step + 1 == x.rate)
      (s.modLink l fun x => { x with window := 0, want := [⟨some step, true, false⟩] })
  | .deskewEpoch =>
    if s.deskewing = [] then none
    else
      let latest := fun k => ([0, 1, 2].filter fun j => !(s.die j).resetting).foldl (fun m j => max m (s.die j).time) (s.die k).time
      let t := [0, 1, 2].foldl (fun t k => t.modDie k fun d => { d with time := if (s.die k).resetting then d.time else latest k }) s
      let u := s.deskewing.foldl (fun t e => t.serveDeskew (fun k => (s.die k).time) s.drifted e) t
      some { u with deskewing := [], zoneCopy := u.zone, resetSince := false }
  | _ => none

/-! ### Resets, errors and retired parts (R379, R380, R394, R396, R397) -/

/-- The steps of a reset, and errors of memory. -/
def resetEvent (s : State) : Instr → Option State
  | .dieReset die reason => some (s.resetDie die reason)
  | .quiesce die other =>
    if die < 3 ∧ other < 3 ∧ die ≠ other ∧ (s.die die).resetting = true ∧ (s.die other).fenced.has die = false then
      let t := s.net.items.foldl (fun t e => t.abortOne die other e) s
      let t := (t.ctxs.keys.filter fun k => decide (k / 2 ^ 24 = other)).foldl State.abortCut t
      some ((t.abortColl fun e => rankNode e == bits s.fab.node 0 10 && rankDie e == die).modDie other fun d =>
        { d with fenced := d.fenced.add die })
    else none
  | .dieRejoin r =>
    let die := r.die
    let others := [0, 1, 2].filter (· ≠ die)
    if die < 3 ∧ s.fw.status = .up ∧ (s.die die).resetting = true ∧
        (others.all fun d => (s.die d).resetting || (s.die d).fenced.has die) = true then
      let t := s.modDie die fun d => { d with resetting := false, aborted := [], firmware := s.fw.dies.running }
      let t := others.foldl (fun t d => t.modDie d fun x => { x with fenced := x.fenced.del die }) t
      let t := t.rebootDie r
      let t := (s.die die).aborted.foldl (fun t e => t.complete die e.1 e.2 3 causeRemoteAbort 0xFFFF) t
      some { t with resetSince := true }
    else none
  | .memoryError die unit loc corrected =>
    if die < 3 ∧ unit < 8 then
      let t := s.report die (if corrected then 1 else 2) (if corrected then 0 else causeEccUe) (unit * 2 ^ 28 + loc % 2 ^ 28)
      let t := if unit = 3 then t.countError loc corrected else t
      some (if corrected then t else if 6 ≤ unit then t.resetDie die resetError else t.damage unit loc)
    else none
  | .llcSliceRetire die slice =>
    if die < 3 ∧ (s.die die).slices.has slice = false then
      some ((s.modDie die fun d => { d with slices := d.slices.add slice }).report die 5 0 (2 * 2 ^ 28 + slice % 2 ^ 28))
    else none
  | _ => none

/-! ### The management processor (R368, R381 to R397) -/

/-- The steps of the windows of BAR0, of the error log, and power-up. -/
def processorEvent (s : State) : Instr → Option State
  | .completionRecord n =>
    let w := s.window n
    match w.held with
    | [] => none
    | c :: rest =>
      if (n = 3 ∨ (n < 3 ∧ (s.die n).resetting = false ∧ (s.die 1).resetting = false)) ∧
          (w.dseq + 1 - w.cmplHead).toNat ≤ 2 ^ (w.cmplLog2.toNat + 4) then
        some ((s.hostWrite (w.cmplBase.toNat + 32 * ((w.dseq + 1).toNat % 2 ^ (w.cmplLog2.toNat + 4))) (c.image (w.dseq + 1))).modWindow n
          fun w => { w with dseq := w.dseq + 1, held := rest, posted := w.posted + 1 })
      else none
  | .cmplHeadWrite n off v =>
    if 4 ≤ n then none
    else
      match off with
      | 0x020 => some (s.modWindow n fun w => { w with cmplBase := v &&& 0xFFFFFFFFFFFFF000 })
      | 0x028 => onlyIf (decide (bits v 0 4 ≤ 12)) (s.modWindow n fun w => { w with cmplLog2 := BitVec.ofNat 4 (bits v 0 4) })
      | 0 => onlyIf (n == 3) { s with adminSeq := BitVec.ofNat 32 v.toNat }
      | 0x030 => some (s.modWindow n fun w => { w with cmplHead := BitVec.ofNat 32 v.toNat })
      | _ => none
  | .flushReadComplete n =>
    if n < 4 ∧ (s.window n).posted ≠ 0 then some (s.modWindow n fun w => { w with seqDone := w.dseq, posted := 0 }) else none
  | .errorLogAppend =>
    match s.reports with
    | [] => none
    | r :: rest =>
      let t := { s with reports := rest }
      if s.logFull then some { t with logLost := s.logLost + 1 }
      else if s.log.length + 1 < 2 ^ 24 then some { t with log := s.log ++ [logEntry s.log.length s.log.getLast? r] }
      else
        some { t with log := s.log ++ [logEntry s.log.length s.log.getLast? ⟨(s.die 0).time, 0, 3, 12, 0⟩], logFull := true,
                      logLost := s.logLost + 1 }
  | .timeLogEntry die =>
    if die < 3 ∧ (s.die die).resetting = false ∧ (s.die die).time / 2 ^ 47 + 1 ≠ (s.die die).logged then
      some ((s.report die 0 0 ((s.die die).time / 2 ^ 48 % 2 ^ 16)).modDie die fun d => { d with logged := d.time / 2 ^ 47 + 1 })
    else none
  | .packagePowerUp b =>
    let t := [1, 2, 3, 4, 5, 6, 7, 8, 9].foldl (State.bootStep s.journal b) s.powerUp
    some (if t.fw.status = .up then [0, 1, 2].foldl (fun t d => t.modDie d fun x => { x with resetting := false }) t else t)
  | _ => none

/-- An admin command whose record has the next HSEQ is refused with status 1 and changes nothing else, or has its effect and ends with status 0; one with another
HSEQ, or to an MP that is off, is discarded (R382, R385). -/
def answers (s : State) (ok : Bool) (t : State) : Option State :=
  let u := if ok then t else s
  let n := u.admin.seqSeen + 1
  onlyIf (s.adminSeq == s.admin.seqSeen + 1 && s.fw.status != .off) { u with
    admin := { u.admin with
      seqSeen := n
      held := u.admin.held ++
        [⟨n, (Config.recordValue u.serial).setWidth 16, if ok then 0 else 1, 0, 0xFFFF, (u.die 0).time, 0⟩] }
    serial := u.serial + 1 }

/-- The lines that were written under a key slot lose their contents, which are then open (R392, log 61). -/
def unreadable (s : State) (slot : Nat) : State :=
  let lost := s.sealed.items.filterMap fun e => if e.2 = slot then some e.1 else none
  { s with
    hbm := (lost.flatMap fun g => range (64 * g) 64).foldl (fun m a => m.write a (Config.clearedByte s.serial a)) s.hbm
    sealed := s.sealed.filter fun _ n => n ≠ slot
    serial := s.serial + 1 }

/-- The admin commands. -/
def adminEvent (s : State) : Instr → Option State
  | .ctxOpen id policy xroot kek =>
    match Config.oaepDecrypt s.fw.identity.enc kek with
    | none => answers s false s
    | some k =>
      answers s (decide (id < 2 ^ 16) && (policy == 0 || policy == 2) && (s.hostCtxs.find? id).isNone && k.length == 32)
        { s with hostCtxs := s.hostCtxs.insert id ⟨policy, xroot &&& 0xFFFFFFFFFF000, k⟩ }
  | .ctxClose id =>
    let t := s.endHostLaunches id
    let t := (t.keys.items.filter fun e => e.1 ≠ 0 && e.2.owner = id).foldl (fun t e => t.clearKey id e.1) t
    let t := [0, 1, 2].foldl (fun t d => t.modDie d fun x => { x with graphs := x.graphs.filter fun _ g => g.host ≠ id }) t
    answers s (s.hostCtxs.find? id).isSome { t with hostCtxs := t.hostCtxs.erase id }
  | .upload id g =>
    answers s ((s.hostCtxs.find? id).isSome && !g.refused && !s.graphBusy g.gid && !s.foreignGraph id g.gid && !s.noRoom g)
      (g.allDies.foldl (fun t d => t.modDie d fun x => { x with graphs := x.graphs.insert g.gid ⟨id, g, s.depthTab⟩ }) (s.dropGraph g.gid))
  | .free gid =>
    answers s (!s.graphBusy gid && [0, 1, 2].any fun d => ((s.die d).graphs.find? gid).isSome)
      ([0, 1, 2].foldl (fun t d => t.modDie d fun x => { x with graphs := x.graphs.erase gid }) s)
  | .keyLoad id slot wrapped =>
    match (s.hostCtxs.find? id).bind fun h => unwrapKey h.kek wrapped with
    | none => answers s false s
    | some key =>
      let same := ((s.keys.find? slot).map fun k => k.key == key).getD true
      let t := if same then s else unreadable s slot
      answers s (slot != 0 && decide (slot < 256) && key.length == 64 && ((s.keys.find? slot).map fun k => k.owner == id).getD true)
        ({ t with keys := s.keys.insert slot ⟨id, key⟩ }.report 3 11 0 (slot + id * 2 ^ 16))
  | .keyClear id slot =>
    answers s (slot != 0 && ((s.keys.find? slot).map fun k => k.owner == id).getD false)
      ((unreadable { s with keys := s.keys.erase slot } slot).report 3 11 0 (slot + 2 ^ 8 + id * 2 ^ 16))
  | .resetDie die => answers s (decide (die < 3)) (s.resetDie die resetAdmin)
  | .retirePage pa =>
    answers s (s.installed pa)
      ({ s.freePage pa with retired := s.retired.add (pa / 2 ^ 12) }.report 3 5 0 (2 ^ 28 + pa / 2 ^ 12 % 2 ^ 28))
  | .fwStage image dies =>
    answers s (rootSigned image && decide (s.fw.minimum ≤ Config.securityVersion image))
      { s with fw := if dies then { s.fw with dies := s.fw.dies.stage image } else { s.fw with mp := s.fw.mp.stage image } }
  | .fwSwitch =>
    let x : FwSlots := { s.fw.mp with useB := !s.fw.mp.useB, staged := false }
    let y : FwSlots := { s.fw.dies with useB := !s.fw.dies.useB, staged := false }
    let mp := if x.useB then x.b else x.a
    let image := if y.useB then y.b else y.a
    let t := if s.fw.mp.staged then ({ s with fw := { s.fw with mp := x } } : State).report 3 9 0 (Config.securityVersion mp) else s
    let u := [0, 1, 2].foldl (fun t d => t.modDie d fun e => { e with firmware := image }) { t with fw := { t.fw with dies := y } }
    answers s (s.fw.mp.staged || s.fw.dies.staged) (if s.fw.dies.staged then u.report 3 9 0 (Config.securityVersion image) else t)
  | .attest nonce dst =>
    answers s (decide (nonce.length = 32)) (s.hostWrite dst (Config.attestReport s.fw.identity.rsa s.fw.identity.slh nonce s.attested))
  | .logRead a b dst => answers s (decide (a ≤ b) && decide (b < s.log.length)) (s.hostWrite dst ((s.log.drop a).take (b + 1 - a)).flatten)
  | .journalClear step =>
    answers s (decide (1 ≤ step) && decide (step ≤ 9))
      { s with journal := s.journal.insert step .none, fw := { s.fw with fallback := s.fw.fallback.clear step } }
  | .handlerLoad die image =>
    answers s (decide (die < 3) && decide (image.length ≤ 1024) && !s.launchOn die)
      (s.modDie die fun d => { d with handler := codeStore image, handlerImage := image })
  | _ => none

/-! ### The fabric (R443 to R447, R454, R459) -/

/-- A request of a node is applied or refused, and counted; its answer tells the node's RX (R443, R446). -/
def peerAnswered (s : State) (node : Nat) (r : PeerRequest) : State :=
  let (t, cause, data) := s.peerEffect node r
  let t := t.countRx node r.sseq
  { t with fab := { t.fab with replies := t.fab.replies ++ [⟨node, r.sseq, cause, data, t.fab.rx.getD node 0⟩] } }

/-- The steps that other packages bring. -/
def fabricEvent (s : State) : Instr → Option State
  | .peerRequestApply node r =>
    let u := { s with fab := { s.fab with replies := [] } }
    let held := s.fab.held.getD node .empty
    if 2 ^ 20 ≤ (r.sseq - s.fab.rx.getD node 0).toNat then
      some { s with fab := { s.fab with replies := [⟨node, r.sseq, causeRemoteAbort, [], s.fab.rx.getD node 0⟩] } }
    else if s.counted node r.sseq || (held.find? r.sseq.toNat).isSome then none
    else if s.peerReady node r then some ((peerAnswered u node r).releaseHeld node held.items.length)
    else some { u with fab := { u.fab with held := s.fab.held.insert node (held.insert r.sseq.toNat r) } }
  | .fabricFlushMarker node m =>
    let t := ({ s with fab := { s.fab with replies := [] } } : State).countNext node (BitVec.ofNat 32 m.ports)
    if 2 ^ 20 ≤ (m.sseq - s.fab.rx.getD node 0).toNat then
      some { s with fab := { s.fab with replies := [⟨node, m.sseq, causeRemoteAbort, [], s.fab.rx.getD node 0⟩] } }
    else onlyIf (m.sseq == s.fab.rx.getD node 0 && decide (1 ≤ m.ports) && decide (m.ports ≤ 8))
      (({ t with fab := { t.fab with replies := t.fab.replies ++ [⟨node, m.sseq, 0, [], t.fab.rx.getD node 0⟩] } } : State).releaseHeld node
        (t.fab.held.getD node .empty).items.length)
  | .nodeUnreachable node =>
    let l := s.net.items.filter fun e => e.2.space == .peer && decide (e.2.addr / 2 ^ 48 = node) && e.2.stage == .sent
    let t := l.foldl (fun t e => t.failPacket e.1 e.2 causeRemoteAbort e.2.addr) (s.loseSight (l.map (·.2)))
    let t := t.abortMover node
    let t := (t.ctxs.keys).foldl (fun t k => t.abortFlush node k) t
    some ((t.abortColl fun e => rankNode e == node && rankNode e != bits s.fab.node 0 10).abortRcmp node)
  | .replicaPairArrival step digest =>
    match s.fab.waiting with
    | none => onlyIf s.fab.pair.isNone { s with fab := { s.fab with pair := some (step, digest) } }
    | some (k, land, mine, sum) =>
      let i := unplaced causeDigestMismatch s.serial
      if mine = step ∧ sum = digest then
        some { s.answer k land (fun l => { l with missing := 0 }) with fab := s.fab.agree mine, serial := s.serial + 1 }
      else some { s.answer k land (fun l => l.fail i.cause i.faddr i.finfo) with fab := s.fab.differ, serial := s.serial + 1 }
  | _ => none

end Sys2Proof.Effects
end

