-- ==== Sys2Proof/Certificates/Slice0/Obligations.lean ====
section
/-! DEFINITION. The statements for the provers. -/

open Sys2Proof Sys2Proof.Machine Sys2Proof.Safety Sys2Proof.Effects

/-- After reset every handler register is zero (R166), ATPOOL (R331), HSLICE (R360) and DEPTH_TAB (R428) hold their reset values, and both sequence counters of
a die are 0 (R382). That no context and nothing under way exists, and that no scratchpad line is valid, is the DESIGN CHOICE of log 4. -/
def Obligations.ResetValues : Prop :=
  State.reset.ctxs = .empty ∧ State.reset.net = .empty ∧ State.reset.cmds = .empty ∧ State.reset.runs = .empty ∧
    State.reset.launches = .empty ∧ State.reset.slots = [] ∧ State.reset.depthTab = 0xFEDCBA9876543210 ∧
    (∀ k o, (State.reset.core k).lines.has o = false ∧ (State.reset.core k).get o = 0) ∧
    (∀ d, (State.reset.die d).atpool = 0x00004010A0408020 ∧ (State.reset.die d).hslice = 96000 ∧
      (∀ p, (State.reset.die d).banks.getD p .zero = ⟨.empty, 0, ⟨0, 0, 0⟩, ⟨0, 0, 0⟩, []⟩) ∧
      (State.reset.die d).win.seqSeen = 0 ∧ (State.reset.die d).win.seqDone = 0)

/-- The memories of the reset state are in their canonical form; that every byte of them reads 0 is the choice of log 5. -/
def Obligations.MemoryWfAtReset : Prop :=
  MemoryWf State.reset ∧ ∀ a, State.reset.hbm.read a = 0 ∧ State.reset.hostMem.read a = 0 ∧ State.reset.peerMem.read a = 0

/-- Every step keeps the HBM, host memory and peer memory in their canonical form, so that equal memories are equal data. -/
def Obligations.MemoryWfKept : Prop :=
  ∀ s t, MemoryWf s → step s = .next t → MemoryWf t

/-- The S2 has no undefined behaviour (00_scope, after R7): every step goes on. -/
def Obligations.EveryStepGoesOn : Prop :=
  ∀ s, GoesOn s

/-- With a slot left in the cycle, a step fetches, decodes and executes the word at the PC of its cluster (R41, R163) and ends the cycle after the last
one; what does not decode is ILLEGAL_OP (R64), and a PC without code memory SPACE_FAULT (R41). Otherwise an event of the agenda is executed (log 2). -/
def Obligations.StepRunsDecoded : Prop :=
  (∀ (s : State) k cl rest c, s.slots = (k, cl) :: rest → s.ctx? k = some c →
    let start := { s with focus := (k, cl), slots := rest }
    let ended := fun t : State => if t.slots.isEmpty then t.endCycle k else t
    (s.fetch c cl = none → step s = .next (ended (start.takeTrap k (.issue causeSpaceFault cl)))) ∧
    (∀ w e, s.fetch c cl = some w → decode cl w = .error e → step s = .next (ended (start.takeTrap k (.issue causeIllegalOp cl)))) ∧
    (∀ w i t, s.fetch c cl = some w → decode cl w = .ok i → exec i start = .next t → step s = .next (ended t))) ∧
  (∀ (s : State) (c : Ctx) (cl : Cluster), (c.cl cl).pc.toNat < 0xE000 →
    s.fetch c cl = some ((c.code.get cl).getD ((c.cl cl).pc.toNat / 8) 0xFFFFFFFFFFFFFFFF)) ∧
  (∀ (s : State) (c : Ctx), 0xE000 ≤ (c.cl .c).pc.toNat → (c.cl .c).pc.toNat < 0x10000 → c.inHandler = true →
    s.fetch c .c = some ((s.die c.who.die).handler.getD (((c.cl .c).pc.toNat - 0xE000) / 8) 0xFFFFFFFFFFFFFFFF)) ∧
  (∀ (s : State) (c : Ctx) (cl : Cluster), 0xE000 ≤ (c.cl cl).pc.toNat →
    (cl ≠ .c ∨ c.inHandler = false ∨ 0x10000 ≤ (c.cl cl).pc.toNat) → s.fetch c cl = none) ∧
  (∀ (s : State) e rest, s.slots = [] → s.atTurn = none → s.agenda = .event e :: rest → step s = exec e { s with agenda := rest })

/-- Words written out from R39, R46, R50, R53 and R54 with the OPs of R57 to R61 decode to what they stand for, and all ones decode nowhere (R42). -/
def Obligations.DecodedWords : Prop :=
  decode .c (0x01#64 <<< 52 ||| 19#64 <<< 46 ||| 63#64 <<< 40 ||| 1#64 <<< 36 ||| 2#64 <<< 32) = .ok (.add ⟨false, false, 0⟩ ⟨19, 63, 1, 2, 0⟩) ∧
  decode .c (1#64 <<< 63 ||| 1#64 <<< 62 ||| 5#64 <<< 59 ||| 0x43#64 <<< 52 ||| 8#64 <<< 46 ||| 63#64 <<< 40) =
    .ok (.div ⟨true, true, 5⟩ ⟨8, 63, 0, 0, 0⟩) ∧
  decode .v (0x40#64 <<< 52 ||| 512#64 <<< 37 ||| 1024#64 <<< 22 ||| 1#64 <<< 5) =
    .ok (.vadd ⟨false, false, 0⟩ ⟨512, 1024, 0, 1, 0, 0⟩) ∧
  decode .m (0x42#64 <<< 52 ||| 3#64 <<< 28 ||| 1024#64 <<< 13) = .ok (.mdrain ⟨false, false, 0⟩ ⟨3, 1024, 0⟩) ∧
  decode .x (0x4C#64 <<< 52 ||| 63#64 <<< 46 ||| 63#64 <<< 40 ||| 2#64 <<< 36 ||| 3#64 <<< 32 ||| 400#64 <<< 12 ||| 3#64 <<< 10) =
    .ok (.ldm ⟨false, false, 0⟩ ⟨63, 63, 2, 3, 400, 3, 0, 0, 0⟩) ∧
  decode .c (0x61#64 <<< 52 ||| 8#64 <<< 46 ||| 63#64 <<< 40 ||| 1#64 <<< 36 ||| 2#64 <<< 32) = .ok (.mbxRecv ⟨false, false, 0⟩ ⟨8, 63, 1, 2, 0⟩) ∧
  decode .x (0x61#64 <<< 52 ||| 8#64 <<< 46 ||| 63#64 <<< 40 ||| 1#64 <<< 36 ||| 2#64 <<< 32) = .ok (.barArr ⟨false, false, 0⟩ ⟨8, 63, 1, 2, 0⟩) ∧
  ∀ cl, decode cl 0xFFFFFFFFFFFFFFFF = .error .unassigned

/-- Decoding the encoding of a word that is well-formed in a cluster gives the word, for every word and operand. -/
def Obligations.EncodeDecode : Prop :=
  ∀ cl i w, wellFormed cl i = true → encode i = some w → decode cl w = .ok i

/-- A word that decodes is the encoding of what it decodes to: no bit of it is ignored (R47, R64). -/
def Obligations.DecodeEncode : Prop :=
  ∀ cl w i, decode cl w = .ok i → encode i = some w ∧ wellFormed cl i = true

/-- R49: the eleven conditions, the codes that are illegal, and the field of `sel`. -/
def Obligations.Conditions : Prop :=
  (∀ a b : Word,
    (condHolds 0 a b ↔ a = b) ∧ (condHolds 1 a b ↔ a ≠ b) ∧ (condHolds 2 a b ↔ a.toInt < b.toInt) ∧
    (condHolds 3 a b ↔ b.toInt ≤ a.toInt) ∧ (condHolds 4 a b ↔ a.toNat < b.toNat) ∧ (condHolds 5 a b ↔ b.toNat ≤ a.toNat) ∧
    (condHolds 6 a b ↔ a.toInt ≤ b.toInt) ∧ (condHolds 7 a b ↔ b.toInt < a.toInt) ∧ (condHolds 8 a b ↔ a.toNat ≤ b.toNat) ∧
    (condHolds 9 a b ↔ b.toNat < a.toNat) ∧ (condHolds 10 a b ↔ a &&& b ≠ 0)) ∧
  (∀ cl h f, wellFormed cl (.cmp h f) = true → f.fn.toNat ≤ 10) ∧
  (∀ cl h f, wellFormed cl (.cmpi h f) = true → f.fn.toNat ≤ 10) ∧
  (∀ cl h f, wellFormed cl (.sel h f) = true → f.fn.toNat < 8)

/-- R13: p0 and the deliveries to predicates. -/
def Obligations.PredicateZero : Prop :=
  (∀ x : ClusterState, x.pred 0 = true) ∧ (∀ c cl v q n, Ctx.land1 c cl 48 v q n = c) ∧
  (∀ (l : Landing) cl p, l.d1 = 48 → (l.d2 = 48 ∨ l.d2 = 63) → l.pmask = 0 → l.uses cl p = false) ∧
  (∀ (c : Ctx) cl (j : Nat) v q n, 1 ≤ j → j ≤ 7 →
    ((c.land1 cl (BitVec.ofNat 6 (48 + j)) v q n).cl cl).pred j = decide (v ≠ 0) ∧
    (∀ m, m ≠ j → m ≤ 7 → ((c.land1 cl (BitVec.ofNat 6 (48 + j)) v q n).cl cl).pred m = (c.cl cl).pred m) ∧
    (∀ other, other ≠ cl → (c.land1 cl (BitVec.ofNat 6 (48 + j)) v q n).cl other = c.cl other))

/-- R87: the PC and the loop counters after a word that has issued. -/
def Obligations.NextPc : Prop :=
  (∀ (c : Ctx) cl a, (c.commit cl (some a)).cl cl = { c.cl cl with pc := a }) ∧
  (∀ (c : Ctx) cl,
    let x := c.cl cl
    let ends := fun l : LoopState => l.count ≠ 0 ∧ l.stop = x.pc
    (¬ends x.lc1 → ¬ends x.lc0 → (c.commit cl none).cl cl = { x with pc := x.pc + 8 }) ∧
    (ends x.lc1 → x.lc1.count ≠ 1 →
      (c.commit cl none).cl cl = { x with pc := x.lc1.start, lc1 := { x.lc1 with count := x.lc1.count - 1 } }) ∧
    (ends x.lc1 → x.lc1.count = 1 → ¬ends x.lc0 → (c.commit cl none).cl cl = { x with pc := x.pc + 8, lc1 := { x.lc1 with count := 0 } }) ∧
    (¬ends x.lc1 → ends x.lc0 → x.lc0.count ≠ 1 →
      (c.commit cl none).cl cl = { x with pc := x.lc0.start, lc0 := { x.lc0 with count := x.lc0.count - 1 } }) ∧
    (¬ends x.lc1 → ends x.lc0 → x.lc0.count = 1 →
      (c.commit cl none).cl cl = { x with pc := x.pc + 8, lc0 := { x.lc0 with count := 0 } }) ∧
    (ends x.lc1 → x.lc1.count = 1 → ends x.lc0 → x.lc0.count ≠ 1 → (c.commit cl none).cl cl =
      { x with pc := x.lc0.start, lc1 := { x.lc1 with count := 0 }, lc0 := { x.lc0 with count := x.lc0.count - 1 } }) ∧
    (ends x.lc1 → x.lc1.count = 1 → ends x.lc0 → x.lc0.count = 1 → (c.commit cl none).cl cl =
      { x with pc := x.pc + 8, lc1 := { x.lc1 with count := 0 }, lc0 := { x.lc0 with count := 0 } })) ∧
  (∀ (c : Ctx) cl a other, other ≠ cl → (c.commit cl a).cl other = c.cl other)

/-- When a landing becomes visible (R24), the entries, predicates and elements that it names hold its values, and every other one reads as before. -/
def Obligations.LandingWrites : Prop :=
  ∀ (c : Ctx) (l : Landing),
    let d := c.land l
    (∀ cl (f e : Nat), f < 6 → e < 8 → (d.cl cl).file f e =
      if cl = l.cl ∧ l.d2 = entryCode f e then l.v2 else if cl = l.cl ∧ l.d1 = entryCode f e then l.v1 else (c.cl cl).file f e) ∧
    (∀ cl (j : Nat), 1 ≤ j → j ≤ 7 → (d.cl cl).pred j =
      if cl = l.cl ∧ l.pmask.getLsbD j = true then l.pval.getLsbD j
      else if cl = l.cl ∧ l.d2 = BitVec.ofNat 6 (48 + j) then decide (l.v2 ≠ 0)
      else if cl = l.cl ∧ l.d1 = BitVec.ofNat 6 (48 + j) then decide (l.v1 ≠ 0) else (c.cl cl).pred j) ∧
    (∀ e, e ∉ l.elems → d.mrf.get e = c.mrf.get e) ∧
    (∀ r, d.mrf.valid.has r = (c.mrf.valid.has r || (List.zip l.elems l.vals).any fun x => x.1 / 128 == r)) ∧
    (∀ (n e : Nat) v, l.elems[n]? = some e → l.vals[n]? = some v → (∀ (m : Nat), n < m → l.elems[m]? ≠ some e) → d.mrf.get e = v) ∧
    (∀ cl, ∃ fs ps, d.cl cl = { c.cl cl with files := fs, preds := ps }) ∧
    d = { c with cls := d.cls, queues := d.queues, mrf := d.mrf }

/-- R29, R30: a landing fills the entries that it reserved in outbound queues, and no other. That an entry is visible at once while a handler runs is the
choice of log 12, and no part of this. -/
def Obligations.QueueLandings : Prop :=
  ∀ (c : Ctx) (l : Landing), c.inHandler = false →
    let seen := max l.due l.access + 1
    let filled := fun (id : Nat) (v : Word) (q : List QEntry) =>
      q.map fun (x : QEntry) => if x.id = id then { x with value := some v, seen := seen } else x
    (∀ e : Nat, e < 7 → l.d1 = BitVec.ofNat 6 (56 + e) → (∀ j : Nat, l.d2 = BitVec.ofNat 6 (56 + j) → j < 7 → outQueue l.cl j ≠ outQueue l.cl e) →
      (c.land l).queue (outQueue l.cl e) = filled l.q1 l.v1 (c.queue (outQueue l.cl e))) ∧
    (∀ e : Nat, e < 7 → l.d2 = BitVec.ofNat 6 (56 + e) → (∀ j : Nat, l.d1 = BitVec.ofNat 6 (56 + j) → j < 7 → outQueue l.cl j ≠ outQueue l.cl e) →
      (c.land l).queue (outQueue l.cl e) = filled l.q2 l.v2 (c.queue (outQueue l.cl e))) ∧
    (∀ e j : Nat, e < 7 → j < 7 → l.d1 = BitVec.ofNat 6 (56 + e) → l.d2 = BitVec.ofNat 6 (56 + j) → outQueue l.cl e = outQueue l.cl j →
      (c.land l).queue (outQueue l.cl e) = filled l.q2 l.v2 (filled l.q1 l.v1 (c.queue (outQueue l.cl e)))) ∧
    ∀ q, (∀ e : Nat, e < 7 → l.d1 = BitVec.ofNat 6 (56 + e) ∨ l.d2 = BitVec.ofNat 6 (56 + e) → q ≠ outQueue l.cl e) →
      (c.land l).queue q = c.queue q

/-- Each word that delivers a computed value, a division by anything but 0 among them, issues, delivers the value of its table row with its latency, and
advances its PC (R77 to R84, R95). -/
def Obligations.ValueWords : Prop :=
  ∀ i s c d, (valueWord s c i = some d ∨ divideWord s c i = some d) → Issues s c i d.h d.u →
    exec i s = .next (retired s (d.after (issuing s c d.h d.u)))

/-- `pand`, `por`, `pxor`, `pwr` (R83, R84), `qcnt` (R88) and `mqcnt` (R244) that issue. -/
def Obligations.PredicateAndCountWords : Prop :=
  ∀ i s c d, (predicateWord s c i = some d ∨ countWord s c i = some d) → Issues s c i d.h d.u →
    exec i s = .next (retired s (d.after (issuing s c d.h d.u)))

/-- The words that redirect go to their targets (R85, R86). -/
def Obligations.BranchWords : Prop :=
  ∀ i s c d a, branchWord s c i = some (d, a) → Issues s c i d.h d.u →
    exec i s = .next (redirected s (d.after (issuing s c d.h d.u)) a)

/-- `nop`, `loop`, `loopi`, `join`, `halt`, `trap`, `fork`, `yield` and `exit` that issue (R86, R89, R90, R96, R101, R102). -/
def Obligations.ControlWords : Prop :=
  ∀ i s c d, controlWord s c i = some d → Issues s c i d.h d.u → exec i s = .next (retired s (d.after (issuing s c d.h d.u)))

/-- Every word of V that writes lanes, and that meets no invalid row under UMODE 0 (R144), schedules the lanes its rule gives. -/
def Obligations.LaneWords : Prop :=
  ∀ i s c w, laneWord s c i = some w → Issues s c i w.h w.u → c.uninitElem w.u.elems = none ∨ c.umode ≠ 0 →
    exec i s = .next (retired s ((noteElems s c w.u.elems (issuing s c w.h w.u)).deliverElems w.operand w.elems w.vals w.lat))

/-- The words of V that deliver a scalar computed from lanes, and `vpack`. -/
def Obligations.ScalarsFromLanes : Prop :=
  ∀ i s c d es, (scalarWord s c i = some (d, es) ∨ packWord c i = some (d, es)) → Issues s c i d.h d.u →
    c.uninitElem es = none ∨ c.umode ≠ 0 → exec i s = .next (retired s (d.after (noteElems s c es (issuing s c d.h d.u))))

/-- M's words on a task that reserves the array (R213 to R222). -/
def Obligations.MatrixWords : Prop :=
  ∀ i s c d, matrixWord s c i = some d → Issues s c i d.h d.u → Clear c d.u → exec i s = .next (retired s (d.after (issuing s c d.h d.u)))

/-- The loads and stores of all six spaces whose checks hold (R226 to R230). -/
def Obligations.MemoryWords : Prop :=
  ∀ i s c d, memoryWord s c i = some d → Issues s c i d.h d.u → Clear c d.u → exec i s = .next (retired s (d.after (issuing s c d.h d.u)))

/-- X's words that order, clear, prefetch and push commands (R234 to R243). -/
def Obligations.ExchangeWords : Prop :=
  ∀ i s c d, exchangeWord s c i = some d → Issues s c i d.h d.u → Clear c d.u → exec i s = .next (retired s (d.after (issuing s c d.h d.u)))

/-- X's barrier words and `mcast` (R276 to R285). -/
def Obligations.BarrierWords : Prop :=
  ∀ i s c d, barrierWord s c i = some d → Issues s c i d.h d.u → Clear c d.u → exec i s = .next (retired s (d.after (issuing s c d.h d.u)))

/-- X's atomics and window words (R315 to R329). -/
def Obligations.AtomicWords : Prop :=
  ∀ i s c d, atomicWord s c i = some d → Issues s c i d.h d.u → Clear c d.u → exec i s = .next (retired s (d.after (issuing s c d.h d.u)))

/-- X's fabric words (R448, R449, R458, R459). -/
def Obligations.FabricWords : Prop :=
  ∀ i s c d, fabricWord s c i = some d → Issues s c i d.h d.u → Clear c d.u → exec i s = .next (retired s (d.after (issuing s c d.h d.u)))

/-- The control-register words (R91, R92), the save-area words (R99, R100), and what CSTAT (R15), CORE_ID (R93), CORE_CTL (R160), CAUSE (R94), EPC, the loop
counts, the times and the counts (R91) read. How long a transfer holds C is the choice of log 48. -/
def Obligations.RegisterAndAreaWords : Prop :=
  (∀ i s c d, (registerWord s c i = some d ∨ areaWord s c i = some d) → Issues s c i d.h d.u → Clear c d.u →
    exec i s = .next (retired s (d.after (issuing s c d.h d.u)))) ∧
  (∀ (s : State) (c : Ctx) (me cl : Cluster), (c.cl cl).ret.length ≤ 8 →
    let v := s.readReg c me (BitVec.ofNat 12 (8 + clIndex cl))
    let x := c.cl cl
    bits v 0 3 = (match x.run with
      | .idle => 0 | .run => 1 | .qwait => 2 | .swait => 3 | .joined => 4 | .halted => 5 | .istall => 6) ∧
    bits v 3 1 = 0 ∧ bits v 4 4 = x.ret.length ∧ bits v 8 3 = (if cl = .c then c.forkset.toNat else 0) ∧
    (x.run = .qwait → bits v 11 1 = (if x.qdir = true then 1 else 0) ∧ bits v 12 4 = x.qblk.toNat) ∧
    (x.run ≠ .qwait → bits v 11 5 = 0) ∧ bits v 16 48 = 0) ∧
  (∀ (s : State) (c : Ctx) (cl : Cluster) u p, bits (s.readReg (c.issueOn cl u p) cl (BitVec.ofNat 12 (8 + clIndex cl))) 0 3 = 1) ∧
  (∀ (s : State) (c : Ctx) (cl : Cluster), c.who.lcore < 128 → c.who.die < 3 →
    let v := s.readReg c cl 0x000
    let draft := c.who.die = 0
    bits v 0 7 = c.who.lcore ∧ bits v 7 3 = c.who.lcore % 8 ∧ bits v 10 4 = c.who.lcore / 8 ∧ bits v 14 2 = c.who.die ∧
    bits v 16 8 = (if draft then 32 else 80) ∧ bits v 24 4 = (if draft then 6 else 4) ∧ bits v 28 4 = (if draft then 2 else 0) ∧
    bits v 32 32 = 0) ∧
  (∀ (s : State) (c : Ctx) (cl : Cluster),
    s.readReg c cl 0x001 = c.coreCtl ∧ s.readReg c cl 0x002 = toWord c.coreTime ∧ s.readReg c cl 0x003 = toWord (s.die c.who.die).time ∧
    s.readReg c cl 0x004 = c.ctr.freeze ∧ s.readReg c cl 0x005 = c.ctr.late ∧ s.readReg c cl 0x006 = c.cause ∧
    s.readReg c cl 0x00C = (c.cl cl).lc0.count.setWidth 64 ∧ s.readReg c cl 0x00D = (c.cl cl).lc1.count.setWidth 64 ∧
    (∀ of : Cluster, s.readReg c cl (BitVec.ofNat 12 (0x10 + clIndex of)) = c.epc.get of)) ∧
  (∀ (s : State) (k : Nat) c v, s.ctx? k = some c → ∃ d, (s.writeReg k 0x001 v).ctx? k = some d ∧
    bits d.coreCtl 0 2 = (if bits v 0 2 = 3 then bits c.coreCtl 0 2 else bits v 0 2) ∧
    bits d.coreCtl 2 2 = (if bits v 2 2 < 2 then bits v 2 2 else bits c.coreCtl 2 2) ∧ bits d.coreCtl 4 2 = bits v 4 2 ∧ bits d.coreCtl 6 58 = 0) ∧
  (∀ (s : State) (k : Nat) c v, s.ctx? k = some c → ∃ d, (s.writeReg k 0x006 v).ctx? k = some d ∧
    bits d.cause 0 12 = bits v 0 12 ∧ bits d.cause 12 4 = 0 ∧ bits d.cause 16 8 = bits v 16 8 ∧ bits d.cause 24 40 = 0) ∧
  (∀ (s : State) (k : Nat) c (cl : Cluster) v, s.ctx? k = some c → ∃ d, (s.writeReg k (BitVec.ofNat 12 (0x10 + clIndex cl)) v).ctx? k = some d ∧
    bits (d.epc.get cl) 0 3 = 0 ∧ bits (d.epc.get cl) 3 61 = bits v 3 61 ∧ ∀ other, other ≠ cl → d.epc.get other = c.epc.get other)

/-- C's scheduler words (R346 to R351). -/
def Obligations.SchedulerWords : Prop :=
  ∀ i s c d, schedulerWord s c i = some d → Issues s c i d.h d.u → Clear c d.u → exec i s = .next (retired s (d.after (issuing s c d.h d.u)))

/-- C's package words (R369, R376, R377, R402 to R412). What log 40 says of mailbox, deskew and horizon words is the model's choice. -/
def Obligations.PackageWords : Prop :=
  ∀ i s c d, packageWord s c i = some d → Issues s c i d.h d.u → Clear c d.u → exec i s = .next (retired s (d.after (issuing s c d.h d.u)))

/-- `eret` in a handler returns from the exception (R98); what that leaves is the statement HandlerEnd. -/
def Obligations.HandlerReturn : Prop :=
  ∀ h s c, Issues s c (.eret h) h { priv := true } → c.inHandler = true →
    exec (.eret h) s =
      .next (((issuing s c h { priv := true }).eret s.focus.1).modCtx s.focus.1 fun c => { c with verdict := .trapped })

/-- The faults at issue of the words themselves take a trap and have no other effect, but for the core port that the word has used. Which of them wait for
an outstanding acquire (R237) is the choice of log 56: those that lie in what the word reaches. Where ECC_UE (R397) stands among the checks is the choice
of log 26. -/
def Obligations.IssueTraps : Prop :=
  ∀ i s c d, (trapWord s c i = some d ∨ unitFault s c i = some d) → Issues s c i d.h d.u → (d.late = true → c.acquiring = false) →
    exec i s = .next ((d.on s).takeTrap s.focus.1 (.issue d.cause s.focus.2))

/-- R19, R40: every legal word whose guard is false issues and does nothing else; with S = 1 it still counts for sync (R18). -/
def Obligations.FalseGuards : Prop :=
  ∀ i (s : State) c h, headerOf i = some h → s.ctx? s.focus.1 = some c → wellFormed s.focus.2 i = true →
    (c.pendingPred s.focus.2 h.pred.toNat = false ∨ (c.wmode ≠ 1 ∧ c.wmode ≠ 2)) →
    (c.cl s.focus.2).pred h.pred.toNat = h.neg →
    exec i s = .next (s.setCtx s.focus.1
      (if h.sync = true ∧ c.inHandler = false ∧ c.bundle = false then c.wait s.focus.2 .swait 0 false
       else (c.issueOn s.focus.2 {} (c.pendingPred s.focus.2 h.pred.toNat)).commit s.focus.2 none))

/-- The first checks of R63 for every slot word: an illegal word, and a pending guard under WMODE 1 and 2. -/
def Obligations.IllegalAndPending : Prop :=
  ∀ i (s : State) c h, headerOf i = some h → s.ctx? s.focus.1 = some c →
    (wellFormed s.focus.2 i = false → exec i s = .next (s.takeTrap s.focus.1 (.issue causeIllegalOp s.focus.2))) ∧
    (wellFormed s.focus.2 i = true → c.pendingPred s.focus.2 h.pred.toNat = true →
      (c.wmode = 1 → exec i s = .next (s.takeTrap s.focus.1 (.issue causePendingRead s.focus.2))) ∧
      (c.wmode = 2 → exec i s = .next (s.setCtx s.focus.1 (c.wait s.focus.2 .istall 0 false))))

/-- R17, R18, R21, R25, R404, R409: a word that waits changes only the run state of its cluster. That the waits come before the privilege check (log 27), which queue
QBLK names when several hold the word back (log 29), and that a fork waits for C's own accesses (log 52) are the model's choices. -/
def Obligations.Waits : Prop :=
  (∀ i (s : State) c h u, usesOf s c i = some (h, u) → s.ctx? s.focus.1 = some c → wellFormed s.focus.2 i = true →
    (c.cl s.focus.2).pred h.pred.toNat ≠ h.neg →
    (c.pendingPred s.focus.2 h.pred.toNat = false ∨ (c.wmode ≠ 1 ∧ c.wmode ≠ 2)) →
    let stall := c.wmode = 2 ∧ c.readsPending s.focus.2 u = true
    (stall → exec i s = .next (s.setCtx s.focus.1 (c.wait s.focus.2 .istall 0 false))) ∧
    (∀ q dir, ¬stall → c.blocked s.focus.2 u = some (q, dir) → exec i s = .next (s.setCtx s.focus.1 (c.wait s.focus.2 .qwait q dir))) ∧
    (¬stall → c.blocked s.focus.2 u = none → h.sync = true → c.inHandler = false → c.bundle = false →
      exec i s = .next (s.setCtx s.focus.1 (c.wait s.focus.2 .swait 0 false)))) ∧
  (∀ h f (s : State) c, Issues s c (.fork h f) h {} → c.inHandler = false →
    ((∃ cl, cl ∈ forkNames f ∧ (c.cl cl).run ≠ .idle) ∨ c.time < (c.cl .c).lastAccess) →
    exec (.fork h f) s = .next (s.setCtx s.focus.1 (c.wait s.focus.2 .swait 0 false))) ∧
  (∀ h f (s : State) c, s.ctx? s.focus.1 = some c → bits (ibB c f.sb) 2 62 = 0 → (s.core c.core).box (ibB c f.sb).toNat = [] →
    ∃ u, usesOf s c (.mbxRecv h f) = some (h, u) ∧ u.room = some (BitVec.ofNat 4 (12 + (ibB c f.sb).toNat), false)) ∧
  (∀ h f (s : State) c, s.ctx? s.focus.1 = some c → 4096 ≤ s.pq.length →
    ∃ u, usesOf s c (.propPush h f) = some (h, u) ∧ u.room = some (3, true))

/-- R63, R165: the checks between the guard and the instruction's own description, in their order. -/
def Obligations.IssueChecks : Prop :=
  ∀ i (s : State) c h u, usesOf s c i = some (h, u) → s.ctx? s.focus.1 = some c → wellFormed s.focus.2 i = true →
    (c.cl s.focus.2).pred h.pred.toNat ≠ h.neg →
    (c.pendingPred s.focus.2 h.pred.toNat = false ∨ (c.wmode ≠ 1 ∧ c.wmode ≠ 2)) →
    (c.wmode = 2 → c.readsPending s.focus.2 u = false) → c.blocked s.focus.2 u = none →
    (h.sync = false ∨ c.inHandler = true ∨ c.bundle = true) →
    let traps := fun cause => exec i s = .next (s.takeTrap s.focus.1 (.issue cause s.focus.2))
    (u.priv = true → c.inHandler = false → c.who.sys = false → traps causePrivilege) ∧
    ((u.priv = false ∨ c.inHandler = true ∨ c.who.sys = true) →
      (u.dieIllegal = true → traps causeIllegalOp) ∧
      (u.dieIllegal = false → c.wmode = 1 → c.readsPending s.focus.2 u = true → traps causePendingRead) ∧
      (u.dieIllegal = false → (c.wmode = 1 → c.readsPending s.focus.2 u = false) → c.portClash s.focus.2 u = true →
        traps causeWritePort))

/-- R237, R306: a word that reaches memory gates its own cycle while an acquire is outstanding, M's reads of scratchpad included. That a word which would
trap on what it reaches is gated too is the choice of log 56. A release (R305) and a digest word (R351, R458) gate their own cycle until what they wait for
has performed, then take a deferred fault that they cover (R232); `sem.sig` takes that of a refused one (R350). -/
def Obligations.AcquireGates : Prop :=
  (∀ i s c d, (memoryWord s c i = some d ∨ exchangeWord s c i = some d ∨ barrierWord s c i = some d ∨ atomicWord s c i = some d ∨
      matrixWord s c i = some d ∨ packageWord s c i = some d) → Issues s c i d.h d.u → d.u.mem = true → c.acquiring = true →
    exec i s = .next (s.setCtx s.focus.1 { c with verdict := .gated })) ∧
  (∀ i s c d, (trapWord s c i = some d ∨ unitFault s c i = some d) → Issues s c i d.h d.u → d.late = true → c.acquiring = true →
    exec i s = .next (s.setCtx s.focus.1 { c with verdict := .gated })) ∧
  (∀ i s c d, gateOf s c i = some d → Issues s c i d.h d.u →
    (s.gateMet s.focus.1 c d.gate = false → exec i s = .next (s.setCtx s.focus.1 { c.startFlush d.gate with verdict := .gated })) ∧
    (s.gateMet s.focus.1 c d.gate = true → ∀ j c', c.takeDeferred d.gate.covers = some (j, c') →
      exec i s = .next ((s.setCtx s.focus.1 c').takeTrap s.focus.1 j))) ∧
  (∀ h f s c, Issues s c (.rcmp h f) h { sa := some (aFile s.focus.2 .ia, f.sa), d1 := f.d1, d2 := f.d2, lat := 1024 * (f.fn.toNat + 1) } →
    unitFault s c (.rcmp h f) = none → gateOpen s c (stepGate s c) = true → s.fab.waiting.isSome = true →
    exec (.rcmp h f) s = .next (s.setCtx s.focus.1 { c with verdict := .gated })) ∧
  (∀ h f s c, Issues s c (.lnkRate h f) h { sa := some (4, f.sa), sb := some (5, f.sb), priv := true } →
    unitFault s c (.lnkRate h f) = none → (s.link (bits (ibA c f.sa) 0 2)).want ≠ [] →
    exec (.lnkRate h f) s = .next (s.setCtx s.focus.1 { c with verdict := .gated })) ∧
  (∀ h f s c j, Issues s c (.semSig h f) h { sa := some (4, f.sa), sb := some (5, f.sb) } → unitFault s c (.semSig h f) = none →
    gateOpen s c (s.releaseGate 2) = true → c.semFault = some j →
    exec (.semSig h f) s = .next ((s.setCtx s.focus.1 { c with semFault := none }).takeTrap s.focus.1 j))

/-- The steps of an access at its home and of its answer, with the tables of barriers (R273, R274), of atomics (R318, R319) and of windows (R325). How unreadable requests
are held back (log 14), what traffic to a displaced region does (log 20), what stands for the host and for other packages (log 10), where messages go (log
40), the ECC_UE that LANDING_DATA_ARRIVAL brings (log 26), the paths between dies (log 49), what a buffer serves and in which order it drains (log 50) and
what a view shows of a bad source (log 60) are the model's choices. -/
def Obligations.AccessEvents : Prop :=
  ∀ e s t, accessEvent s e = some t → exec e s = .next t

/-- The steps of a context at its boundary, and of its flush. What markers and order on the fabric are (logs 13, 51), what an aborted flush reports (log 15),
the queue entries of a faulted landing (log 17), when an invalid line is counted (log 28), the deadlock count (log 30), what a release passes on (log
50) and the order of what is due at one boundary (log 57) are the model's choices. -/
def Obligations.BoundaryEvents : Prop :=
  ∀ e s t, boundaryEvent s e = some t → exec e s = .next t

/-- The steps of a mover command, and of the fences and credits of every engine. What a command finds in a displaced region (log 20), the digest of its
writes (log 44), the order of its blocks (log 49) and how credits combine (log 63) are the model's choices. -/
def Obligations.CommandEvents : Prop :=
  ∀ e s t, commandEvent s e = some t → exec e s = .next t

/-- The steps in the life of a context and of a gang. The records of a save (log 18), the turn of a halted context (log 20), the number of a new one (log 21),
what a resumption reads back (log 31), a yield in a gang (log 33), the scheduling step (log 34), the loop levels of a task (log 35) and when regions are freed (log 54) are the model's choices. -/
def Obligations.ContextEvents : Prop :=
  ∀ e s t, contextEvent s e = some t → exec e s = .next t

/-- The steps of a launch, of a twin run and of containment. The parameter block and the graphs in scheduler memory (log 36), what the levels of containment
end (log 37) and a list read that fails (log 53) are the model's choices. -/
def Obligations.LaunchEvents : Prop :=
  ∀ e s t, launchEvent s e = some t → exec e s = .next t

/-- The steps of the KV page directory. Open bytes of a ring record (log 22), the semaphores of the directory and the injection of a rebuild (log 38) and the
other points of log 39 are the model's choices. -/
def Obligations.DirectoryEvents : Prop :=
  ∀ e s t, directoryEvent s e = some t → exec e s = .next t

/-- The steps of the lauter and COLL engines, the arithmetic of a pick in exact numbers (R420, R422 to R424), and what a commit leaves (R425 to R427). The packets
of a collective (log 23), its digest and credit (logs 44, 63), which command a rank is (log 24) and what a parked command keeps (log 46) are the model's choices. -/
def Obligations.EngineEvents : Prop :=
  (∀ e s t, engineEvent s e = some t → exec e s = .next t) ∧
  (∀ x y : FVal, isFin x = true → isFin y = true →
    (x.less y = true ↔ ratOf x < ratOf y) ∧ isFin (x.mul y) = true ∧ ratOf (x.mul y) = ratOf x * ratOf y) ∧
  (∀ (p : Pick) rows i,
    let x := recTok p.desc i
    let r := p.row rows i
    isFin (p.prob i x) = true → isFin r.1 = true → isFin (r.2.getD x zeroF) = true →
    (p.accepts rows i = true ↔ (p.uniform i 0 : ℚ) * ratOf (p.prob i x) * ratOf r.1 < ratOf (r.2.getD x zeroF) * 2 ^ 24)) ∧
  (∀ (p : Pick) rows n i,
    let r := p.tests rows n i
    r.1 ≤ n ∧ (∀ j, j < r.1 → p.accepts rows (i + j) = true) ∧ (r.2.1 = true → r.1 < n ∧ p.accepts rows (i + r.1) = false) ∧
    (r.2.1 = false → r.1 = n) ∧ r.2.2 = ((List.range (r.1 + if r.2.1 = true then 1 else 0)).filter fun j => p.isQz (i + j)).length) ∧
  (∀ (w : List FVal) u, (∃ j, drawable w u j) → drawable w u (scan w u) ∧ ∀ m, m < scan w u → ¬drawable w u m) ∧
  (∀ (l : List FVal) k, l.length = 2 ^ (k + 1) → k < 18 → treeSum l = add32 (treeSum (l.take (2 ^ k))) (treeSum (l.drop (2 ^ k)))) ∧
  (∀ (p : Pick) rows,
    let r := p.tests rows (recK p.desc) 0
    let n := (p.row rows r.1).2
    let z := (p.row rows r.1).1
    let d := p.draw rows
    d.a = r.1 ∧ d.rejected = r.2.1 ∧ d.qz = r.2.2 ∧
    (r.2.1 = false → d.token = scan n (p.uniform r.1 2) ∧ d.flags = 3) ∧
    (r.2.1 = true → zeroF.less ((p.residual r.1 z n).foldl add32 zeroF) = true →
      d.token = scan (p.residual r.1 z n) (p.uniform r.1 1) ∧ d.flags = 5) ∧
    (r.2.1 = true → zeroF.less ((p.residual r.1 z n).foldl add32 zeroF) = false → d.token = scan n (p.uniform r.1 1) ∧ d.flags = 9)) ∧
  (∀ (s : State) (cmd : Cmd) (p : Pick) (x : Drawn),
    let slot := bits cmd.words.q2 0 12
    let rej := if x.rejected = true then x.a else 255
    (pickFits s slot p.desc → s.commitPick cmd p x =
      (committed s cmd p x, resultOf ((committed s cmd p x).seq slot) 0 x.a x.flags x.token x.qz rej)) ∧
    (¬pickFits s slot p.desc → s.commitPick cmd p x = (s, resultOf (s.seq slot) 2 0 0 0 x.qz rej)))

/-- The register writes that have an effect of their own. That a write may be taken out of its cycle (log 47), how long one that takes time holds C (log
48), and what ESC offers of a reserved code (log 18), are the model's choices. -/
def Obligations.RegisterEvents : Prop :=
  ∀ e s t, registerEvent s e = some t → exec e s = .next t

/-- The steps of the links. The points of log 41, and at a deskew epoch the greatest of the three counters (log 60), are the model's choices. -/
def Obligations.LinkEvents : Prop :=
  ∀ e s t, linkEvent s e = some t → exec e s = .next t

/-- The steps of a die reset, of memory errors and of the retirement of cache slices. What a reset ends (log 42), where an error strikes (log 26), what a
rejoining die boots (log 59) and what is lost with its LLC (log 62) are the model's choices. -/
def Obligations.ResetEvents : Prop :=
  ∀ e s t, resetEvent s e = some t → exec e s = .next t

/-- The records that reach the host and the error log, and a package power-up. Open codes of records (log 25), the end of the log (log 43), the host's windows
(log 45) and the boot (log 59) are the model's choices. -/
def Obligations.ProcessorEvents : Prop :=
  ∀ e s t, processorEvent s e = some t → exec e s = .next t

/-- The commands of the management processor. The cryptography that the spec only names (log 8), open codes of records (log 25), graphs in scheduler memory (log
36), how HSEQ reaches it (log 45), one FW_SWITCH for the MP and all dies with the fallback kept beside the journal (log 59)
and what a cleared key leaves (log 61) are the model's choices. -/
def Obligations.AdminEvents : Prop :=
  ∀ e s t, adminEvent s e = some t → exec e s = .next t

/-- The steps of the fabric. Host memory and other packages as state (log 10), markers and order (log 13), the counts of requests (log 23) and the
requests that wait at this package (log 58) are the model's choices. -/
def Obligations.FabricEvents : Prop :=
  ∀ e s t, fabricEvent s e = some t → exec e s = .next t

/-- An event whose conditions do not hold leaves the state as it was. This is the choice of log 2: the agenda may name any event. -/
def Obligations.IdleEvents : Prop :=
  ∀ e s, headerOf e = none → accessEvent s e = none → boundaryEvent s e = none → commandEvent s e = none → contextEvent s e = none →
    launchEvent s e = none → directoryEvent s e = none → engineEvent s e = none → registerEvent s e = none → linkEvent s e = none →
    resetEvent s e = none → processorEvent s e = none → adminEvent s e = none → fabricEvent s e = none → exec e s = .next s

/-- The frame of the words of C and the sequencers that reach no memory: their results only land later (R24), and nothing else changes but what directs
the cluster, or the clusters a `fork` names. -/
def Obligations.ScalarFrame : Prop :=
  ∀ i s c d es t, quietWord s c i = some (d, es) → Issues s c i d.h d.u → (c.uninitElem es = none ∨ c.umode ≠ 0) → exec i s = .next t →
    ∃ c', Quiet s t c c' d.u (packElems i) (reached s i) ∧ c'.array = c.array ∧ OnlyIssued (reached s i) i c c' ∧ (steers i = false → LoopsKept s.focus.2 c c')

/-- The frame of V's lane words and of M's words: the MRF is written only when their results land, in the elements of their destination. -/
def Obligations.LaneFrame : Prop :=
  (∀ i s c w t, laneWord s c i = some w → Issues s c i w.h w.u → (c.uninitElem w.u.elems = none ∨ c.umode ≠ 0) → exec i s = .next t →
    ∃ c', Quiet s t c c' w.u w.elems [s.focus.2] ∧ c'.array = c.array ∧ LoopsKept s.focus.2 c c') ∧
  (∀ i s c d t, matrixWord s c i = some d → Issues s c i d.h d.u → Clear c d.u → exec i s = .next t →
    ∃ c', Quiet s t c c' d.u (drained i) [s.focus.2] ∧ LoopsKept s.focus.2 c c')

/-- The frame at issue of the words that send: no byte of memory and no register of any context changes, since stores perform later. Of the units' registers only
REPL_CTL (R459), the slot of `hzn.wr` (R406), a semaphore (R350), a mailbox (R409), the proposal queue (R404, R405) and a link's retrain (R377) may change. -/
def Obligations.OutgoingFrame : Prop :=
  ∀ i s c d t, outgoingWord s c i = some d → Issues s c i d.h d.u → Clear c d.u → exec i s = .next t →
    BytesKept s t ∧ UnitsKept s t c i ∧ t.fab.replCtl = replAfter s c i ∧
    ∀ k x, s.ctx? k = some x → ∃ y, t.ctx? k = some y ∧ y.array = x.array ∧
      RegistersKept (if k = s.focus.1 then [s.focus.2] else []) x y ∧ (k = s.focus.1 → LoopsKept s.focus.2 x y)

/-- The frame of `ctxsv`, which stores to its area, its chunks and the spill area, and of `ctxld`. -/
def Obligations.AreaFrame : Prop :=
  (∀ h f s c t, (areaWord s c (.ctxsv h f)).isSome = true → Issues s c (.ctxsv h f) h { sa := some (4, f.sa), sb := some (5, f.sb), priv := true } →
    exec (.ctxsv h f) s = .next t →
    (∀ a, t.hbm.read a = s.hbm.read a ∧ t.hostMem.read a = s.hostMem.read a ∧ t.peerMem.read a = s.peerMem.read a) ∧
    (∃ c', t.ctx? s.focus.1 = some c' ∧ RegistersKept [s.focus.2] c c' ∧ c'.array = c.array) ∧
    (∀ k, k ≠ s.focus.1 → t.ctx? k = s.ctx? k) ∧
    (∀ k o, outside (areaPlaces s c (ibA c f.sa).toNat (ibB c f.sb).toNat) k o → (t.core k).get o = (s.core k).get o)) ∧
  (∀ h f s c t, (areaWord s c (.ctxld h f)).isSome = true → Issues s c (.ctxld h f) h { sa := some (4, f.sa), sb := some (5, f.sb), priv := true } →
    exec (.ctxld h f) s = .next t →
    (∀ a, t.hbm.read a = s.hbm.read a ∧ t.hostMem.read a = s.hostMem.read a ∧ t.peerMem.read a = s.peerMem.read a) ∧
    (∀ k, k ≠ s.focus.1 → t.ctx? k = s.ctx? k) ∧
    (∀ k o, (k ≠ c.core ∨ (ibB c f.sb).toNat < 8 ∨ outside ((range 0 4).map fun h => (c.core, (c.region h).1, (c.region h).2)) k o) →
      (t.core k).get o = (s.core k).get o))

/-- R148, R152, R239, R272: what a staged store or clearing does to each byte of a scratchpad. -/
def Obligations.ScratchpadStores : Prop :=
  (∀ (m : CoreState) o l a, (m.perform (.store o l)).get a =
    if o ≤ a ∧ a < o + l.length ∧ m.tags.has (a / 16) = false then l.getD (a - o) 0 else m.get a) ∧
  (∀ (m : CoreState) line n a, (m.perform (.clear line n)).get a = if line ≤ a / 64 ∧ a / 64 < line + n then 0 else m.get a) ∧
  (∀ (m : CoreState) crn v, m.perform (.reg crn v) = m) ∧ (∀ (m : CoreState) n o b, m.perform (.message n o b) = m)

/-- R152: at the end of a cycle its stores perform, in issue order; a cycle that a gate froze has no effect and no time (R234, R237). -/
def Obligations.CycleEnds : Prop :=
  ∀ (s : State) (k : Nat) c, s.ctx? k = some c →
    (c.verdict ≠ .trapped → c.verdict ≠ .gated → (c.trace = false ∨ c.inHandler = true) → c.yields = false →
      (∀ crn v, Staged.reg crn v ∉ c.staged) →
      (s.endCycle k).core c.core =
        c.netWrites.foldl (fun m e => m.putFree e.2.1 e.2.2) (c.staged.foldl CoreState.perform (s.core c.core)) ∧
      (∀ j, j ≠ c.core → (s.endCycle k).core j = s.core j) ∧
      (∃ d, (s.endCycle k).ctx? k = some d ∧ d.time = c.time + 1 ∧ d.staged = [] ∧ d.cls = c.cls ∧ d.landings = c.landings ∧
        d.mrf = c.mrf ∧ d.array = c.array) ∧
      s.endCycle k = { s with ctxs := (s.endCycle k).ctxs, cores := (s.endCycle k).cores }) ∧
    (c.verdict = .gated →
      (∃ d, (s.endCycle k).ctx? k = some d ∧ d.time = c.time ∧ d.staged = [] ∧ d.cls = c.cls ∧ d.landings = c.landings ∧
        d.mrf = c.mrf ∧ d.array = c.array) ∧
      s.endCycle k = { s with ctxs := (s.endCycle k).ctxs })

/-- A store at its home (R227) writes its bytes where R294 puts them, but for tagged granules (R272), and no other byte; where R460 refuses it, it
writes none. -/
def Obligations.HomeStores : Prop :=
  ∀ (s : State) (id : Nat) p c b, s.packet? id = some p → s.ctx? p.ctx = some c → p.act = .store b → s.enabled id p = true →
    ((p.space = .host ∨ p.space = .peer) → s.fab.refusing = true → s.replicated c.who.gid = true →
      ∃ t, exec (.homeAccessApply id) s = .next t ∧ ∀ h, rawByte t h = rawByte s h) ∧
    ((p.space = .host ∨ p.space = .peer → s.fab.refusing = false ∨ s.replicated c.who.gid = false) → s.aborted c p = false →
      ∀ l, s.homes c p.space true p.addr b.length = .ok l →
      ∃ t, exec (.homeAccessApply id) s = .next t ∧
        (∀ h, h ∉ l → (∀ n va, h = .peer n va → va < 2 ^ 48) → rawByte t h = rawByte s h) ∧
        (∀ (n : Nat) h x, l[n]? = some h → b[n]? = some x → (∀ (m : Nat), n < m → l[m]? ≠ some h) →
          rawByte t h = if s.taggedAt h = true then rawByte s h else x))

/-- R166: taking an exception. CAUSE has the code, LND, SW, CL and TAG of R94. DIGEST_MISMATCH goes to the task level at once (R460). That an entry is
reported under an action code of its own is the choice of log 37. -/
def Obligations.TrapEntry : Prop :=
  (∀ (s : State) (k : Nat) c i, s.ctx? k = some c → c.inHandler = false → i.cause = causeDigestMismatch → i.sw = false →
    ∃ d, (s.takeTrap k i).ctx? k = some d ∧ d.inHandler = false ∧ d.status = .stopped ∧ d.verdict = .trapped ∧
      bits d.cause 0 8 = causeDigestMismatch.toNat ∧ (∀ cl, d.epc.get cl = (c.cl cl).pc) ∧ d.cls = c.cls ∧ d.mrf = c.mrf ∧ d.array = c.array ∧
      d.queues = c.queues ∧ d.landings = c.landings ∧ (∀ j, j ≠ k → (s.takeTrap k i).ctx? j = s.ctx? j) ∧ BytesKept s (s.takeTrap k i) ∧
      ∃ o, (s.takeTrap k i).offers = s.offers ++ [o] ∧ o.ctx = k ∧ o.cause = i.cause) ∧
  ∀ (s : State) (k : Nat) c i, s.ctx? k = some c → c.inHandler = false → c.ignores i = false → (i.cause = causeDigestMismatch → i.sw = true) →
    let b := (s.die c.who.die).banks.getD ((s.die c.who.die).pcore c.who.lcore) .zero
    ∃ d, (s.takeTrap k i).ctx? k = some d ∧ d.inHandler = true ∧ d.priv = true ∧ d.verdict = .trapped ∧
      bits d.cause 0 8 = i.cause.toNat ∧ bits d.cause 8 1 = (if i.lnd then 1 else 0) ∧ bits d.cause 9 1 = (if i.sw then 1 else 0) ∧
      bits d.cause 10 2 = clIndex i.cl ∧ bits d.cause 16 8 = i.tag.toNat ∧
      (∀ cl, d.epc.get cl = (c.cl cl).pc) ∧ (d.cl .c).pc = 0xE000 ∧ (d.cl .c).run = .run ∧
      (d.cl .c).files = b.files ∧ (d.cl .c).preds = b.preds ∧ (d.cl .c).lc0 = b.lc0 ∧ (d.cl .c).lc1 = b.lc1 ∧ (d.cl .c).ret = b.ret ∧
      (∀ cl, cl ≠ .c → d.cl cl = c.cl cl) ∧ d.susp = some ⟨c.cl .c, c.time, c.landings⟩ ∧ d.landings = [] ∧
      d.mrf = c.mrf ∧ d.array = c.array ∧ d.queues = c.queues ∧ d.coreCtl = c.coreCtl ∧ d.ctr = c.ctr ∧
      (∀ j, j ≠ k → (s.takeTrap k i).ctx? j = s.ctx? j) ∧ BytesKept s (s.takeTrap k i) ∧
      ((s.takeTrap k i).core c.core).faddr = (if i.lnd then i.faddr else (s.core c.core).faddr) ∧
      ((s.takeTrap k i).core c.core).finfo = (if i.lnd then i.finfo else (s.core c.core).finfo) ∧
      ∃ r, (s.takeTrap k i).reports = s.reports ++ [r] ∧ r.cause = i.cause ∧ r.die = c.who.die

/-- R166, step 2: a non-fatal cause that a level ignores, as if the handler had run `eret`; it is logged (R357). -/
def Obligations.IgnoredCauses : Prop :=
  ∀ (s : State) (k : Nat) c i, s.ctx? k = some c → c.inHandler = false → c.ignores i = true →
    ∃ d, (s.takeTrap k i).ctx? k = some d ∧ d.cls = c.cls ∧ d.cause = 0 ∧ (∀ cl, d.epc.get cl = (c.cl cl).pc) ∧ d.susp = none ∧
      d.time = c.time ∧ d.landings = c.landings ∧ d.mrf = c.mrf ∧ d.array = c.array ∧ d.queues = c.queues ∧
      (∀ j, j ≠ k → (s.takeTrap k i).ctx? j = s.ctx? j) ∧ BytesKept s (s.takeTrap k i) ∧
      ∃ r, (s.takeTrap k i).reports = s.reports ++ [r] ∧ r.cause = i.cause ∧ r.die = c.who.die

/-- R167: a fault inside the handler. What is reported of a reserved code in CAUSE (R8) is the choice of log 18. -/
def Obligations.HandlerFaults : Prop :=
  ∀ (s : State) (k : Nat) c i, s.ctx? k = some c → c.inHandler = true →
    (∃ d, (s.takeTrap k i).ctx? k = some d ∧ d.inHandler = false ∧ d.status = .stopped ∧ d.cause = c.cause) ∧
    (∃ o, (s.takeTrap k i).offers = s.offers ++ [o] ∧ o.ctx = k ∧ o.cause = i.cause ∧ o.run = c.who.run ∧ o.launch = c.who.launch) ∧
    (∃ q r, (s.takeTrap k i).reports = s.reports ++ [q, r] ∧ q.cause = BitVec.ofNat 8 (if bits c.cause 0 8 ≤ 0x18 then bits c.cause 0 8 else 0x15) ∧ r.cause = i.cause) ∧
    (∀ j, j ≠ k → (s.takeTrap k i).ctx? j = s.ctx? j) ∧ BytesKept s (s.takeTrap k i)

/-- R98: the return from an exception, for a handler none of whose own deliveries is under way (those are log 12's). -/
def Obligations.HandlerEnd : Prop :=
  ∀ (s : State) (k : Nat) c u, s.ctx? k = some c → c.susp = some u → c.landings = [] →
    ∃ d, (s.eret k).ctx? k = some d ∧ (∀ cl, (d.cl cl).pc = c.epc.get cl) ∧ d.cause = 0 ∧ d.inHandler = false ∧ d.priv = c.who.sys ∧
      d.cl .c = { u.c with pc := c.epc.get .c } ∧ (∀ cl, cl ≠ .c → d.cl cl = { c.cl cl with pc := c.epc.get cl }) ∧
      d.time = u.time ∧ d.landings = u.landings ∧ d.async = c.async ∧ d.traps = c.traps ∧ d.mrf = c.mrf ∧ d.array = c.array ∧
      d.queues = c.queues ∧ (∀ j, j ≠ k → (s.eret k).ctx? j = s.ctx? j) ∧
      s.eret k = { s with ctxs := (s.eret k).ctxs, dies := (s.eret k).dies } ∧
      ((s.eret k).die c.who.die).banks.getD ((s.die c.who.die).pcore c.who.lcore) .zero = (c.cl .c).bank
end

