-- ==== Sys2Proof/Laws/State.lean ====
section
/-! SUPPORT. One lemma for each field of the state and of a context under each of their updates. -/

namespace Sys2Proof.Machine

/-! ### `setCtx` -/

@[simp] theorem State.setCtx_agenda (s : State) (k : Nat) (c : Ctx) : (s.setCtx k c).agenda = s.agenda := rfl
@[simp] theorem State.setCtx_slots (s : State) (k : Nat) (c : Ctx) : (s.setCtx k c).slots = s.slots := rfl
@[simp] theorem State.setCtx_focus (s : State) (k : Nat) (c : Ctx) : (s.setCtx k c).focus = s.focus := rfl
@[simp] theorem State.setCtx_serial (s : State) (k : Nat) (c : Ctx) : (s.setCtx k c).serial = s.serial := rfl
@[simp] theorem State.setCtx_cores (s : State) (k : Nat) (c : Ctx) : (s.setCtx k c).cores = s.cores := rfl
@[simp] theorem State.setCtx_dies (s : State) (k : Nat) (c : Ctx) : (s.setCtx k c).dies = s.dies := rfl
@[simp] theorem State.setCtx_net (s : State) (k : Nat) (c : Ctx) : (s.setCtx k c).net = s.net := rfl
@[simp] theorem State.setCtx_cmds (s : State) (k : Nat) (c : Ctx) : (s.setCtx k c).cmds = s.cmds := rfl
@[simp] theorem State.setCtx_hbm (s : State) (k : Nat) (c : Ctx) : (s.setCtx k c).hbm = s.hbm := rfl
@[simp] theorem State.setCtx_sealed (s : State) (k : Nat) (c : Ctx) : (s.setCtx k c).sealed = s.sealed := rfl
@[simp] theorem State.setCtx_hostMem (s : State) (k : Nat) (c : Ctx) : (s.setCtx k c).hostMem = s.hostMem := rfl
@[simp] theorem State.setCtx_peerMem (s : State) (k : Nat) (c : Ctx) : (s.setCtx k c).peerMem = s.peerMem := rfl
@[simp] theorem State.setCtx_poison (s : State) (k : Nat) (c : Ctx) : (s.setCtx k c).poison = s.poison := rfl
@[simp] theorem State.setCtx_retired (s : State) (k : Nat) (c : Ctx) : (s.setCtx k c).retired = s.retired := rfl
@[simp] theorem State.setCtx_errors (s : State) (k : Nat) (c : Ctx) : (s.setCtx k c).errors = s.errors := rfl
@[simp] theorem State.setCtx_runs (s : State) (k : Nat) (c : Ctx) : (s.setCtx k c).runs = s.runs := rfl
@[simp] theorem State.setCtx_gangs (s : State) (k : Nat) (c : Ctx) : (s.setCtx k c).gangs = s.gangs := rfl
@[simp] theorem State.setCtx_launches (s : State) (k : Nat) (c : Ctx) : (s.setCtx k c).launches = s.launches := rfl
@[simp] theorem State.setCtx_childWaits (s : State) (k : Nat) (c : Ctx) : (s.setCtx k c).childWaits = s.childWaits := rfl
@[simp] theorem State.setCtx_offers (s : State) (k : Nat) (c : Ctx) : (s.setCtx k c).offers = s.offers := rfl
@[simp] theorem State.setCtx_reports (s : State) (k : Nat) (c : Ctx) : (s.setCtx k c).reports = s.reports := rfl
@[simp] theorem State.setCtx_links (s : State) (k : Nat) (c : Ctx) : (s.setCtx k c).links = s.links := rfl
@[simp] theorem State.setCtx_zone (s : State) (k : Nat) (c : Ctx) : (s.setCtx k c).zone = s.zone := rfl
@[simp] theorem State.setCtx_zoneCopy (s : State) (k : Nat) (c : Ctx) : (s.setCtx k c).zoneCopy = s.zoneCopy := rfl
@[simp] theorem State.setCtx_calib (s : State) (k : Nat) (c : Ctx) : (s.setCtx k c).calib = s.calib := rfl
@[simp] theorem State.setCtx_resetSince (s : State) (k : Nat) (c : Ctx) : (s.setCtx k c).resetSince = s.resetSince := rfl
@[simp] theorem State.setCtx_deskewing (s : State) (k : Nat) (c : Ctx) : (s.setCtx k c).deskewing = s.deskewing := rfl
@[simp] theorem State.setCtx_hostCtxs (s : State) (k : Nat) (c : Ctx) : (s.setCtx k c).hostCtxs = s.hostCtxs := rfl
@[simp] theorem State.setCtx_keys (s : State) (k : Nat) (c : Ctx) : (s.setCtx k c).keys = s.keys := rfl
@[simp] theorem State.setCtx_log (s : State) (k : Nat) (c : Ctx) : (s.setCtx k c).log = s.log := rfl
@[simp] theorem State.setCtx_logFull (s : State) (k : Nat) (c : Ctx) : (s.setCtx k c).logFull = s.logFull := rfl
@[simp] theorem State.setCtx_logLost (s : State) (k : Nat) (c : Ctx) : (s.setCtx k c).logLost = s.logLost := rfl
@[simp] theorem State.setCtx_journal (s : State) (k : Nat) (c : Ctx) : (s.setCtx k c).journal = s.journal := rfl
@[simp] theorem State.setCtx_fw (s : State) (k : Nat) (c : Ctx) : (s.setCtx k c).fw = s.fw := rfl
@[simp] theorem State.setCtx_admin (s : State) (k : Nat) (c : Ctx) : (s.setCtx k c).admin = s.admin := rfl
@[simp] theorem State.setCtx_adminSeq (s : State) (k : Nat) (c : Ctx) : (s.setCtx k c).adminSeq = s.adminSeq := rfl
@[simp] theorem State.setCtx_boots (s : State) (k : Nat) (c : Ctx) : (s.setCtx k c).boots = s.boots := rfl
@[simp] theorem State.setCtx_seqs (s : State) (k : Nat) (c : Ctx) : (s.setCtx k c).seqs = s.seqs := rfl
@[simp] theorem State.setCtx_pq (s : State) (k : Nat) (c : Ctx) : (s.setCtx k c).pq = s.pq := rfl
@[simp] theorem State.setCtx_depthTab (s : State) (k : Nat) (c : Ctx) : (s.setCtx k c).depthTab = s.depthTab := rfl
@[simp] theorem State.setCtx_qzero (s : State) (k : Nat) (c : Ctx) : (s.setCtx k c).qzero = s.qzero := rfl
@[simp] theorem State.setCtx_kvGeom (s : State) (k : Nat) (c : Ctx) : (s.setCtx k c).kvGeom = s.kvGeom := rfl
@[simp] theorem State.setCtx_kv (s : State) (k : Nat) (c : Ctx) : (s.setCtx k c).kv = s.kv := rfl
@[simp] theorem State.setCtx_rings (s : State) (k : Nat) (c : Ctx) : (s.setCtx k c).rings = s.rings := rfl
@[simp] theorem State.setCtx_kvReports (s : State) (k : Nat) (c : Ctx) : (s.setCtx k c).kvReports = s.kvReports := rfl
@[simp] theorem State.setCtx_fab (s : State) (k : Nat) (c : Ctx) : (s.setCtx k c).fab = s.fab := rfl
@[simp] theorem State.setCtx_dirty (s : State) (k : Nat) (c : Ctx) : (s.setCtx k c).dirty = s.dirty := rfl

/-! ### `setCore` -/

@[simp] theorem State.setCore_agenda (s : State) (k : Nat) (c : CoreState) : (s.setCore k c).agenda = s.agenda := rfl
@[simp] theorem State.setCore_slots (s : State) (k : Nat) (c : CoreState) : (s.setCore k c).slots = s.slots := rfl
@[simp] theorem State.setCore_focus (s : State) (k : Nat) (c : CoreState) : (s.setCore k c).focus = s.focus := rfl
@[simp] theorem State.setCore_serial (s : State) (k : Nat) (c : CoreState) : (s.setCore k c).serial = s.serial := rfl
@[simp] theorem State.setCore_ctxs (s : State) (k : Nat) (c : CoreState) : (s.setCore k c).ctxs = s.ctxs := rfl
@[simp] theorem State.setCore_dies (s : State) (k : Nat) (c : CoreState) : (s.setCore k c).dies = s.dies := rfl
@[simp] theorem State.setCore_net (s : State) (k : Nat) (c : CoreState) : (s.setCore k c).net = s.net := rfl
@[simp] theorem State.setCore_cmds (s : State) (k : Nat) (c : CoreState) : (s.setCore k c).cmds = s.cmds := rfl
@[simp] theorem State.setCore_hbm (s : State) (k : Nat) (c : CoreState) : (s.setCore k c).hbm = s.hbm := rfl
@[simp] theorem State.setCore_sealed (s : State) (k : Nat) (c : CoreState) : (s.setCore k c).sealed = s.sealed := rfl
@[simp] theorem State.setCore_hostMem (s : State) (k : Nat) (c : CoreState) : (s.setCore k c).hostMem = s.hostMem := rfl
@[simp] theorem State.setCore_peerMem (s : State) (k : Nat) (c : CoreState) : (s.setCore k c).peerMem = s.peerMem := rfl
@[simp] theorem State.setCore_poison (s : State) (k : Nat) (c : CoreState) : (s.setCore k c).poison = s.poison := rfl
@[simp] theorem State.setCore_retired (s : State) (k : Nat) (c : CoreState) : (s.setCore k c).retired = s.retired := rfl
@[simp] theorem State.setCore_errors (s : State) (k : Nat) (c : CoreState) : (s.setCore k c).errors = s.errors := rfl
@[simp] theorem State.setCore_runs (s : State) (k : Nat) (c : CoreState) : (s.setCore k c).runs = s.runs := rfl
@[simp] theorem State.setCore_gangs (s : State) (k : Nat) (c : CoreState) : (s.setCore k c).gangs = s.gangs := rfl
@[simp] theorem State.setCore_launches (s : State) (k : Nat) (c : CoreState) : (s.setCore k c).launches = s.launches := rfl
@[simp] theorem State.setCore_childWaits (s : State) (k : Nat) (c : CoreState) : (s.setCore k c).childWaits = s.childWaits := rfl
@[simp] theorem State.setCore_offers (s : State) (k : Nat) (c : CoreState) : (s.setCore k c).offers = s.offers := rfl
@[simp] theorem State.setCore_reports (s : State) (k : Nat) (c : CoreState) : (s.setCore k c).reports = s.reports := rfl
@[simp] theorem State.setCore_links (s : State) (k : Nat) (c : CoreState) : (s.setCore k c).links = s.links := rfl
@[simp] theorem State.setCore_zone (s : State) (k : Nat) (c : CoreState) : (s.setCore k c).zone = s.zone := rfl
@[simp] theorem State.setCore_zoneCopy (s : State) (k : Nat) (c : CoreState) : (s.setCore k c).zoneCopy = s.zoneCopy := rfl
@[simp] theorem State.setCore_calib (s : State) (k : Nat) (c : CoreState) : (s.setCore k c).calib = s.calib := rfl
@[simp] theorem State.setCore_resetSince (s : State) (k : Nat) (c : CoreState) : (s.setCore k c).resetSince = s.resetSince := rfl
@[simp] theorem State.setCore_deskewing (s : State) (k : Nat) (c : CoreState) : (s.setCore k c).deskewing = s.deskewing := rfl
@[simp] theorem State.setCore_hostCtxs (s : State) (k : Nat) (c : CoreState) : (s.setCore k c).hostCtxs = s.hostCtxs := rfl
@[simp] theorem State.setCore_keys (s : State) (k : Nat) (c : CoreState) : (s.setCore k c).keys = s.keys := rfl
@[simp] theorem State.setCore_log (s : State) (k : Nat) (c : CoreState) : (s.setCore k c).log = s.log := rfl
@[simp] theorem State.setCore_logFull (s : State) (k : Nat) (c : CoreState) : (s.setCore k c).logFull = s.logFull := rfl
@[simp] theorem State.setCore_logLost (s : State) (k : Nat) (c : CoreState) : (s.setCore k c).logLost = s.logLost := rfl
@[simp] theorem State.setCore_journal (s : State) (k : Nat) (c : CoreState) : (s.setCore k c).journal = s.journal := rfl
@[simp] theorem State.setCore_fw (s : State) (k : Nat) (c : CoreState) : (s.setCore k c).fw = s.fw := rfl
@[simp] theorem State.setCore_admin (s : State) (k : Nat) (c : CoreState) : (s.setCore k c).admin = s.admin := rfl
@[simp] theorem State.setCore_adminSeq (s : State) (k : Nat) (c : CoreState) : (s.setCore k c).adminSeq = s.adminSeq := rfl
@[simp] theorem State.setCore_boots (s : State) (k : Nat) (c : CoreState) : (s.setCore k c).boots = s.boots := rfl
@[simp] theorem State.setCore_seqs (s : State) (k : Nat) (c : CoreState) : (s.setCore k c).seqs = s.seqs := rfl
@[simp] theorem State.setCore_pq (s : State) (k : Nat) (c : CoreState) : (s.setCore k c).pq = s.pq := rfl
@[simp] theorem State.setCore_depthTab (s : State) (k : Nat) (c : CoreState) : (s.setCore k c).depthTab = s.depthTab := rfl
@[simp] theorem State.setCore_qzero (s : State) (k : Nat) (c : CoreState) : (s.setCore k c).qzero = s.qzero := rfl
@[simp] theorem State.setCore_kvGeom (s : State) (k : Nat) (c : CoreState) : (s.setCore k c).kvGeom = s.kvGeom := rfl
@[simp] theorem State.setCore_kv (s : State) (k : Nat) (c : CoreState) : (s.setCore k c).kv = s.kv := rfl
@[simp] theorem State.setCore_rings (s : State) (k : Nat) (c : CoreState) : (s.setCore k c).rings = s.rings := rfl
@[simp] theorem State.setCore_kvReports (s : State) (k : Nat) (c : CoreState) : (s.setCore k c).kvReports = s.kvReports := rfl
@[simp] theorem State.setCore_fab (s : State) (k : Nat) (c : CoreState) : (s.setCore k c).fab = s.fab := rfl
@[simp] theorem State.setCore_dirty (s : State) (k : Nat) (c : CoreState) : (s.setCore k c).dirty = s.dirty := rfl

/-! ### `setDie` -/

@[simp] theorem State.setDie_agenda (s : State) (d : Nat) (v : Die) : (s.setDie d v).agenda = s.agenda := rfl
@[simp] theorem State.setDie_slots (s : State) (d : Nat) (v : Die) : (s.setDie d v).slots = s.slots := rfl
@[simp] theorem State.setDie_focus (s : State) (d : Nat) (v : Die) : (s.setDie d v).focus = s.focus := rfl
@[simp] theorem State.setDie_serial (s : State) (d : Nat) (v : Die) : (s.setDie d v).serial = s.serial := rfl
@[simp] theorem State.setDie_ctxs (s : State) (d : Nat) (v : Die) : (s.setDie d v).ctxs = s.ctxs := rfl
@[simp] theorem State.setDie_cores (s : State) (d : Nat) (v : Die) : (s.setDie d v).cores = s.cores := rfl
@[simp] theorem State.setDie_net (s : State) (d : Nat) (v : Die) : (s.setDie d v).net = s.net := rfl
@[simp] theorem State.setDie_cmds (s : State) (d : Nat) (v : Die) : (s.setDie d v).cmds = s.cmds := rfl
@[simp] theorem State.setDie_hbm (s : State) (d : Nat) (v : Die) : (s.setDie d v).hbm = s.hbm := rfl
@[simp] theorem State.setDie_sealed (s : State) (d : Nat) (v : Die) : (s.setDie d v).sealed = s.sealed := rfl
@[simp] theorem State.setDie_hostMem (s : State) (d : Nat) (v : Die) : (s.setDie d v).hostMem = s.hostMem := rfl
@[simp] theorem State.setDie_peerMem (s : State) (d : Nat) (v : Die) : (s.setDie d v).peerMem = s.peerMem := rfl
@[simp] theorem State.setDie_poison (s : State) (d : Nat) (v : Die) : (s.setDie d v).poison = s.poison := rfl
@[simp] theorem State.setDie_retired (s : State) (d : Nat) (v : Die) : (s.setDie d v).retired = s.retired := rfl
@[simp] theorem State.setDie_errors (s : State) (d : Nat) (v : Die) : (s.setDie d v).errors = s.errors := rfl
@[simp] theorem State.setDie_runs (s : State) (d : Nat) (v : Die) : (s.setDie d v).runs = s.runs := rfl
@[simp] theorem State.setDie_gangs (s : State) (d : Nat) (v : Die) : (s.setDie d v).gangs = s.gangs := rfl
@[simp] theorem State.setDie_launches (s : State) (d : Nat) (v : Die) : (s.setDie d v).launches = s.launches := rfl
@[simp] theorem State.setDie_childWaits (s : State) (d : Nat) (v : Die) : (s.setDie d v).childWaits = s.childWaits := rfl
@[simp] theorem State.setDie_offers (s : State) (d : Nat) (v : Die) : (s.setDie d v).offers = s.offers := rfl
@[simp] theorem State.setDie_reports (s : State) (d : Nat) (v : Die) : (s.setDie d v).reports = s.reports := rfl
@[simp] theorem State.setDie_links (s : State) (d : Nat) (v : Die) : (s.setDie d v).links = s.links := rfl
@[simp] theorem State.setDie_zone (s : State) (d : Nat) (v : Die) : (s.setDie d v).zone = s.zone := rfl
@[simp] theorem State.setDie_zoneCopy (s : State) (d : Nat) (v : Die) : (s.setDie d v).zoneCopy = s.zoneCopy := rfl
@[simp] theorem State.setDie_calib (s : State) (d : Nat) (v : Die) : (s.setDie d v).calib = s.calib := rfl
@[simp] theorem State.setDie_resetSince (s : State) (d : Nat) (v : Die) : (s.setDie d v).resetSince = s.resetSince := rfl
@[simp] theorem State.setDie_deskewing (s : State) (d : Nat) (v : Die) : (s.setDie d v).deskewing = s.deskewing := rfl
@[simp] theorem State.setDie_hostCtxs (s : State) (d : Nat) (v : Die) : (s.setDie d v).hostCtxs = s.hostCtxs := rfl
@[simp] theorem State.setDie_keys (s : State) (d : Nat) (v : Die) : (s.setDie d v).keys = s.keys := rfl
@[simp] theorem State.setDie_log (s : State) (d : Nat) (v : Die) : (s.setDie d v).log = s.log := rfl
@[simp] theorem State.setDie_logFull (s : State) (d : Nat) (v : Die) : (s.setDie d v).logFull = s.logFull := rfl
@[simp] theorem State.setDie_logLost (s : State) (d : Nat) (v : Die) : (s.setDie d v).logLost = s.logLost := rfl
@[simp] theorem State.setDie_journal (s : State) (d : Nat) (v : Die) : (s.setDie d v).journal = s.journal := rfl
@[simp] theorem State.setDie_fw (s : State) (d : Nat) (v : Die) : (s.setDie d v).fw = s.fw := rfl
@[simp] theorem State.setDie_admin (s : State) (d : Nat) (v : Die) : (s.setDie d v).admin = s.admin := rfl
@[simp] theorem State.setDie_adminSeq (s : State) (d : Nat) (v : Die) : (s.setDie d v).adminSeq = s.adminSeq := rfl
@[simp] theorem State.setDie_boots (s : State) (d : Nat) (v : Die) : (s.setDie d v).boots = s.boots := rfl
@[simp] theorem State.setDie_seqs (s : State) (d : Nat) (v : Die) : (s.setDie d v).seqs = s.seqs := rfl
@[simp] theorem State.setDie_pq (s : State) (d : Nat) (v : Die) : (s.setDie d v).pq = s.pq := rfl
@[simp] theorem State.setDie_depthTab (s : State) (d : Nat) (v : Die) : (s.setDie d v).depthTab = s.depthTab := rfl
@[simp] theorem State.setDie_qzero (s : State) (d : Nat) (v : Die) : (s.setDie d v).qzero = s.qzero := rfl
@[simp] theorem State.setDie_kvGeom (s : State) (d : Nat) (v : Die) : (s.setDie d v).kvGeom = s.kvGeom := rfl
@[simp] theorem State.setDie_kv (s : State) (d : Nat) (v : Die) : (s.setDie d v).kv = s.kv := rfl
@[simp] theorem State.setDie_rings (s : State) (d : Nat) (v : Die) : (s.setDie d v).rings = s.rings := rfl
@[simp] theorem State.setDie_kvReports (s : State) (d : Nat) (v : Die) : (s.setDie d v).kvReports = s.kvReports := rfl
@[simp] theorem State.setDie_fab (s : State) (d : Nat) (v : Die) : (s.setDie d v).fab = s.fab := rfl
@[simp] theorem State.setDie_dirty (s : State) (d : Nat) (v : Die) : (s.setDie d v).dirty = s.dirty := rfl

/-! ### `bump` -/

@[simp] theorem State.bump_agenda (s : State)  : (s.bump).agenda = s.agenda := rfl
@[simp] theorem State.bump_slots (s : State)  : (s.bump).slots = s.slots := rfl
@[simp] theorem State.bump_focus (s : State)  : (s.bump).focus = s.focus := rfl
@[simp] theorem State.bump_ctxs (s : State)  : (s.bump).ctxs = s.ctxs := rfl
@[simp] theorem State.bump_cores (s : State)  : (s.bump).cores = s.cores := rfl
@[simp] theorem State.bump_dies (s : State)  : (s.bump).dies = s.dies := rfl
@[simp] theorem State.bump_net (s : State)  : (s.bump).net = s.net := rfl
@[simp] theorem State.bump_cmds (s : State)  : (s.bump).cmds = s.cmds := rfl
@[simp] theorem State.bump_hbm (s : State)  : (s.bump).hbm = s.hbm := rfl
@[simp] theorem State.bump_sealed (s : State)  : (s.bump).sealed = s.sealed := rfl
@[simp] theorem State.bump_hostMem (s : State)  : (s.bump).hostMem = s.hostMem := rfl
@[simp] theorem State.bump_peerMem (s : State)  : (s.bump).peerMem = s.peerMem := rfl
@[simp] theorem State.bump_poison (s : State)  : (s.bump).poison = s.poison := rfl
@[simp] theorem State.bump_retired (s : State)  : (s.bump).retired = s.retired := rfl
@[simp] theorem State.bump_errors (s : State)  : (s.bump).errors = s.errors := rfl
@[simp] theorem State.bump_runs (s : State)  : (s.bump).runs = s.runs := rfl
@[simp] theorem State.bump_gangs (s : State)  : (s.bump).gangs = s.gangs := rfl
@[simp] theorem State.bump_launches (s : State)  : (s.bump).launches = s.launches := rfl
@[simp] theorem State.bump_childWaits (s : State)  : (s.bump).childWaits = s.childWaits := rfl
@[simp] theorem State.bump_offers (s : State)  : (s.bump).offers = s.offers := rfl
@[simp] theorem State.bump_reports (s : State)  : (s.bump).reports = s.reports := rfl
@[simp] theorem State.bump_links (s : State)  : (s.bump).links = s.links := rfl
@[simp] theorem State.bump_zone (s : State)  : (s.bump).zone = s.zone := rfl
@[simp] theorem State.bump_zoneCopy (s : State)  : (s.bump).zoneCopy = s.zoneCopy := rfl
@[simp] theorem State.bump_calib (s : State)  : (s.bump).calib = s.calib := rfl
@[simp] theorem State.bump_resetSince (s : State)  : (s.bump).resetSince = s.resetSince := rfl
@[simp] theorem State.bump_deskewing (s : State)  : (s.bump).deskewing = s.deskewing := rfl
@[simp] theorem State.bump_hostCtxs (s : State)  : (s.bump).hostCtxs = s.hostCtxs := rfl
@[simp] theorem State.bump_keys (s : State)  : (s.bump).keys = s.keys := rfl
@[simp] theorem State.bump_log (s : State)  : (s.bump).log = s.log := rfl
@[simp] theorem State.bump_logFull (s : State)  : (s.bump).logFull = s.logFull := rfl
@[simp] theorem State.bump_logLost (s : State)  : (s.bump).logLost = s.logLost := rfl
@[simp] theorem State.bump_journal (s : State)  : (s.bump).journal = s.journal := rfl
@[simp] theorem State.bump_fw (s : State)  : (s.bump).fw = s.fw := rfl
@[simp] theorem State.bump_admin (s : State)  : (s.bump).admin = s.admin := rfl
@[simp] theorem State.bump_adminSeq (s : State)  : (s.bump).adminSeq = s.adminSeq := rfl
@[simp] theorem State.bump_boots (s : State)  : (s.bump).boots = s.boots := rfl
@[simp] theorem State.bump_seqs (s : State)  : (s.bump).seqs = s.seqs := rfl
@[simp] theorem State.bump_pq (s : State)  : (s.bump).pq = s.pq := rfl
@[simp] theorem State.bump_depthTab (s : State)  : (s.bump).depthTab = s.depthTab := rfl
@[simp] theorem State.bump_qzero (s : State)  : (s.bump).qzero = s.qzero := rfl
@[simp] theorem State.bump_kvGeom (s : State)  : (s.bump).kvGeom = s.kvGeom := rfl
@[simp] theorem State.bump_kv (s : State)  : (s.bump).kv = s.kv := rfl
@[simp] theorem State.bump_rings (s : State)  : (s.bump).rings = s.rings := rfl
@[simp] theorem State.bump_kvReports (s : State)  : (s.bump).kvReports = s.kvReports := rfl
@[simp] theorem State.bump_fab (s : State)  : (s.bump).fab = s.fab := rfl
@[simp] theorem State.bump_dirty (s : State)  : (s.bump).dirty = s.dirty := rfl

/-! ### `modCtx` -/

@[simp] theorem State.modCtx_agenda (s : State) (k : Nat) (f : Ctx → Ctx) : (s.modCtx k f).agenda = s.agenda := by unfold State.modCtx; split <;> rfl
@[simp] theorem State.modCtx_slots (s : State) (k : Nat) (f : Ctx → Ctx) : (s.modCtx k f).slots = s.slots := by unfold State.modCtx; split <;> rfl
@[simp] theorem State.modCtx_focus (s : State) (k : Nat) (f : Ctx → Ctx) : (s.modCtx k f).focus = s.focus := by unfold State.modCtx; split <;> rfl
@[simp] theorem State.modCtx_serial (s : State) (k : Nat) (f : Ctx → Ctx) : (s.modCtx k f).serial = s.serial := by unfold State.modCtx; split <;> rfl
@[simp] theorem State.modCtx_cores (s : State) (k : Nat) (f : Ctx → Ctx) : (s.modCtx k f).cores = s.cores := by unfold State.modCtx; split <;> rfl
@[simp] theorem State.modCtx_dies (s : State) (k : Nat) (f : Ctx → Ctx) : (s.modCtx k f).dies = s.dies := by unfold State.modCtx; split <;> rfl
@[simp] theorem State.modCtx_net (s : State) (k : Nat) (f : Ctx → Ctx) : (s.modCtx k f).net = s.net := by unfold State.modCtx; split <;> rfl
@[simp] theorem State.modCtx_cmds (s : State) (k : Nat) (f : Ctx → Ctx) : (s.modCtx k f).cmds = s.cmds := by unfold State.modCtx; split <;> rfl
@[simp] theorem State.modCtx_hbm (s : State) (k : Nat) (f : Ctx → Ctx) : (s.modCtx k f).hbm = s.hbm := by unfold State.modCtx; split <;> rfl
@[simp] theorem State.modCtx_hostMem (s : State) (k : Nat) (f : Ctx → Ctx) : (s.modCtx k f).hostMem = s.hostMem := by unfold State.modCtx; split <;> rfl
@[simp] theorem State.modCtx_peerMem (s : State) (k : Nat) (f : Ctx → Ctx) : (s.modCtx k f).peerMem = s.peerMem := by unfold State.modCtx; split <;> rfl
@[simp] theorem State.modCtx_poison (s : State) (k : Nat) (f : Ctx → Ctx) : (s.modCtx k f).poison = s.poison := by unfold State.modCtx; split <;> rfl
@[simp] theorem State.modCtx_retired (s : State) (k : Nat) (f : Ctx → Ctx) : (s.modCtx k f).retired = s.retired := by unfold State.modCtx; split <;> rfl
@[simp] theorem State.modCtx_errors (s : State) (k : Nat) (f : Ctx → Ctx) : (s.modCtx k f).errors = s.errors := by unfold State.modCtx; split <;> rfl
@[simp] theorem State.modCtx_runs (s : State) (k : Nat) (f : Ctx → Ctx) : (s.modCtx k f).runs = s.runs := by unfold State.modCtx; split <;> rfl
@[simp] theorem State.modCtx_gangs (s : State) (k : Nat) (f : Ctx → Ctx) : (s.modCtx k f).gangs = s.gangs := by unfold State.modCtx; split <;> rfl
@[simp] theorem State.modCtx_launches (s : State) (k : Nat) (f : Ctx → Ctx) : (s.modCtx k f).launches = s.launches := by unfold State.modCtx; split <;> rfl
@[simp] theorem State.modCtx_childWaits (s : State) (k : Nat) (f : Ctx → Ctx) : (s.modCtx k f).childWaits = s.childWaits := by unfold State.modCtx; split <;> rfl
@[simp] theorem State.modCtx_offers (s : State) (k : Nat) (f : Ctx → Ctx) : (s.modCtx k f).offers = s.offers := by unfold State.modCtx; split <;> rfl
@[simp] theorem State.modCtx_reports (s : State) (k : Nat) (f : Ctx → Ctx) : (s.modCtx k f).reports = s.reports := by unfold State.modCtx; split <;> rfl
@[simp] theorem State.modCtx_links (s : State) (k : Nat) (f : Ctx → Ctx) : (s.modCtx k f).links = s.links := by unfold State.modCtx; split <;> rfl
@[simp] theorem State.modCtx_zone (s : State) (k : Nat) (f : Ctx → Ctx) : (s.modCtx k f).zone = s.zone := by unfold State.modCtx; split <;> rfl
@[simp] theorem State.modCtx_zoneCopy (s : State) (k : Nat) (f : Ctx → Ctx) : (s.modCtx k f).zoneCopy = s.zoneCopy := by unfold State.modCtx; split <;> rfl
@[simp] theorem State.modCtx_calib (s : State) (k : Nat) (f : Ctx → Ctx) : (s.modCtx k f).calib = s.calib := by unfold State.modCtx; split <;> rfl
@[simp] theorem State.modCtx_resetSince (s : State) (k : Nat) (f : Ctx → Ctx) : (s.modCtx k f).resetSince = s.resetSince := by unfold State.modCtx; split <;> rfl
@[simp] theorem State.modCtx_deskewing (s : State) (k : Nat) (f : Ctx → Ctx) : (s.modCtx k f).deskewing = s.deskewing := by unfold State.modCtx; split <;> rfl
@[simp] theorem State.modCtx_hostCtxs (s : State) (k : Nat) (f : Ctx → Ctx) : (s.modCtx k f).hostCtxs = s.hostCtxs := by unfold State.modCtx; split <;> rfl
@[simp] theorem State.modCtx_keys (s : State) (k : Nat) (f : Ctx → Ctx) : (s.modCtx k f).keys = s.keys := by unfold State.modCtx; split <;> rfl
@[simp] theorem State.modCtx_log (s : State) (k : Nat) (f : Ctx → Ctx) : (s.modCtx k f).log = s.log := by unfold State.modCtx; split <;> rfl
@[simp] theorem State.modCtx_logFull (s : State) (k : Nat) (f : Ctx → Ctx) : (s.modCtx k f).logFull = s.logFull := by unfold State.modCtx; split <;> rfl
@[simp] theorem State.modCtx_logLost (s : State) (k : Nat) (f : Ctx → Ctx) : (s.modCtx k f).logLost = s.logLost := by unfold State.modCtx; split <;> rfl
@[simp] theorem State.modCtx_journal (s : State) (k : Nat) (f : Ctx → Ctx) : (s.modCtx k f).journal = s.journal := by unfold State.modCtx; split <;> rfl
@[simp] theorem State.modCtx_fw (s : State) (k : Nat) (f : Ctx → Ctx) : (s.modCtx k f).fw = s.fw := by unfold State.modCtx; split <;> rfl
@[simp] theorem State.modCtx_admin (s : State) (k : Nat) (f : Ctx → Ctx) : (s.modCtx k f).admin = s.admin := by unfold State.modCtx; split <;> rfl
@[simp] theorem State.modCtx_adminSeq (s : State) (k : Nat) (f : Ctx → Ctx) : (s.modCtx k f).adminSeq = s.adminSeq := by unfold State.modCtx; split <;> rfl
@[simp] theorem State.modCtx_boots (s : State) (k : Nat) (f : Ctx → Ctx) : (s.modCtx k f).boots = s.boots := by unfold State.modCtx; split <;> rfl
@[simp] theorem State.modCtx_seqs (s : State) (k : Nat) (f : Ctx → Ctx) : (s.modCtx k f).seqs = s.seqs := by unfold State.modCtx; split <;> rfl
@[simp] theorem State.modCtx_pq (s : State) (k : Nat) (f : Ctx → Ctx) : (s.modCtx k f).pq = s.pq := by unfold State.modCtx; split <;> rfl
@[simp] theorem State.modCtx_depthTab (s : State) (k : Nat) (f : Ctx → Ctx) : (s.modCtx k f).depthTab = s.depthTab := by unfold State.modCtx; split <;> rfl
@[simp] theorem State.modCtx_qzero (s : State) (k : Nat) (f : Ctx → Ctx) : (s.modCtx k f).qzero = s.qzero := by unfold State.modCtx; split <;> rfl
@[simp] theorem State.modCtx_kvGeom (s : State) (k : Nat) (f : Ctx → Ctx) : (s.modCtx k f).kvGeom = s.kvGeom := by unfold State.modCtx; split <;> rfl
@[simp] theorem State.modCtx_kv (s : State) (k : Nat) (f : Ctx → Ctx) : (s.modCtx k f).kv = s.kv := by unfold State.modCtx; split <;> rfl
@[simp] theorem State.modCtx_rings (s : State) (k : Nat) (f : Ctx → Ctx) : (s.modCtx k f).rings = s.rings := by unfold State.modCtx; split <;> rfl
@[simp] theorem State.modCtx_kvReports (s : State) (k : Nat) (f : Ctx → Ctx) : (s.modCtx k f).kvReports = s.kvReports := by unfold State.modCtx; split <;> rfl
@[simp] theorem State.modCtx_fab (s : State) (k : Nat) (f : Ctx → Ctx) : (s.modCtx k f).fab = s.fab := by unfold State.modCtx; split <;> rfl

/-! ### `report` -/

@[simp] theorem State.report_agenda (s : State) (d n : Nat) (x : Cause) (l : Nat) : (s.report d n x l).agenda = s.agenda := rfl
@[simp] theorem State.report_slots (s : State) (d n : Nat) (x : Cause) (l : Nat) : (s.report d n x l).slots = s.slots := rfl
@[simp] theorem State.report_focus (s : State) (d n : Nat) (x : Cause) (l : Nat) : (s.report d n x l).focus = s.focus := rfl
@[simp] theorem State.report_serial (s : State) (d n : Nat) (x : Cause) (l : Nat) : (s.report d n x l).serial = s.serial := rfl
@[simp] theorem State.report_ctxs (s : State) (d n : Nat) (x : Cause) (l : Nat) : (s.report d n x l).ctxs = s.ctxs := rfl
@[simp] theorem State.report_cores (s : State) (d n : Nat) (x : Cause) (l : Nat) : (s.report d n x l).cores = s.cores := rfl
@[simp] theorem State.report_dies (s : State) (d n : Nat) (x : Cause) (l : Nat) : (s.report d n x l).dies = s.dies := rfl
@[simp] theorem State.report_net (s : State) (d n : Nat) (x : Cause) (l : Nat) : (s.report d n x l).net = s.net := rfl
@[simp] theorem State.report_cmds (s : State) (d n : Nat) (x : Cause) (l : Nat) : (s.report d n x l).cmds = s.cmds := rfl
@[simp] theorem State.report_hbm (s : State) (d n : Nat) (x : Cause) (l : Nat) : (s.report d n x l).hbm = s.hbm := rfl
@[simp] theorem State.report_sealed (s : State) (d n : Nat) (x : Cause) (l : Nat) : (s.report d n x l).sealed = s.sealed := rfl
@[simp] theorem State.report_hostMem (s : State) (d n : Nat) (x : Cause) (l : Nat) : (s.report d n x l).hostMem = s.hostMem := rfl
@[simp] theorem State.report_peerMem (s : State) (d n : Nat) (x : Cause) (l : Nat) : (s.report d n x l).peerMem = s.peerMem := rfl
@[simp] theorem State.report_poison (s : State) (d n : Nat) (x : Cause) (l : Nat) : (s.report d n x l).poison = s.poison := rfl
@[simp] theorem State.report_retired (s : State) (d n : Nat) (x : Cause) (l : Nat) : (s.report d n x l).retired = s.retired := rfl
@[simp] theorem State.report_errors (s : State) (d n : Nat) (x : Cause) (l : Nat) : (s.report d n x l).errors = s.errors := rfl
@[simp] theorem State.report_runs (s : State) (d n : Nat) (x : Cause) (l : Nat) : (s.report d n x l).runs = s.runs := rfl
@[simp] theorem State.report_gangs (s : State) (d n : Nat) (x : Cause) (l : Nat) : (s.report d n x l).gangs = s.gangs := rfl
@[simp] theorem State.report_launches (s : State) (d n : Nat) (x : Cause) (l : Nat) : (s.report d n x l).launches = s.launches := rfl
@[simp] theorem State.report_childWaits (s : State) (d n : Nat) (x : Cause) (l : Nat) : (s.report d n x l).childWaits = s.childWaits := rfl
@[simp] theorem State.report_offers (s : State) (d n : Nat) (x : Cause) (l : Nat) : (s.report d n x l).offers = s.offers := rfl
@[simp] theorem State.report_links (s : State) (d n : Nat) (x : Cause) (l : Nat) : (s.report d n x l).links = s.links := rfl
@[simp] theorem State.report_zone (s : State) (d n : Nat) (x : Cause) (l : Nat) : (s.report d n x l).zone = s.zone := rfl
@[simp] theorem State.report_zoneCopy (s : State) (d n : Nat) (x : Cause) (l : Nat) : (s.report d n x l).zoneCopy = s.zoneCopy := rfl
@[simp] theorem State.report_calib (s : State) (d n : Nat) (x : Cause) (l : Nat) : (s.report d n x l).calib = s.calib := rfl
@[simp] theorem State.report_resetSince (s : State) (d n : Nat) (x : Cause) (l : Nat) : (s.report d n x l).resetSince = s.resetSince := rfl
@[simp] theorem State.report_deskewing (s : State) (d n : Nat) (x : Cause) (l : Nat) : (s.report d n x l).deskewing = s.deskewing := rfl
@[simp] theorem State.report_hostCtxs (s : State) (d n : Nat) (x : Cause) (l : Nat) : (s.report d n x l).hostCtxs = s.hostCtxs := rfl
@[simp] theorem State.report_keys (s : State) (d n : Nat) (x : Cause) (l : Nat) : (s.report d n x l).keys = s.keys := rfl
@[simp] theorem State.report_log (s : State) (d n : Nat) (x : Cause) (l : Nat) : (s.report d n x l).log = s.log := rfl
@[simp] theorem State.report_logFull (s : State) (d n : Nat) (x : Cause) (l : Nat) : (s.report d n x l).logFull = s.logFull := rfl
@[simp] theorem State.report_logLost (s : State) (d n : Nat) (x : Cause) (l : Nat) : (s.report d n x l).logLost = s.logLost := rfl
@[simp] theorem State.report_journal (s : State) (d n : Nat) (x : Cause) (l : Nat) : (s.report d n x l).journal = s.journal := rfl
@[simp] theorem State.report_fw (s : State) (d n : Nat) (x : Cause) (l : Nat) : (s.report d n x l).fw = s.fw := rfl
@[simp] theorem State.report_admin (s : State) (d n : Nat) (x : Cause) (l : Nat) : (s.report d n x l).admin = s.admin := rfl
@[simp] theorem State.report_adminSeq (s : State) (d n : Nat) (x : Cause) (l : Nat) : (s.report d n x l).adminSeq = s.adminSeq := rfl
@[simp] theorem State.report_boots (s : State) (d n : Nat) (x : Cause) (l : Nat) : (s.report d n x l).boots = s.boots := rfl
@[simp] theorem State.report_seqs (s : State) (d n : Nat) (x : Cause) (l : Nat) : (s.report d n x l).seqs = s.seqs := rfl
@[simp] theorem State.report_pq (s : State) (d n : Nat) (x : Cause) (l : Nat) : (s.report d n x l).pq = s.pq := rfl
@[simp] theorem State.report_depthTab (s : State) (d n : Nat) (x : Cause) (l : Nat) : (s.report d n x l).depthTab = s.depthTab := rfl
@[simp] theorem State.report_qzero (s : State) (d n : Nat) (x : Cause) (l : Nat) : (s.report d n x l).qzero = s.qzero := rfl
@[simp] theorem State.report_kvGeom (s : State) (d n : Nat) (x : Cause) (l : Nat) : (s.report d n x l).kvGeom = s.kvGeom := rfl
@[simp] theorem State.report_kv (s : State) (d n : Nat) (x : Cause) (l : Nat) : (s.report d n x l).kv = s.kv := rfl
@[simp] theorem State.report_rings (s : State) (d n : Nat) (x : Cause) (l : Nat) : (s.report d n x l).rings = s.rings := rfl
@[simp] theorem State.report_kvReports (s : State) (d n : Nat) (x : Cause) (l : Nat) : (s.report d n x l).kvReports = s.kvReports := rfl
@[simp] theorem State.report_fab (s : State) (d n : Nat) (x : Cause) (l : Nat) : (s.report d n x l).fab = s.fab := rfl
@[simp] theorem State.report_dirty (s : State) (d n : Nat) (x : Cause) (l : Nat) : (s.report d n x l).dirty = s.dirty := rfl

/-! ### `setCl` -/

@[simp] theorem Ctx.setCl_who (c : Ctx) (k : Cluster) (x : ClusterState) : (c.setCl k x).who = c.who := rfl
@[simp] theorem Ctx.setCl_status (c : Ctx) (k : Cluster) (x : ClusterState) : (c.setCl k x).status = c.status := rfl
@[simp] theorem Ctx.setCl_phase (c : Ctx) (k : Cluster) (x : ClusterState) : (c.setCl k x).phase = c.phase := rfl
@[simp] theorem Ctx.setCl_epc (c : Ctx) (k : Cluster) (x : ClusterState) : (c.setCl k x).epc = c.epc := rfl
@[simp] theorem Ctx.setCl_entry (c : Ctx) (k : Cluster) (x : ClusterState) : (c.setCl k x).entry = c.entry := rfl
@[simp] theorem Ctx.setCl_code (c : Ctx) (k : Cluster) (x : ClusterState) : (c.setCl k x).code = c.code := rfl
@[simp] theorem Ctx.setCl_forkset (c : Ctx) (k : Cluster) (x : ClusterState) : (c.setCl k x).forkset = c.forkset := rfl
@[simp] theorem Ctx.setCl_queues (c : Ctx) (k : Cluster) (x : ClusterState) : (c.setCl k x).queues = c.queues := rfl
@[simp] theorem Ctx.setCl_freed (c : Ctx) (k : Cluster) (x : ClusterState) : (c.setCl k x).freed = c.freed := rfl
@[simp] theorem Ctx.setCl_landings (c : Ctx) (k : Cluster) (x : ClusterState) : (c.setCl k x).landings = c.landings := rfl
@[simp] theorem Ctx.setCl_time (c : Ctx) (k : Cluster) (x : ClusterState) : (c.setCl k x).time = c.time := rfl
@[simp] theorem Ctx.setCl_susp (c : Ctx) (k : Cluster) (x : ClusterState) : (c.setCl k x).susp = c.susp := rfl
@[simp] theorem Ctx.setCl_deadlock (c : Ctx) (k : Cluster) (x : ClusterState) : (c.setCl k x).deadlock = c.deadlock := rfl
@[simp] theorem Ctx.setCl_verdict (c : Ctx) (k : Cluster) (x : ClusterState) : (c.setCl k x).verdict = c.verdict := rfl
@[simp] theorem Ctx.setCl_bundle (c : Ctx) (k : Cluster) (x : ClusterState) : (c.setCl k x).bundle = c.bundle := rfl
@[simp] theorem Ctx.setCl_issuedCls (c : Ctx) (k : Cluster) (x : ClusterState) : (c.setCl k x).issuedCls = c.issuedCls := rfl
@[simp] theorem Ctx.setCl_issuedPcs (c : Ctx) (k : Cluster) (x : ClusterState) : (c.setCl k x).issuedPcs = c.issuedPcs := rfl
@[simp] theorem Ctx.setCl_xPort (c : Ctx) (k : Cluster) (x : ClusterState) : (c.setCl k x).xPort = c.xPort := rfl
@[simp] theorem Ctx.setCl_claims (c : Ctx) (k : Cluster) (x : ClusterState) : (c.setCl k x).claims = c.claims := rfl
@[simp] theorem Ctx.setCl_staged (c : Ctx) (k : Cluster) (x : ClusterState) : (c.setCl k x).staged = c.staged := rfl
@[simp] theorem Ctx.setCl_traps (c : Ctx) (k : Cluster) (x : ClusterState) : (c.setCl k x).traps = c.traps := rfl
@[simp] theorem Ctx.setCl_async (c : Ctx) (k : Cluster) (x : ClusterState) : (c.setCl k x).async = c.async := rfl
@[simp] theorem Ctx.setCl_ends (c : Ctx) (k : Cluster) (x : ClusterState) : (c.setCl k x).ends = c.ends := rfl
@[simp] theorem Ctx.setCl_yields (c : Ctx) (k : Cluster) (x : ClusterState) : (c.setCl k x).yields = c.yields := rfl
@[simp] theorem Ctx.setCl_coreCtl (c : Ctx) (k : Cluster) (x : ClusterState) : (c.setCl k x).coreCtl = c.coreCtl := rfl
@[simp] theorem Ctx.setCl_cause (c : Ctx) (k : Cluster) (x : ClusterState) : (c.setCl k x).cause = c.cause := rfl
@[simp] theorem Ctx.setCl_ctr (c : Ctx) (k : Cluster) (x : ClusterState) : (c.setCl k x).ctr = c.ctr := rfl
@[simp] theorem Ctx.setCl_ctxArea (c : Ctx) (k : Cluster) (x : ClusterState) : (c.setCl k x).ctxArea = c.ctxArea := rfl
@[simp] theorem Ctx.setCl_traceBase (c : Ctx) (k : Cluster) (x : ClusterState) : (c.setCl k x).traceBase = c.traceBase := rfl
@[simp] theorem Ctx.setCl_traced (c : Ctx) (k : Cluster) (x : ClusterState) : (c.setCl k x).traced = c.traced := rfl
@[simp] theorem Ctx.setCl_xroot (c : Ctx) (k : Cluster) (x : ClusterState) : (c.setCl k x).xroot = c.xroot := rfl
@[simp] theorem Ctx.setCl_rgn (c : Ctx) (k : Cluster) (x : ClusterState) : (c.setCl k x).rgn = c.rgn := rfl
@[simp] theorem Ctx.setCl_mrf (c : Ctx) (k : Cluster) (x : ClusterState) : (c.setCl k x).mrf = c.mrf := rfl
@[simp] theorem Ctx.setCl_array (c : Ctx) (k : Cluster) (x : ClusterState) : (c.setCl k x).array = c.array := rfl
@[simp] theorem Ctx.setCl_holds (c : Ctx) (k : Cluster) (x : ClusterState) : (c.setCl k x).holds = c.holds := rfl
@[simp] theorem Ctx.setCl_cmdHolds (c : Ctx) (k : Cluster) (x : ClusterState) : (c.setCl k x).cmdHolds = c.cmdHolds := rfl
@[simp] theorem Ctx.setCl_flushBits (c : Ctx) (k : Cluster) (x : ClusterState) : (c.setCl k x).flushBits = c.flushBits := rfl
@[simp] theorem Ctx.setCl_flushing (c : Ctx) (k : Cluster) (x : ClusterState) : (c.setCl k x).flushing = c.flushing := rfl
@[simp] theorem Ctx.setCl_fenced (c : Ctx) (k : Cluster) (x : ClusterState) : (c.setCl k x).fenced = c.fenced := rfl
@[simp] theorem Ctx.setCl_tlb (c : Ctx) (k : Cluster) (x : ClusterState) : (c.setCl k x).tlb = c.tlb := rfl
@[simp] theorem Ctx.setCl_took (c : Ctx) (k : Cluster) (x : ClusterState) : (c.setCl k x).took = c.took := rfl
@[simp] theorem Ctx.setCl_deferred (c : Ctx) (k : Cluster) (x : ClusterState) : (c.setCl k x).deferred = c.deferred := rfl
@[simp] theorem Ctx.setCl_peerNodes (c : Ctx) (k : Cluster) (x : ClusterState) : (c.setCl k x).peerNodes = c.peerNodes := rfl
@[simp] theorem Ctx.setCl_pushes (c : Ctx) (k : Cluster) (x : ClusterState) : (c.setCl k x).pushes = c.pushes := rfl
@[simp] theorem Ctx.setCl_launches (c : Ctx) (k : Cluster) (x : ClusterState) : (c.setCl k x).launches = c.launches := rfl
@[simp] theorem Ctx.setCl_digest (c : Ctx) (k : Cluster) (x : ClusterState) : (c.setCl k x).digest = c.digest := rfl
@[simp] theorem Ctx.setCl_saveSlot (c : Ctx) (k : Cluster) (x : ClusterState) : (c.setCl k x).saveSlot = c.saveSlot := rfl
@[simp] theorem Ctx.setCl_semFault (c : Ctx) (k : Cluster) (x : ClusterState) : (c.setCl k x).semFault = c.semFault := rfl
@[simp] theorem Ctx.setCl_moves (c : Ctx) (k : Cluster) (x : ClusterState) : (c.setCl k x).moves = c.moves := rfl
@[simp] theorem Ctx.setCl_records (c : Ctx) (k : Cluster) (x : ClusterState) : (c.setCl k x).records = c.records := rfl
@[simp] theorem Ctx.setCl_away (c : Ctx) (k : Cluster) (x : ClusterState) : (c.setCl k x).away = c.away := rfl
@[simp] theorem Ctx.setCl_heard (c : Ctx) (k : Cluster) (x : ClusterState) : (c.setCl k x).heard = c.heard := rfl
@[simp] theorem Ctx.setCl_learnt (c : Ctx) (k : Cluster) (x : ClusterState) : (c.setCl k x).learnt = c.learnt := rfl

/-! ### `setQueue` -/

@[simp] theorem Ctx.setQueue_who (c : Ctx) (q : Nat) (l : List QEntry) : (c.setQueue q l).who = c.who := rfl
@[simp] theorem Ctx.setQueue_status (c : Ctx) (q : Nat) (l : List QEntry) : (c.setQueue q l).status = c.status := rfl
@[simp] theorem Ctx.setQueue_phase (c : Ctx) (q : Nat) (l : List QEntry) : (c.setQueue q l).phase = c.phase := rfl
@[simp] theorem Ctx.setQueue_cls (c : Ctx) (q : Nat) (l : List QEntry) : (c.setQueue q l).cls = c.cls := rfl
@[simp] theorem Ctx.setQueue_epc (c : Ctx) (q : Nat) (l : List QEntry) : (c.setQueue q l).epc = c.epc := rfl
@[simp] theorem Ctx.setQueue_entry (c : Ctx) (q : Nat) (l : List QEntry) : (c.setQueue q l).entry = c.entry := rfl
@[simp] theorem Ctx.setQueue_code (c : Ctx) (q : Nat) (l : List QEntry) : (c.setQueue q l).code = c.code := rfl
@[simp] theorem Ctx.setQueue_forkset (c : Ctx) (q : Nat) (l : List QEntry) : (c.setQueue q l).forkset = c.forkset := rfl
@[simp] theorem Ctx.setQueue_freed (c : Ctx) (q : Nat) (l : List QEntry) : (c.setQueue q l).freed = c.freed := rfl
@[simp] theorem Ctx.setQueue_landings (c : Ctx) (q : Nat) (l : List QEntry) : (c.setQueue q l).landings = c.landings := rfl
@[simp] theorem Ctx.setQueue_time (c : Ctx) (q : Nat) (l : List QEntry) : (c.setQueue q l).time = c.time := rfl
@[simp] theorem Ctx.setQueue_susp (c : Ctx) (q : Nat) (l : List QEntry) : (c.setQueue q l).susp = c.susp := rfl
@[simp] theorem Ctx.setQueue_deadlock (c : Ctx) (q : Nat) (l : List QEntry) : (c.setQueue q l).deadlock = c.deadlock := rfl
@[simp] theorem Ctx.setQueue_verdict (c : Ctx) (q : Nat) (l : List QEntry) : (c.setQueue q l).verdict = c.verdict := rfl
@[simp] theorem Ctx.setQueue_bundle (c : Ctx) (q : Nat) (l : List QEntry) : (c.setQueue q l).bundle = c.bundle := rfl
@[simp] theorem Ctx.setQueue_issuedCls (c : Ctx) (q : Nat) (l : List QEntry) : (c.setQueue q l).issuedCls = c.issuedCls := rfl
@[simp] theorem Ctx.setQueue_issuedPcs (c : Ctx) (q : Nat) (l : List QEntry) : (c.setQueue q l).issuedPcs = c.issuedPcs := rfl
@[simp] theorem Ctx.setQueue_xPort (c : Ctx) (q : Nat) (l : List QEntry) : (c.setQueue q l).xPort = c.xPort := rfl
@[simp] theorem Ctx.setQueue_claims (c : Ctx) (q : Nat) (l : List QEntry) : (c.setQueue q l).claims = c.claims := rfl
@[simp] theorem Ctx.setQueue_staged (c : Ctx) (q : Nat) (l : List QEntry) : (c.setQueue q l).staged = c.staged := rfl
@[simp] theorem Ctx.setQueue_traps (c : Ctx) (q : Nat) (l : List QEntry) : (c.setQueue q l).traps = c.traps := rfl
@[simp] theorem Ctx.setQueue_async (c : Ctx) (q : Nat) (l : List QEntry) : (c.setQueue q l).async = c.async := rfl
@[simp] theorem Ctx.setQueue_ends (c : Ctx) (q : Nat) (l : List QEntry) : (c.setQueue q l).ends = c.ends := rfl
@[simp] theorem Ctx.setQueue_yields (c : Ctx) (q : Nat) (l : List QEntry) : (c.setQueue q l).yields = c.yields := rfl
@[simp] theorem Ctx.setQueue_coreCtl (c : Ctx) (q : Nat) (l : List QEntry) : (c.setQueue q l).coreCtl = c.coreCtl := rfl
@[simp] theorem Ctx.setQueue_cause (c : Ctx) (q : Nat) (l : List QEntry) : (c.setQueue q l).cause = c.cause := rfl
@[simp] theorem Ctx.setQueue_ctr (c : Ctx) (q : Nat) (l : List QEntry) : (c.setQueue q l).ctr = c.ctr := rfl
@[simp] theorem Ctx.setQueue_ctxArea (c : Ctx) (q : Nat) (l : List QEntry) : (c.setQueue q l).ctxArea = c.ctxArea := rfl
@[simp] theorem Ctx.setQueue_traceBase (c : Ctx) (q : Nat) (l : List QEntry) : (c.setQueue q l).traceBase = c.traceBase := rfl
@[simp] theorem Ctx.setQueue_traced (c : Ctx) (q : Nat) (l : List QEntry) : (c.setQueue q l).traced = c.traced := rfl
@[simp] theorem Ctx.setQueue_xroot (c : Ctx) (q : Nat) (l : List QEntry) : (c.setQueue q l).xroot = c.xroot := rfl
@[simp] theorem Ctx.setQueue_rgn (c : Ctx) (q : Nat) (l : List QEntry) : (c.setQueue q l).rgn = c.rgn := rfl
@[simp] theorem Ctx.setQueue_mrf (c : Ctx) (q : Nat) (l : List QEntry) : (c.setQueue q l).mrf = c.mrf := rfl
@[simp] theorem Ctx.setQueue_array (c : Ctx) (q : Nat) (l : List QEntry) : (c.setQueue q l).array = c.array := rfl
@[simp] theorem Ctx.setQueue_holds (c : Ctx) (q : Nat) (l : List QEntry) : (c.setQueue q l).holds = c.holds := rfl
@[simp] theorem Ctx.setQueue_cmdHolds (c : Ctx) (q : Nat) (l : List QEntry) : (c.setQueue q l).cmdHolds = c.cmdHolds := rfl
@[simp] theorem Ctx.setQueue_flushBits (c : Ctx) (q : Nat) (l : List QEntry) : (c.setQueue q l).flushBits = c.flushBits := rfl
@[simp] theorem Ctx.setQueue_flushing (c : Ctx) (q : Nat) (l : List QEntry) : (c.setQueue q l).flushing = c.flushing := rfl
@[simp] theorem Ctx.setQueue_fenced (c : Ctx) (q : Nat) (l : List QEntry) : (c.setQueue q l).fenced = c.fenced := rfl
@[simp] theorem Ctx.setQueue_tlb (c : Ctx) (q : Nat) (l : List QEntry) : (c.setQueue q l).tlb = c.tlb := rfl
@[simp] theorem Ctx.setQueue_took (c : Ctx) (q : Nat) (l : List QEntry) : (c.setQueue q l).took = c.took := rfl
@[simp] theorem Ctx.setQueue_deferred (c : Ctx) (q : Nat) (l : List QEntry) : (c.setQueue q l).deferred = c.deferred := rfl
@[simp] theorem Ctx.setQueue_peerNodes (c : Ctx) (q : Nat) (l : List QEntry) : (c.setQueue q l).peerNodes = c.peerNodes := rfl
@[simp] theorem Ctx.setQueue_pushes (c : Ctx) (q : Nat) (l : List QEntry) : (c.setQueue q l).pushes = c.pushes := rfl
@[simp] theorem Ctx.setQueue_launches (c : Ctx) (q : Nat) (l : List QEntry) : (c.setQueue q l).launches = c.launches := rfl
@[simp] theorem Ctx.setQueue_digest (c : Ctx) (q : Nat) (l : List QEntry) : (c.setQueue q l).digest = c.digest := rfl
@[simp] theorem Ctx.setQueue_saveSlot (c : Ctx) (q : Nat) (l : List QEntry) : (c.setQueue q l).saveSlot = c.saveSlot := rfl
@[simp] theorem Ctx.setQueue_semFault (c : Ctx) (q : Nat) (l : List QEntry) : (c.setQueue q l).semFault = c.semFault := rfl
@[simp] theorem Ctx.setQueue_moves (c : Ctx) (q : Nat) (l : List QEntry) : (c.setQueue q l).moves = c.moves := rfl
@[simp] theorem Ctx.setQueue_records (c : Ctx) (q : Nat) (l : List QEntry) : (c.setQueue q l).records = c.records := rfl
@[simp] theorem Ctx.setQueue_away (c : Ctx) (q : Nat) (l : List QEntry) : (c.setQueue q l).away = c.away := rfl
@[simp] theorem Ctx.setQueue_heard (c : Ctx) (q : Nat) (l : List QEntry) : (c.setQueue q l).heard = c.heard := rfl
@[simp] theorem Ctx.setQueue_learnt (c : Ctx) (q : Nat) (l : List QEntry) : (c.setQueue q l).learnt = c.learnt := rfl

/-! ### `pop` -/

@[simp] theorem Ctx.pop_who (c : Ctx) (q : Nat) : (c.pop q).who = c.who := rfl
@[simp] theorem Ctx.pop_status (c : Ctx) (q : Nat) : (c.pop q).status = c.status := rfl
@[simp] theorem Ctx.pop_phase (c : Ctx) (q : Nat) : (c.pop q).phase = c.phase := rfl
@[simp] theorem Ctx.pop_cls (c : Ctx) (q : Nat) : (c.pop q).cls = c.cls := rfl
@[simp] theorem Ctx.pop_epc (c : Ctx) (q : Nat) : (c.pop q).epc = c.epc := rfl
@[simp] theorem Ctx.pop_entry (c : Ctx) (q : Nat) : (c.pop q).entry = c.entry := rfl
@[simp] theorem Ctx.pop_code (c : Ctx) (q : Nat) : (c.pop q).code = c.code := rfl
@[simp] theorem Ctx.pop_forkset (c : Ctx) (q : Nat) : (c.pop q).forkset = c.forkset := rfl
@[simp] theorem Ctx.pop_landings (c : Ctx) (q : Nat) : (c.pop q).landings = c.landings := rfl
@[simp] theorem Ctx.pop_time (c : Ctx) (q : Nat) : (c.pop q).time = c.time := rfl
@[simp] theorem Ctx.pop_susp (c : Ctx) (q : Nat) : (c.pop q).susp = c.susp := rfl
@[simp] theorem Ctx.pop_deadlock (c : Ctx) (q : Nat) : (c.pop q).deadlock = c.deadlock := rfl
@[simp] theorem Ctx.pop_verdict (c : Ctx) (q : Nat) : (c.pop q).verdict = c.verdict := rfl
@[simp] theorem Ctx.pop_bundle (c : Ctx) (q : Nat) : (c.pop q).bundle = c.bundle := rfl
@[simp] theorem Ctx.pop_issuedCls (c : Ctx) (q : Nat) : (c.pop q).issuedCls = c.issuedCls := rfl
@[simp] theorem Ctx.pop_issuedPcs (c : Ctx) (q : Nat) : (c.pop q).issuedPcs = c.issuedPcs := rfl
@[simp] theorem Ctx.pop_xPort (c : Ctx) (q : Nat) : (c.pop q).xPort = c.xPort := rfl
@[simp] theorem Ctx.pop_claims (c : Ctx) (q : Nat) : (c.pop q).claims = c.claims := rfl
@[simp] theorem Ctx.pop_staged (c : Ctx) (q : Nat) : (c.pop q).staged = c.staged := rfl
@[simp] theorem Ctx.pop_traps (c : Ctx) (q : Nat) : (c.pop q).traps = c.traps := rfl
@[simp] theorem Ctx.pop_async (c : Ctx) (q : Nat) : (c.pop q).async = c.async := rfl
@[simp] theorem Ctx.pop_ends (c : Ctx) (q : Nat) : (c.pop q).ends = c.ends := rfl
@[simp] theorem Ctx.pop_yields (c : Ctx) (q : Nat) : (c.pop q).yields = c.yields := rfl
@[simp] theorem Ctx.pop_coreCtl (c : Ctx) (q : Nat) : (c.pop q).coreCtl = c.coreCtl := rfl
@[simp] theorem Ctx.pop_cause (c : Ctx) (q : Nat) : (c.pop q).cause = c.cause := rfl
@[simp] theorem Ctx.pop_ctr (c : Ctx) (q : Nat) : (c.pop q).ctr = c.ctr := rfl
@[simp] theorem Ctx.pop_ctxArea (c : Ctx) (q : Nat) : (c.pop q).ctxArea = c.ctxArea := rfl
@[simp] theorem Ctx.pop_traceBase (c : Ctx) (q : Nat) : (c.pop q).traceBase = c.traceBase := rfl
@[simp] theorem Ctx.pop_traced (c : Ctx) (q : Nat) : (c.pop q).traced = c.traced := rfl
@[simp] theorem Ctx.pop_xroot (c : Ctx) (q : Nat) : (c.pop q).xroot = c.xroot := rfl
@[simp] theorem Ctx.pop_rgn (c : Ctx) (q : Nat) : (c.pop q).rgn = c.rgn := rfl
@[simp] theorem Ctx.pop_mrf (c : Ctx) (q : Nat) : (c.pop q).mrf = c.mrf := rfl
@[simp] theorem Ctx.pop_array (c : Ctx) (q : Nat) : (c.pop q).array = c.array := rfl
@[simp] theorem Ctx.pop_holds (c : Ctx) (q : Nat) : (c.pop q).holds = c.holds := rfl
@[simp] theorem Ctx.pop_cmdHolds (c : Ctx) (q : Nat) : (c.pop q).cmdHolds = c.cmdHolds := rfl
@[simp] theorem Ctx.pop_flushBits (c : Ctx) (q : Nat) : (c.pop q).flushBits = c.flushBits := rfl
@[simp] theorem Ctx.pop_flushing (c : Ctx) (q : Nat) : (c.pop q).flushing = c.flushing := rfl
@[simp] theorem Ctx.pop_fenced (c : Ctx) (q : Nat) : (c.pop q).fenced = c.fenced := rfl
@[simp] theorem Ctx.pop_tlb (c : Ctx) (q : Nat) : (c.pop q).tlb = c.tlb := rfl
@[simp] theorem Ctx.pop_took (c : Ctx) (q : Nat) : (c.pop q).took = c.took := rfl
@[simp] theorem Ctx.pop_deferred (c : Ctx) (q : Nat) : (c.pop q).deferred = c.deferred := rfl
@[simp] theorem Ctx.pop_peerNodes (c : Ctx) (q : Nat) : (c.pop q).peerNodes = c.peerNodes := rfl
@[simp] theorem Ctx.pop_pushes (c : Ctx) (q : Nat) : (c.pop q).pushes = c.pushes := rfl
@[simp] theorem Ctx.pop_launches (c : Ctx) (q : Nat) : (c.pop q).launches = c.launches := rfl
@[simp] theorem Ctx.pop_digest (c : Ctx) (q : Nat) : (c.pop q).digest = c.digest := rfl
@[simp] theorem Ctx.pop_saveSlot (c : Ctx) (q : Nat) : (c.pop q).saveSlot = c.saveSlot := rfl
@[simp] theorem Ctx.pop_semFault (c : Ctx) (q : Nat) : (c.pop q).semFault = c.semFault := rfl
@[simp] theorem Ctx.pop_moves (c : Ctx) (q : Nat) : (c.pop q).moves = c.moves := rfl
@[simp] theorem Ctx.pop_records (c : Ctx) (q : Nat) : (c.pop q).records = c.records := rfl
@[simp] theorem Ctx.pop_away (c : Ctx) (q : Nat) : (c.pop q).away = c.away := rfl
@[simp] theorem Ctx.pop_heard (c : Ctx) (q : Nat) : (c.pop q).heard = c.heard := rfl
@[simp] theorem Ctx.pop_learnt (c : Ctx) (q : Nat) : (c.pop q).learnt = c.learnt := rfl

/-! ### `commit` -/

@[simp] theorem Ctx.commit_who (c : Ctx) (k : Cluster) (a : Option Word) : (c.commit k a).who = c.who := rfl
@[simp] theorem Ctx.commit_status (c : Ctx) (k : Cluster) (a : Option Word) : (c.commit k a).status = c.status := rfl
@[simp] theorem Ctx.commit_phase (c : Ctx) (k : Cluster) (a : Option Word) : (c.commit k a).phase = c.phase := rfl
@[simp] theorem Ctx.commit_epc (c : Ctx) (k : Cluster) (a : Option Word) : (c.commit k a).epc = c.epc := rfl
@[simp] theorem Ctx.commit_entry (c : Ctx) (k : Cluster) (a : Option Word) : (c.commit k a).entry = c.entry := rfl
@[simp] theorem Ctx.commit_code (c : Ctx) (k : Cluster) (a : Option Word) : (c.commit k a).code = c.code := rfl
@[simp] theorem Ctx.commit_forkset (c : Ctx) (k : Cluster) (a : Option Word) : (c.commit k a).forkset = c.forkset := rfl
@[simp] theorem Ctx.commit_queues (c : Ctx) (k : Cluster) (a : Option Word) : (c.commit k a).queues = c.queues := rfl
@[simp] theorem Ctx.commit_freed (c : Ctx) (k : Cluster) (a : Option Word) : (c.commit k a).freed = c.freed := rfl
@[simp] theorem Ctx.commit_landings (c : Ctx) (k : Cluster) (a : Option Word) : (c.commit k a).landings = c.landings := rfl
@[simp] theorem Ctx.commit_time (c : Ctx) (k : Cluster) (a : Option Word) : (c.commit k a).time = c.time := rfl
@[simp] theorem Ctx.commit_susp (c : Ctx) (k : Cluster) (a : Option Word) : (c.commit k a).susp = c.susp := rfl
@[simp] theorem Ctx.commit_deadlock (c : Ctx) (k : Cluster) (a : Option Word) : (c.commit k a).deadlock = c.deadlock := rfl
@[simp] theorem Ctx.commit_bundle (c : Ctx) (k : Cluster) (a : Option Word) : (c.commit k a).bundle = c.bundle := rfl
@[simp] theorem Ctx.commit_issuedPcs (c : Ctx) (k : Cluster) (a : Option Word) : (c.commit k a).issuedPcs = c.issuedPcs := rfl
@[simp] theorem Ctx.commit_xPort (c : Ctx) (k : Cluster) (a : Option Word) : (c.commit k a).xPort = c.xPort := rfl
@[simp] theorem Ctx.commit_claims (c : Ctx) (k : Cluster) (a : Option Word) : (c.commit k a).claims = c.claims := rfl
@[simp] theorem Ctx.commit_staged (c : Ctx) (k : Cluster) (a : Option Word) : (c.commit k a).staged = c.staged := rfl
@[simp] theorem Ctx.commit_traps (c : Ctx) (k : Cluster) (a : Option Word) : (c.commit k a).traps = c.traps := rfl
@[simp] theorem Ctx.commit_async (c : Ctx) (k : Cluster) (a : Option Word) : (c.commit k a).async = c.async := rfl
@[simp] theorem Ctx.commit_ends (c : Ctx) (k : Cluster) (a : Option Word) : (c.commit k a).ends = c.ends := rfl
@[simp] theorem Ctx.commit_yields (c : Ctx) (k : Cluster) (a : Option Word) : (c.commit k a).yields = c.yields := rfl
@[simp] theorem Ctx.commit_coreCtl (c : Ctx) (k : Cluster) (a : Option Word) : (c.commit k a).coreCtl = c.coreCtl := rfl
@[simp] theorem Ctx.commit_cause (c : Ctx) (k : Cluster) (a : Option Word) : (c.commit k a).cause = c.cause := rfl
@[simp] theorem Ctx.commit_ctr (c : Ctx) (k : Cluster) (a : Option Word) : (c.commit k a).ctr = c.ctr := rfl
@[simp] theorem Ctx.commit_ctxArea (c : Ctx) (k : Cluster) (a : Option Word) : (c.commit k a).ctxArea = c.ctxArea := rfl
@[simp] theorem Ctx.commit_traceBase (c : Ctx) (k : Cluster) (a : Option Word) : (c.commit k a).traceBase = c.traceBase := rfl
@[simp] theorem Ctx.commit_traced (c : Ctx) (k : Cluster) (a : Option Word) : (c.commit k a).traced = c.traced := rfl
@[simp] theorem Ctx.commit_xroot (c : Ctx) (k : Cluster) (a : Option Word) : (c.commit k a).xroot = c.xroot := rfl
@[simp] theorem Ctx.commit_rgn (c : Ctx) (k : Cluster) (a : Option Word) : (c.commit k a).rgn = c.rgn := rfl
@[simp] theorem Ctx.commit_mrf (c : Ctx) (k : Cluster) (a : Option Word) : (c.commit k a).mrf = c.mrf := rfl
@[simp] theorem Ctx.commit_array (c : Ctx) (k : Cluster) (a : Option Word) : (c.commit k a).array = c.array := rfl
@[simp] theorem Ctx.commit_holds (c : Ctx) (k : Cluster) (a : Option Word) : (c.commit k a).holds = c.holds := rfl
@[simp] theorem Ctx.commit_cmdHolds (c : Ctx) (k : Cluster) (a : Option Word) : (c.commit k a).cmdHolds = c.cmdHolds := rfl
@[simp] theorem Ctx.commit_flushBits (c : Ctx) (k : Cluster) (a : Option Word) : (c.commit k a).flushBits = c.flushBits := rfl
@[simp] theorem Ctx.commit_flushing (c : Ctx) (k : Cluster) (a : Option Word) : (c.commit k a).flushing = c.flushing := rfl
@[simp] theorem Ctx.commit_fenced (c : Ctx) (k : Cluster) (a : Option Word) : (c.commit k a).fenced = c.fenced := rfl
@[simp] theorem Ctx.commit_tlb (c : Ctx) (k : Cluster) (a : Option Word) : (c.commit k a).tlb = c.tlb := rfl
@[simp] theorem Ctx.commit_took (c : Ctx) (k : Cluster) (a : Option Word) : (c.commit k a).took = c.took := rfl
@[simp] theorem Ctx.commit_deferred (c : Ctx) (k : Cluster) (a : Option Word) : (c.commit k a).deferred = c.deferred := rfl
@[simp] theorem Ctx.commit_peerNodes (c : Ctx) (k : Cluster) (a : Option Word) : (c.commit k a).peerNodes = c.peerNodes := rfl
@[simp] theorem Ctx.commit_pushes (c : Ctx) (k : Cluster) (a : Option Word) : (c.commit k a).pushes = c.pushes := rfl
@[simp] theorem Ctx.commit_launches (c : Ctx) (k : Cluster) (a : Option Word) : (c.commit k a).launches = c.launches := rfl
@[simp] theorem Ctx.commit_digest (c : Ctx) (k : Cluster) (a : Option Word) : (c.commit k a).digest = c.digest := rfl
@[simp] theorem Ctx.commit_saveSlot (c : Ctx) (k : Cluster) (a : Option Word) : (c.commit k a).saveSlot = c.saveSlot := rfl
@[simp] theorem Ctx.commit_semFault (c : Ctx) (k : Cluster) (a : Option Word) : (c.commit k a).semFault = c.semFault := rfl
@[simp] theorem Ctx.commit_moves (c : Ctx) (k : Cluster) (a : Option Word) : (c.commit k a).moves = c.moves := rfl
@[simp] theorem Ctx.commit_records (c : Ctx) (k : Cluster) (a : Option Word) : (c.commit k a).records = c.records := rfl
@[simp] theorem Ctx.commit_away (c : Ctx) (k : Cluster) (a : Option Word) : (c.commit k a).away = c.away := rfl
@[simp] theorem Ctx.commit_heard (c : Ctx) (k : Cluster) (a : Option Word) : (c.commit k a).heard = c.heard := rfl
@[simp] theorem Ctx.commit_learnt (c : Ctx) (k : Cluster) (a : Option Word) : (c.commit k a).learnt = c.learnt := rfl

/-! ### `wait` -/

@[simp] theorem Ctx.wait_who (c : Ctx) (k : Cluster) (r : RunState) (q : BitVec 4) (d : Bool) : (c.wait k r q d).who = c.who := rfl
@[simp] theorem Ctx.wait_status (c : Ctx) (k : Cluster) (r : RunState) (q : BitVec 4) (d : Bool) : (c.wait k r q d).status = c.status := rfl
@[simp] theorem Ctx.wait_phase (c : Ctx) (k : Cluster) (r : RunState) (q : BitVec 4) (d : Bool) : (c.wait k r q d).phase = c.phase := rfl
@[simp] theorem Ctx.wait_epc (c : Ctx) (k : Cluster) (r : RunState) (q : BitVec 4) (d : Bool) : (c.wait k r q d).epc = c.epc := rfl
@[simp] theorem Ctx.wait_entry (c : Ctx) (k : Cluster) (r : RunState) (q : BitVec 4) (d : Bool) : (c.wait k r q d).entry = c.entry := rfl
@[simp] theorem Ctx.wait_code (c : Ctx) (k : Cluster) (r : RunState) (q : BitVec 4) (d : Bool) : (c.wait k r q d).code = c.code := rfl
@[simp] theorem Ctx.wait_forkset (c : Ctx) (k : Cluster) (r : RunState) (q : BitVec 4) (d : Bool) : (c.wait k r q d).forkset = c.forkset := rfl
@[simp] theorem Ctx.wait_queues (c : Ctx) (k : Cluster) (r : RunState) (q : BitVec 4) (d : Bool) : (c.wait k r q d).queues = c.queues := rfl
@[simp] theorem Ctx.wait_freed (c : Ctx) (k : Cluster) (r : RunState) (q : BitVec 4) (d : Bool) : (c.wait k r q d).freed = c.freed := rfl
@[simp] theorem Ctx.wait_landings (c : Ctx) (k : Cluster) (r : RunState) (q : BitVec 4) (d : Bool) : (c.wait k r q d).landings = c.landings := rfl
@[simp] theorem Ctx.wait_time (c : Ctx) (k : Cluster) (r : RunState) (q : BitVec 4) (d : Bool) : (c.wait k r q d).time = c.time := rfl
@[simp] theorem Ctx.wait_susp (c : Ctx) (k : Cluster) (r : RunState) (q : BitVec 4) (d : Bool) : (c.wait k r q d).susp = c.susp := rfl
@[simp] theorem Ctx.wait_deadlock (c : Ctx) (k : Cluster) (r : RunState) (q : BitVec 4) (d : Bool) : (c.wait k r q d).deadlock = c.deadlock := rfl
@[simp] theorem Ctx.wait_bundle (c : Ctx) (k : Cluster) (r : RunState) (q : BitVec 4) (d : Bool) : (c.wait k r q d).bundle = c.bundle := rfl
@[simp] theorem Ctx.wait_issuedCls (c : Ctx) (k : Cluster) (r : RunState) (q : BitVec 4) (d : Bool) : (c.wait k r q d).issuedCls = c.issuedCls := rfl
@[simp] theorem Ctx.wait_issuedPcs (c : Ctx) (k : Cluster) (r : RunState) (q : BitVec 4) (d : Bool) : (c.wait k r q d).issuedPcs = c.issuedPcs := rfl
@[simp] theorem Ctx.wait_xPort (c : Ctx) (k : Cluster) (r : RunState) (q : BitVec 4) (d : Bool) : (c.wait k r q d).xPort = c.xPort := rfl
@[simp] theorem Ctx.wait_claims (c : Ctx) (k : Cluster) (r : RunState) (q : BitVec 4) (d : Bool) : (c.wait k r q d).claims = c.claims := rfl
@[simp] theorem Ctx.wait_staged (c : Ctx) (k : Cluster) (r : RunState) (q : BitVec 4) (d : Bool) : (c.wait k r q d).staged = c.staged := rfl
@[simp] theorem Ctx.wait_traps (c : Ctx) (k : Cluster) (r : RunState) (q : BitVec 4) (d : Bool) : (c.wait k r q d).traps = c.traps := rfl
@[simp] theorem Ctx.wait_async (c : Ctx) (k : Cluster) (r : RunState) (q : BitVec 4) (d : Bool) : (c.wait k r q d).async = c.async := rfl
@[simp] theorem Ctx.wait_ends (c : Ctx) (k : Cluster) (r : RunState) (q : BitVec 4) (d : Bool) : (c.wait k r q d).ends = c.ends := rfl
@[simp] theorem Ctx.wait_yields (c : Ctx) (k : Cluster) (r : RunState) (q : BitVec 4) (d : Bool) : (c.wait k r q d).yields = c.yields := rfl
@[simp] theorem Ctx.wait_coreCtl (c : Ctx) (k : Cluster) (r : RunState) (q : BitVec 4) (d : Bool) : (c.wait k r q d).coreCtl = c.coreCtl := rfl
@[simp] theorem Ctx.wait_cause (c : Ctx) (k : Cluster) (r : RunState) (q : BitVec 4) (d : Bool) : (c.wait k r q d).cause = c.cause := rfl
@[simp] theorem Ctx.wait_ctr (c : Ctx) (k : Cluster) (r : RunState) (q : BitVec 4) (d : Bool) : (c.wait k r q d).ctr = c.ctr := rfl
@[simp] theorem Ctx.wait_ctxArea (c : Ctx) (k : Cluster) (r : RunState) (q : BitVec 4) (d : Bool) : (c.wait k r q d).ctxArea = c.ctxArea := rfl
@[simp] theorem Ctx.wait_traceBase (c : Ctx) (k : Cluster) (r : RunState) (q : BitVec 4) (d : Bool) : (c.wait k r q d).traceBase = c.traceBase := rfl
@[simp] theorem Ctx.wait_traced (c : Ctx) (k : Cluster) (r : RunState) (q : BitVec 4) (d : Bool) : (c.wait k r q d).traced = c.traced := rfl
@[simp] theorem Ctx.wait_xroot (c : Ctx) (k : Cluster) (r : RunState) (q : BitVec 4) (d : Bool) : (c.wait k r q d).xroot = c.xroot := rfl
@[simp] theorem Ctx.wait_rgn (c : Ctx) (k : Cluster) (r : RunState) (q : BitVec 4) (d : Bool) : (c.wait k r q d).rgn = c.rgn := rfl
@[simp] theorem Ctx.wait_mrf (c : Ctx) (k : Cluster) (r : RunState) (q : BitVec 4) (d : Bool) : (c.wait k r q d).mrf = c.mrf := rfl
@[simp] theorem Ctx.wait_array (c : Ctx) (k : Cluster) (r : RunState) (q : BitVec 4) (d : Bool) : (c.wait k r q d).array = c.array := rfl
@[simp] theorem Ctx.wait_holds (c : Ctx) (k : Cluster) (r : RunState) (q : BitVec 4) (d : Bool) : (c.wait k r q d).holds = c.holds := rfl
@[simp] theorem Ctx.wait_cmdHolds (c : Ctx) (k : Cluster) (r : RunState) (q : BitVec 4) (d : Bool) : (c.wait k r q d).cmdHolds = c.cmdHolds := rfl
@[simp] theorem Ctx.wait_flushBits (c : Ctx) (k : Cluster) (r : RunState) (q : BitVec 4) (d : Bool) : (c.wait k r q d).flushBits = c.flushBits := rfl
@[simp] theorem Ctx.wait_flushing (c : Ctx) (k : Cluster) (r : RunState) (q : BitVec 4) (d : Bool) : (c.wait k r q d).flushing = c.flushing := rfl
@[simp] theorem Ctx.wait_fenced (c : Ctx) (k : Cluster) (r : RunState) (q : BitVec 4) (d : Bool) : (c.wait k r q d).fenced = c.fenced := rfl
@[simp] theorem Ctx.wait_tlb (c : Ctx) (k : Cluster) (r : RunState) (q : BitVec 4) (d : Bool) : (c.wait k r q d).tlb = c.tlb := rfl
@[simp] theorem Ctx.wait_took (c : Ctx) (k : Cluster) (r : RunState) (q : BitVec 4) (d : Bool) : (c.wait k r q d).took = c.took := rfl
@[simp] theorem Ctx.wait_deferred (c : Ctx) (k : Cluster) (r : RunState) (q : BitVec 4) (d : Bool) : (c.wait k r q d).deferred = c.deferred := rfl
@[simp] theorem Ctx.wait_peerNodes (c : Ctx) (k : Cluster) (r : RunState) (q : BitVec 4) (d : Bool) : (c.wait k r q d).peerNodes = c.peerNodes := rfl
@[simp] theorem Ctx.wait_pushes (c : Ctx) (k : Cluster) (r : RunState) (q : BitVec 4) (d : Bool) : (c.wait k r q d).pushes = c.pushes := rfl
@[simp] theorem Ctx.wait_launches (c : Ctx) (k : Cluster) (r : RunState) (q : BitVec 4) (d : Bool) : (c.wait k r q d).launches = c.launches := rfl
@[simp] theorem Ctx.wait_digest (c : Ctx) (k : Cluster) (r : RunState) (q : BitVec 4) (d : Bool) : (c.wait k r q d).digest = c.digest := rfl
@[simp] theorem Ctx.wait_saveSlot (c : Ctx) (k : Cluster) (r : RunState) (q : BitVec 4) (d : Bool) : (c.wait k r q d).saveSlot = c.saveSlot := rfl
@[simp] theorem Ctx.wait_semFault (c : Ctx) (k : Cluster) (r : RunState) (q : BitVec 4) (d : Bool) : (c.wait k r q d).semFault = c.semFault := rfl
@[simp] theorem Ctx.wait_moves (c : Ctx) (k : Cluster) (r : RunState) (q : BitVec 4) (d : Bool) : (c.wait k r q d).moves = c.moves := rfl
@[simp] theorem Ctx.wait_records (c : Ctx) (k : Cluster) (r : RunState) (q : BitVec 4) (d : Bool) : (c.wait k r q d).records = c.records := rfl
@[simp] theorem Ctx.wait_away (c : Ctx) (k : Cluster) (r : RunState) (q : BitVec 4) (d : Bool) : (c.wait k r q d).away = c.away := rfl
@[simp] theorem Ctx.wait_heard (c : Ctx) (k : Cluster) (r : RunState) (q : BitVec 4) (d : Bool) : (c.wait k r q d).heard = c.heard := rfl
@[simp] theorem Ctx.wait_learnt (c : Ctx) (k : Cluster) (r : RunState) (q : BitVec 4) (d : Bool) : (c.wait k r q d).learnt = c.learnt := rfl

/-! ### What reads see of these updates -/

@[simp] theorem State.core_setCtx (s : State) (k j : Nat) (c : Ctx) : (s.setCtx k c).core j = s.core j := rfl
@[simp] theorem State.die_setCtx (s : State) (k j : Nat) (c : Ctx) : (s.setCtx k c).die j = s.die j := rfl
@[simp] theorem State.ctx?_setCore (s : State) (k j : Nat) (c : CoreState) : (s.setCore k c).ctx? j = s.ctx? j := rfl
@[simp] theorem State.die_setCore (s : State) (k j : Nat) (c : CoreState) : (s.setCore k c).die j = s.die j := rfl
@[simp] theorem State.ctx?_setDie (s : State) (k j : Nat) (v : Die) : (s.setDie k v).ctx? j = s.ctx? j := rfl
@[simp] theorem State.core_setDie (s : State) (k j : Nat) (v : Die) : (s.setDie k v).core j = s.core j := rfl
@[simp] theorem State.ctx?_bump (s : State) (j : Nat) : s.bump.ctx? j = s.ctx? j := rfl
@[simp] theorem State.core_bump (s : State) (j : Nat) : s.bump.core j = s.core j := rfl
@[simp] theorem State.die_bump (s : State) (j : Nat) : s.bump.die j = s.die j := rfl

@[simp] theorem Quad.get_set_self {α : Type} (q : Quad α) (k : Cluster) (a : α) : (q.set k a).get k = a := by
  cases k <;> rfl

theorem Quad.get_set_ne {α : Type} (q : Quad α) (k j : Cluster) (a : α) (h : j ≠ k) : (q.set k a).get j = q.get j := by
  cases k <;> cases j <;> first | rfl | exact absurd rfl h

@[simp] theorem Quad.set_set {α : Type} (q : Quad α) (k : Cluster) (a b : α) : (q.set k a).set k b = q.set k b := by
  cases k <;> rfl

@[simp] theorem Ctx.cl_setCl_self (c : Ctx) (k : Cluster) (x : ClusterState) : (c.setCl k x).cl k = x := by
  simp [Ctx.cl, Ctx.setCl]

theorem Ctx.cl_setCl_ne (c : Ctx) (k j : Cluster) (x : ClusterState) (h : j ≠ k) : (c.setCl k x).cl j = c.cl j := by
  simp [Ctx.cl, Ctx.setCl, Quad.get_set_ne _ _ _ _ h]

end Sys2Proof.Machine
end

