-- ==== Sys2Proof/Laws/Map.lean ====
section
/-! SUPPORT. Finite maps, byte memories and sets: reads after writes, and the canonical form. -/

namespace Sys2Proof

namespace FMap

variable {α : Type}

theorem lookup_dropKey_ne (l : List (Nat × α)) (k j : Nat) (h : j ≠ k) : lookup j (dropKey k l) = lookup j l := by
  induction l with
  | nil => rfl
  | cons e l ih =>
    obtain ⟨a, v⟩ := e
    by_cases ha : a = k
    · subst ha
      rw [dropKey, if_pos rfl, ih, lookup, if_neg (Ne.symm h)]
    · rw [dropKey, if_neg ha, lookup, lookup, ih]

theorem lookup_dropKey_self (l : List (Nat × α)) (k : Nat) : lookup k (dropKey k l) = none := by
  induction l with
  | nil => rfl
  | cons e l ih =>
    obtain ⟨a, v⟩ := e
    by_cases ha : a = k
    · rw [dropKey, if_pos ha, ih]
    · rw [dropKey, if_neg ha, lookup, if_neg ha, ih]

theorem lookup_putKey_ne (l : List (Nat × α)) (k j : Nat) (v : α) (h : j ≠ k) : lookup j (putKey k v l) = lookup j l := by
  induction l with
  | nil => simp [putKey, lookup, Ne.symm h]
  | cons e l ih =>
    obtain ⟨a, w⟩ := e
    by_cases ha : k < a
    · rw [putKey, if_pos ha, lookup, if_neg (Ne.symm h)]
    · rw [putKey, if_neg ha, lookup, lookup, ih]

theorem lookup_putKey_self (l : List (Nat × α)) (k : Nat) (v : α) (h : lookup k l = none) :
    lookup k (putKey k v l) = some v := by
  induction l with
  | nil => simp [putKey, lookup]
  | cons e l ih =>
    obtain ⟨a, w⟩ := e
    by_cases hk : a = k
    · rw [lookup, if_pos hk] at h
      exact absurd h (by simp)
    · rw [lookup, if_neg hk] at h
      by_cases ha : k < a
      · rw [putKey, if_pos ha, lookup, if_pos rfl]
      · rw [putKey, if_neg ha, lookup, if_neg hk, ih h]

@[simp] theorem find?_insert_self (m : FMap α) (k : Nat) (v : α) : (m.insert k v).find? k = some v :=
  lookup_putKey_self _ _ _ (lookup_dropKey_self _ _)

theorem find?_insert_ne (m : FMap α) (k j : Nat) (v : α) (h : j ≠ k) : (m.insert k v).find? j = m.find? j := by
  rw [find?, insert, lookup_putKey_ne _ _ _ _ h, lookup_dropKey_ne _ _ _ h, find?]

@[simp] theorem find?_erase_self (m : FMap α) (k : Nat) : (m.erase k).find? k = none := lookup_dropKey_self _ _

theorem find?_erase_ne (m : FMap α) (k j : Nat) (h : j ≠ k) : (m.erase k).find? j = m.find? j := lookup_dropKey_ne _ _ _ h

@[simp] theorem getD_insert_self (m : FMap α) (k : Nat) (v d : α) : (m.insert k v).getD k d = v := by simp [getD]

theorem getD_insert_ne (m : FMap α) (k j : Nat) (v d : α) (h : j ≠ k) : (m.insert k v).getD j d = m.getD j d := by
  rw [getD, find?_insert_ne _ _ _ _ h, getD]

@[simp] theorem find?_empty (k : Nat) : (empty : FMap α).find? k = none := rfl

/-! ### The canonical form -/

/-- Every key of a list of pairs lies above a bound. -/
def above (k : Nat) (l : List (Nat × α)) : Prop := ∀ e ∈ l, k < e.1

theorem sorted_cons (k : Nat) (v : α) (l : List (Nat × α)) : sorted ((k, v) :: l) = true ↔ above k l ∧ sorted l = true := by
  induction l generalizing k v with
  | nil => simp [sorted, above]
  | cons e l ih =>
    obtain ⟨j, w⟩ := e
    rw [sorted, Bool.and_eq_true, decide_eq_true_iff]
    constructor
    · rintro ⟨hk, hs⟩
      refine ⟨?_, hs⟩
      intro e he
      rcases List.mem_cons.mp he with rfl | he
      · exact hk
      · exact Nat.lt_trans hk (((ih j w).mp hs).1 e he)
    · rintro ⟨ha, hs⟩
      exact ⟨ha (j, w) (List.mem_cons_self ..), hs⟩

theorem mem_dropKey (l : List (Nat × α)) (k : Nat) (e : Nat × α) (h : e ∈ dropKey k l) : e ∈ l ∧ e.1 ≠ k := by
  induction l with
  | nil => cases h
  | cons a l ih =>
    obtain ⟨j, v⟩ := a
    by_cases hj : j = k
    · rw [dropKey, if_pos hj] at h
      exact ⟨List.mem_cons_of_mem _ (ih h).1, (ih h).2⟩
    · rw [dropKey, if_neg hj] at h
      rcases List.mem_cons.mp h with rfl | h
      · exact ⟨List.mem_cons_self .., hj⟩
      · exact ⟨List.mem_cons_of_mem _ (ih h).1, (ih h).2⟩

theorem sorted_dropKey (l : List (Nat × α)) (k : Nat) (h : sorted l = true) : sorted (dropKey k l) = true := by
  induction l with
  | nil => rfl
  | cons e l ih =>
    obtain ⟨j, v⟩ := e
    obtain ⟨ha, hs⟩ := (sorted_cons j v l).mp h
    by_cases hj : j = k
    · rw [dropKey, if_pos hj]
      exact ih hs
    · rw [dropKey, if_neg hj, sorted_cons]
      exact ⟨fun e he => ha e (mem_dropKey l k e he).1, ih hs⟩

theorem mem_putKey (l : List (Nat × α)) (k : Nat) (v : α) (e : Nat × α) (h : e ∈ putKey k v l) : e = (k, v) ∨ e ∈ l := by
  induction l with
  | nil => exact .inl (by simpa [putKey] using h)
  | cons a l ih =>
    obtain ⟨j, w⟩ := a
    by_cases hk : k < j
    · rw [putKey, if_pos hk] at h
      exact List.mem_cons.mp h
    · rw [putKey, if_neg hk] at h
      rcases List.mem_cons.mp h with rfl | h
      · exact .inr (List.mem_cons_self ..)
      · exact (ih h).imp_right (List.mem_cons_of_mem _)

theorem sorted_putKey (l : List (Nat × α)) (k : Nat) (v : α) (hk : ∀ e ∈ l, e.1 ≠ k) (h : sorted l = true) :
    sorted (putKey k v l) = true := by
  induction l with
  | nil => rfl
  | cons a l ih =>
    obtain ⟨j, w⟩ := a
    obtain ⟨ha, hs⟩ := (sorted_cons j w l).mp h
    have hj : j ≠ k := hk (j, w) (List.mem_cons_self ..)
    by_cases hlt : k < j
    · rw [putKey, if_pos hlt, sorted_cons]
      refine ⟨?_, h⟩
      intro e he
      rcases List.mem_cons.mp he with rfl | he
      · exact hlt
      · exact Nat.lt_trans hlt (ha e he)
    · rw [putKey, if_neg hlt, sorted_cons]
      refine ⟨?_, ih (fun e he => hk e (List.mem_cons_of_mem _ he)) hs⟩
      intro e he
      rcases mem_putKey l k v e he with rfl | he
      · show j < k
        omega
      · exact ha e he

theorem sorted_erase (m : FMap α) (k : Nat) (h : sorted m.items = true) : sorted (m.erase k).items = true :=
  sorted_dropKey _ _ h

theorem sorted_insert (m : FMap α) (k : Nat) (v : α) (h : sorted m.items = true) : sorted (m.insert k v).items = true :=
  sorted_putKey _ _ _ (fun e he => (mem_dropKey _ _ e he).2) (sorted_dropKey _ _ h)

theorem sorted_filter (m : FMap α) (p : Nat → α → Bool) (h : sorted m.items = true) : sorted (m.filter p).items = true := by
  obtain ⟨l⟩ := m
  show sorted (l.filter fun e => p e.1 e.2) = true
  change sorted l = true at h
  induction l with
  | nil => rfl
  | cons e l ih =>
    obtain ⟨j, v⟩ := e
    obtain ⟨ha, hs⟩ := (sorted_cons j v l).mp h
    rw [List.filter_cons]
    split
    · exact (sorted_cons j v _).mpr ⟨fun e he => ha e (List.mem_filter.mp he).1, ih hs⟩
    · exact ih hs

end FMap

namespace Mem

@[simp] theorem read_empty (a : Nat) : read .empty a = 0 := rfl

@[simp] theorem read_write_self (m : Mem) (a : Nat) (b : Byte) : (m.write a b).read a = b := by
  unfold write
  split
  · rename_i h
    simp [read, FMap.getD, h]
  · simp [read]

theorem read_write_ne (m : Mem) (a j : Nat) (b : Byte) (h : j ≠ a) : (m.write a b).read j = m.read j := by
  unfold write
  split
  · simp [read, FMap.getD, FMap.find?_erase_ne _ _ _ h]
  · simp [read, FMap.getD, FMap.find?_insert_ne _ _ _ _ h]

theorem read_writeBytes_outside (l : List Byte) (m : Mem) (a j : Nat) (h : j < a ∨ a + l.length ≤ j) :
    (m.writeBytes a l).read j = m.read j := by
  induction l generalizing m a with
  | nil => rfl
  | cons b l ih =>
    simp only [List.length_cons] at h
    rw [writeBytes, ih (m.write a b) (a + 1) (by omega), read_write_ne _ _ _ _ (by omega)]

theorem readBytes_writeBytes (l : List Byte) (m : Mem) (a : Nat) : (m.writeBytes a l).readBytes a l.length = l := by
  induction l generalizing m a with
  | nil => rfl
  | cons b l ih =>
    rw [writeBytes, List.length_cons, readBytes, ih (m.write a b) (a + 1), read_writeBytes_outside l _ _ _ (.inl (by omega)),
      read_write_self]

theorem wf_empty : wf .empty = true := rfl

theorem wf_iff (m : Mem) : m.wf = true ↔ FMap.sorted m.items = true ∧ ∀ e ∈ m.items, e.2 ≠ 0 := by
  simp [wf]

/-- A write keeps the canonical form. -/
theorem wf_write (m : Mem) (a : Nat) (b : Byte) (h : m.wf = true) : (m.write a b).wf = true := by
  obtain ⟨hs, hn⟩ := (wf_iff m).mp h
  unfold write
  split
  · exact (wf_iff _).mpr ⟨FMap.sorted_erase m a hs, fun e he => hn e (FMap.mem_dropKey _ _ e he).1⟩
  · rename_i hb
    refine (wf_iff _).mpr ⟨FMap.sorted_insert m a b hs, fun e he => ?_⟩
    rcases FMap.mem_putKey _ _ _ e he with rfl | he
    · exact hb
    · exact hn e (FMap.mem_dropKey _ _ e he).1

theorem wf_writeBytes (l : List Byte) (m : Mem) (a : Nat) (h : m.wf = true) : (m.writeBytes a l).wf = true := by
  induction l generalizing m a with
  | nil => exact h
  | cons b l ih => exact ih (m.write a b) (a + 1) (wf_write m a b h)

theorem wf_filter (m : Mem) (p : Nat → Byte → Bool) (h : m.wf = true) : wf (m.filter p) = true := by
  obtain ⟨hs, hn⟩ := (wf_iff m).mp h
  exact (wf_iff _).mpr ⟨FMap.sorted_filter m p hs, fun e he => hn e (List.mem_filter.mp he).1⟩

end Mem

namespace Machine

@[simp] theorem State.ctx?_setCtx_self (s : State) (k : Nat) (c : Ctx) : (s.setCtx k c).ctx? k = some c :=
  FMap.find?_insert_self _ _ _

theorem State.ctx?_setCtx_ne (s : State) (k j : Nat) (c : Ctx) (h : j ≠ k) : (s.setCtx k c).ctx? j = s.ctx? j :=
  FMap.find?_insert_ne _ _ _ _ h

@[simp] theorem State.core_setCore_self (s : State) (k : Nat) (m : CoreState) : (s.setCore k m).core k = m :=
  FMap.getD_insert_self _ _ _ _

theorem State.core_setCore_ne (s : State) (k j : Nat) (m : CoreState) (h : j ≠ k) : (s.setCore k m).core j = s.core j :=
  FMap.getD_insert_ne _ _ _ _ _ h

@[simp] theorem State.die_setDie_self (s : State) (d : Nat) (v : Die) : (s.setDie d v).die d = v :=
  FMap.getD_insert_self _ _ _ _

theorem State.die_setDie_ne (s : State) (d j : Nat) (v : Die) (h : j ≠ d) : (s.setDie d v).die j = s.die j :=
  FMap.getD_insert_ne _ _ _ _ _ h

theorem State.modCtx_of_ctx? (s : State) (k : Nat) (f : Ctx → Ctx) (c : Ctx) (h : s.ctx? k = some c) :
    s.modCtx k f = s.setCtx k (f c) := by
  simp [State.modCtx, h]

/-- A context that is changed and is there reads as changed. -/
theorem State.ctx?_modCtx_self (s : State) (k : Nat) (f : Ctx → Ctx) : (s.modCtx k f).ctx? k = (s.ctx? k).map f := by
  unfold State.modCtx
  cases h : s.ctx? k <;> simp [h]

theorem State.ctx?_modCtx_ne (s : State) (k j : Nat) (f : Ctx → Ctx) (h : j ≠ k) : (s.modCtx k f).ctx? j = s.ctx? j := by
  unfold State.modCtx
  split
  · rfl
  · exact State.ctx?_setCtx_ne _ _ _ _ h

/-- A scratchpad byte reads as written (R148). -/
theorem CoreState.get_put_self (m : CoreState) (o : Nat) (b : Byte) (h : m.lines.has (o / 64) = true) : (m.put o b).get o = b := by
  simp [CoreState.put, CoreState.get, h]

theorem CoreState.get_put_ne (m : CoreState) (o j : Nat) (b : Byte) (h : m.lines.has (o / 64) = true) (hj : j ≠ o) :
    (m.put o b).get j = m.get j := by
  simp [CoreState.put, CoreState.get, h, Mem.read_write_ne _ _ _ _ hj]

/-- The scratchpad keeps the canonical form of its bytes under a write. -/
theorem CoreState.put_wf (m : CoreState) (o : Nat) (b : Byte) (h : m.bytes.wf = true) : (m.put o b).bytes.wf = true := by
  unfold CoreState.put
  split
  · exact Mem.wf_write _ _ _ h
  · exact Mem.wf_write _ _ _ (Mem.wf_filter _ _ h)

theorem CoreState.puts_wf (l : List Byte) (m : CoreState) (o : Nat) (h : m.bytes.wf = true) : (m.puts o l).bytes.wf = true := by
  induction l generalizing m o with
  | nil => exact h
  | cons b l ih => exact ih (m.put o b) (o + 1) (CoreState.put_wf m o b h)

/-- The memories of the machine after reset are in their canonical form. -/
theorem State.reset_hbm_wf : State.reset.hbm.wf = true := rfl

end Machine

end Sys2Proof
end

