-- ==== Sys2Proof/Laws/Issue.lean ====
section
/-! SUPPORT. What examining a word comes to, case by case. -/

namespace Sys2Proof.Machine

open Sys2Proof.Safety

/-! ### The context in which an issuing word takes effect -/

/-- What no pop, no cluster, no noted PC and no counter decides is as it was before the word issued. -/
theorem Ctx.issueOn_keeps {α : Type} (g : Ctx → α) (hpop : ∀ c q, g (c.pop q) = g c) (hcl : ∀ c k x, g (c.setCl k x) = g c)
    (hpc : ∀ c v, g { c with issuedPcs := v } = g c) (hctr : ∀ c v, g { c with ctr := v } = g c) (c : Ctx) (k : Cluster) (u : Uses)
    (p : Bool) : g (c.issueOn k u p) = g c := by
  have pops : ∀ (l : List Nat) (c : Ctx), g (l.foldl (fun c i => c.pop (inQueue k i)) c) = g c := by
    intro l
    induction l with
    | nil => exact fun _ => rfl
    | cons a l ih => exact fun c => (ih _).trans (hpop _ _)
  unfold Ctx.issueOn
  extract_lets x c1 c2 c3
  have h3 : g c3 = g c := (hpc c2 _).trans ((pops _ c1).trans (hcl _ _ _))
  split
  · exact (hctr c3 _).trans h3
  · exact h3

theorem Ctx.cls_issueOn (c : Ctx) (k : Cluster) (u : Uses) (p : Bool) :
    (c.issueOn k u p).cls = c.cls.set k { c.cl k with run := .run, qblk := 0, qdir := false } := by
  have pops : ∀ (l : List Nat) (c : Ctx), (l.foldl (fun c i => c.pop (inQueue k i)) c).cls = c.cls := by
    intro l
    induction l with
    | nil => exact fun _ => rfl
    | cons a l ih => exact fun c => (ih _).trans rfl
  unfold Ctx.issueOn
  dsimp only
  split <;> simp [pops, Ctx.setCl]

@[simp] theorem Ctx.issueOn_who (c : Ctx) (k : Cluster) (u : Uses) (p : Bool) : (c.issueOn k u p).who = c.who :=
  Ctx.issueOn_keeps (fun c => c.who) (fun _ _ => rfl) (fun _ _ _ => rfl) (fun _ _ => rfl) (fun _ _ => rfl) c k u p
@[simp] theorem Ctx.issueOn_status (c : Ctx) (k : Cluster) (u : Uses) (p : Bool) : (c.issueOn k u p).status = c.status :=
  Ctx.issueOn_keeps (fun c => c.status) (fun _ _ => rfl) (fun _ _ _ => rfl) (fun _ _ => rfl) (fun _ _ => rfl) c k u p
@[simp] theorem Ctx.issueOn_phase (c : Ctx) (k : Cluster) (u : Uses) (p : Bool) : (c.issueOn k u p).phase = c.phase :=
  Ctx.issueOn_keeps (fun c => c.phase) (fun _ _ => rfl) (fun _ _ _ => rfl) (fun _ _ => rfl) (fun _ _ => rfl) c k u p
@[simp] theorem Ctx.issueOn_epc (c : Ctx) (k : Cluster) (u : Uses) (p : Bool) : (c.issueOn k u p).epc = c.epc :=
  Ctx.issueOn_keeps (fun c => c.epc) (fun _ _ => rfl) (fun _ _ _ => rfl) (fun _ _ => rfl) (fun _ _ => rfl) c k u p
@[simp] theorem Ctx.issueOn_entry (c : Ctx) (k : Cluster) (u : Uses) (p : Bool) : (c.issueOn k u p).entry = c.entry :=
  Ctx.issueOn_keeps (fun c => c.entry) (fun _ _ => rfl) (fun _ _ _ => rfl) (fun _ _ => rfl) (fun _ _ => rfl) c k u p
@[simp] theorem Ctx.issueOn_code (c : Ctx) (k : Cluster) (u : Uses) (p : Bool) : (c.issueOn k u p).code = c.code :=
  Ctx.issueOn_keeps (fun c => c.code) (fun _ _ => rfl) (fun _ _ _ => rfl) (fun _ _ => rfl) (fun _ _ => rfl) c k u p
@[simp] theorem Ctx.issueOn_forkset (c : Ctx) (k : Cluster) (u : Uses) (p : Bool) : (c.issueOn k u p).forkset = c.forkset :=
  Ctx.issueOn_keeps (fun c => c.forkset) (fun _ _ => rfl) (fun _ _ _ => rfl) (fun _ _ => rfl) (fun _ _ => rfl) c k u p
@[simp] theorem Ctx.issueOn_landings (c : Ctx) (k : Cluster) (u : Uses) (p : Bool) : (c.issueOn k u p).landings = c.landings :=
  Ctx.issueOn_keeps (fun c => c.landings) (fun _ _ => rfl) (fun _ _ _ => rfl) (fun _ _ => rfl) (fun _ _ => rfl) c k u p
@[simp] theorem Ctx.issueOn_time (c : Ctx) (k : Cluster) (u : Uses) (p : Bool) : (c.issueOn k u p).time = c.time :=
  Ctx.issueOn_keeps (fun c => c.time) (fun _ _ => rfl) (fun _ _ _ => rfl) (fun _ _ => rfl) (fun _ _ => rfl) c k u p
@[simp] theorem Ctx.issueOn_susp (c : Ctx) (k : Cluster) (u : Uses) (p : Bool) : (c.issueOn k u p).susp = c.susp :=
  Ctx.issueOn_keeps (fun c => c.susp) (fun _ _ => rfl) (fun _ _ _ => rfl) (fun _ _ => rfl) (fun _ _ => rfl) c k u p
@[simp] theorem Ctx.issueOn_deadlock (c : Ctx) (k : Cluster) (u : Uses) (p : Bool) : (c.issueOn k u p).deadlock = c.deadlock :=
  Ctx.issueOn_keeps (fun c => c.deadlock) (fun _ _ => rfl) (fun _ _ _ => rfl) (fun _ _ => rfl) (fun _ _ => rfl) c k u p
@[simp] theorem Ctx.issueOn_verdict (c : Ctx) (k : Cluster) (u : Uses) (p : Bool) : (c.issueOn k u p).verdict = c.verdict :=
  Ctx.issueOn_keeps (fun c => c.verdict) (fun _ _ => rfl) (fun _ _ _ => rfl) (fun _ _ => rfl) (fun _ _ => rfl) c k u p
@[simp] theorem Ctx.issueOn_bundle (c : Ctx) (k : Cluster) (u : Uses) (p : Bool) : (c.issueOn k u p).bundle = c.bundle :=
  Ctx.issueOn_keeps (fun c => c.bundle) (fun _ _ => rfl) (fun _ _ _ => rfl) (fun _ _ => rfl) (fun _ _ => rfl) c k u p
@[simp] theorem Ctx.issueOn_issuedCls (c : Ctx) (k : Cluster) (u : Uses) (p : Bool) : (c.issueOn k u p).issuedCls = c.issuedCls :=
  Ctx.issueOn_keeps (fun c => c.issuedCls) (fun _ _ => rfl) (fun _ _ _ => rfl) (fun _ _ => rfl) (fun _ _ => rfl) c k u p
@[simp] theorem Ctx.issueOn_xPort (c : Ctx) (k : Cluster) (u : Uses) (p : Bool) : (c.issueOn k u p).xPort = c.xPort :=
  Ctx.issueOn_keeps (fun c => c.xPort) (fun _ _ => rfl) (fun _ _ _ => rfl) (fun _ _ => rfl) (fun _ _ => rfl) c k u p
@[simp] theorem Ctx.issueOn_heard (c : Ctx) (k : Cluster) (u : Uses) (p : Bool) : (c.issueOn k u p).heard = c.heard :=
  Ctx.issueOn_keeps (fun c => c.heard) (fun _ _ => rfl) (fun _ _ _ => rfl) (fun _ _ => rfl) (fun _ _ => rfl) c k u p
@[simp] theorem Ctx.issueOn_learnt (c : Ctx) (k : Cluster) (u : Uses) (p : Bool) : (c.issueOn k u p).learnt = c.learnt :=
  Ctx.issueOn_keeps (fun c => c.learnt) (fun _ _ => rfl) (fun _ _ _ => rfl) (fun _ _ => rfl) (fun _ _ => rfl) c k u p
@[simp] theorem Ctx.issueOn_fenced (c : Ctx) (k : Cluster) (u : Uses) (p : Bool) : (c.issueOn k u p).fenced = c.fenced :=
  Ctx.issueOn_keeps (fun c => c.fenced) (fun _ _ => rfl) (fun _ _ _ => rfl) (fun _ _ => rfl) (fun _ _ => rfl) c k u p
@[simp] theorem Ctx.issueOn_tlb (c : Ctx) (k : Cluster) (u : Uses) (p : Bool) : (c.issueOn k u p).tlb = c.tlb :=
  Ctx.issueOn_keeps (fun c => c.tlb) (fun _ _ => rfl) (fun _ _ _ => rfl) (fun _ _ => rfl) (fun _ _ => rfl) c k u p
@[simp] theorem Ctx.issueOn_claims (c : Ctx) (k : Cluster) (u : Uses) (p : Bool) : (c.issueOn k u p).claims = c.claims :=
  Ctx.issueOn_keeps (fun c => c.claims) (fun _ _ => rfl) (fun _ _ _ => rfl) (fun _ _ => rfl) (fun _ _ => rfl) c k u p
@[simp] theorem Ctx.issueOn_staged (c : Ctx) (k : Cluster) (u : Uses) (p : Bool) : (c.issueOn k u p).staged = c.staged :=
  Ctx.issueOn_keeps (fun c => c.staged) (fun _ _ => rfl) (fun _ _ _ => rfl) (fun _ _ => rfl) (fun _ _ => rfl) c k u p
@[simp] theorem Ctx.issueOn_traps (c : Ctx) (k : Cluster) (u : Uses) (p : Bool) : (c.issueOn k u p).traps = c.traps :=
  Ctx.issueOn_keeps (fun c => c.traps) (fun _ _ => rfl) (fun _ _ _ => rfl) (fun _ _ => rfl) (fun _ _ => rfl) c k u p
@[simp] theorem Ctx.issueOn_async (c : Ctx) (k : Cluster) (u : Uses) (p : Bool) : (c.issueOn k u p).async = c.async :=
  Ctx.issueOn_keeps (fun c => c.async) (fun _ _ => rfl) (fun _ _ _ => rfl) (fun _ _ => rfl) (fun _ _ => rfl) c k u p
@[simp] theorem Ctx.issueOn_ends (c : Ctx) (k : Cluster) (u : Uses) (p : Bool) : (c.issueOn k u p).ends = c.ends :=
  Ctx.issueOn_keeps (fun c => c.ends) (fun _ _ => rfl) (fun _ _ _ => rfl) (fun _ _ => rfl) (fun _ _ => rfl) c k u p
@[simp] theorem Ctx.issueOn_yields (c : Ctx) (k : Cluster) (u : Uses) (p : Bool) : (c.issueOn k u p).yields = c.yields :=
  Ctx.issueOn_keeps (fun c => c.yields) (fun _ _ => rfl) (fun _ _ _ => rfl) (fun _ _ => rfl) (fun _ _ => rfl) c k u p
@[simp] theorem Ctx.issueOn_coreCtl (c : Ctx) (k : Cluster) (u : Uses) (p : Bool) : (c.issueOn k u p).coreCtl = c.coreCtl :=
  Ctx.issueOn_keeps (fun c => c.coreCtl) (fun _ _ => rfl) (fun _ _ _ => rfl) (fun _ _ => rfl) (fun _ _ => rfl) c k u p
@[simp] theorem Ctx.issueOn_cause (c : Ctx) (k : Cluster) (u : Uses) (p : Bool) : (c.issueOn k u p).cause = c.cause :=
  Ctx.issueOn_keeps (fun c => c.cause) (fun _ _ => rfl) (fun _ _ _ => rfl) (fun _ _ => rfl) (fun _ _ => rfl) c k u p
@[simp] theorem Ctx.issueOn_ctxArea (c : Ctx) (k : Cluster) (u : Uses) (p : Bool) : (c.issueOn k u p).ctxArea = c.ctxArea :=
  Ctx.issueOn_keeps (fun c => c.ctxArea) (fun _ _ => rfl) (fun _ _ _ => rfl) (fun _ _ => rfl) (fun _ _ => rfl) c k u p
@[simp] theorem Ctx.issueOn_traceBase (c : Ctx) (k : Cluster) (u : Uses) (p : Bool) : (c.issueOn k u p).traceBase = c.traceBase :=
  Ctx.issueOn_keeps (fun c => c.traceBase) (fun _ _ => rfl) (fun _ _ _ => rfl) (fun _ _ => rfl) (fun _ _ => rfl) c k u p
@[simp] theorem Ctx.issueOn_traced (c : Ctx) (k : Cluster) (u : Uses) (p : Bool) : (c.issueOn k u p).traced = c.traced :=
  Ctx.issueOn_keeps (fun c => c.traced) (fun _ _ => rfl) (fun _ _ _ => rfl) (fun _ _ => rfl) (fun _ _ => rfl) c k u p
@[simp] theorem Ctx.issueOn_xroot (c : Ctx) (k : Cluster) (u : Uses) (p : Bool) : (c.issueOn k u p).xroot = c.xroot :=
  Ctx.issueOn_keeps (fun c => c.xroot) (fun _ _ => rfl) (fun _ _ _ => rfl) (fun _ _ => rfl) (fun _ _ => rfl) c k u p
@[simp] theorem Ctx.issueOn_rgn (c : Ctx) (k : Cluster) (u : Uses) (p : Bool) : (c.issueOn k u p).rgn = c.rgn :=
  Ctx.issueOn_keeps (fun c => c.rgn) (fun _ _ => rfl) (fun _ _ _ => rfl) (fun _ _ => rfl) (fun _ _ => rfl) c k u p
@[simp] theorem Ctx.issueOn_mrf (c : Ctx) (k : Cluster) (u : Uses) (p : Bool) : (c.issueOn k u p).mrf = c.mrf :=
  Ctx.issueOn_keeps (fun c => c.mrf) (fun _ _ => rfl) (fun _ _ _ => rfl) (fun _ _ => rfl) (fun _ _ => rfl) c k u p
@[simp] theorem Ctx.issueOn_array (c : Ctx) (k : Cluster) (u : Uses) (p : Bool) : (c.issueOn k u p).array = c.array :=
  Ctx.issueOn_keeps (fun c => c.array) (fun _ _ => rfl) (fun _ _ _ => rfl) (fun _ _ => rfl) (fun _ _ => rfl) c k u p
@[simp] theorem Ctx.issueOn_holds (c : Ctx) (k : Cluster) (u : Uses) (p : Bool) : (c.issueOn k u p).holds = c.holds :=
  Ctx.issueOn_keeps (fun c => c.holds) (fun _ _ => rfl) (fun _ _ _ => rfl) (fun _ _ => rfl) (fun _ _ => rfl) c k u p
@[simp] theorem Ctx.issueOn_cmdHolds (c : Ctx) (k : Cluster) (u : Uses) (p : Bool) : (c.issueOn k u p).cmdHolds = c.cmdHolds :=
  Ctx.issueOn_keeps (fun c => c.cmdHolds) (fun _ _ => rfl) (fun _ _ _ => rfl) (fun _ _ => rfl) (fun _ _ => rfl) c k u p
@[simp] theorem Ctx.issueOn_flushBits (c : Ctx) (k : Cluster) (u : Uses) (p : Bool) : (c.issueOn k u p).flushBits = c.flushBits :=
  Ctx.issueOn_keeps (fun c => c.flushBits) (fun _ _ => rfl) (fun _ _ _ => rfl) (fun _ _ => rfl) (fun _ _ => rfl) c k u p
@[simp] theorem Ctx.issueOn_flushing (c : Ctx) (k : Cluster) (u : Uses) (p : Bool) : (c.issueOn k u p).flushing = c.flushing :=
  Ctx.issueOn_keeps (fun c => c.flushing) (fun _ _ => rfl) (fun _ _ _ => rfl) (fun _ _ => rfl) (fun _ _ => rfl) c k u p
@[simp] theorem Ctx.issueOn_took (c : Ctx) (k : Cluster) (u : Uses) (p : Bool) : (c.issueOn k u p).took = c.took :=
  Ctx.issueOn_keeps (fun c => c.took) (fun _ _ => rfl) (fun _ _ _ => rfl) (fun _ _ => rfl) (fun _ _ => rfl) c k u p
@[simp] theorem Ctx.issueOn_deferred (c : Ctx) (k : Cluster) (u : Uses) (p : Bool) : (c.issueOn k u p).deferred = c.deferred :=
  Ctx.issueOn_keeps (fun c => c.deferred) (fun _ _ => rfl) (fun _ _ _ => rfl) (fun _ _ => rfl) (fun _ _ => rfl) c k u p
@[simp] theorem Ctx.issueOn_peerNodes (c : Ctx) (k : Cluster) (u : Uses) (p : Bool) : (c.issueOn k u p).peerNodes = c.peerNodes :=
  Ctx.issueOn_keeps (fun c => c.peerNodes) (fun _ _ => rfl) (fun _ _ _ => rfl) (fun _ _ => rfl) (fun _ _ => rfl) c k u p
@[simp] theorem Ctx.issueOn_pushes (c : Ctx) (k : Cluster) (u : Uses) (p : Bool) : (c.issueOn k u p).pushes = c.pushes :=
  Ctx.issueOn_keeps (fun c => c.pushes) (fun _ _ => rfl) (fun _ _ _ => rfl) (fun _ _ => rfl) (fun _ _ => rfl) c k u p
@[simp] theorem Ctx.issueOn_launches (c : Ctx) (k : Cluster) (u : Uses) (p : Bool) : (c.issueOn k u p).launches = c.launches :=
  Ctx.issueOn_keeps (fun c => c.launches) (fun _ _ => rfl) (fun _ _ _ => rfl) (fun _ _ => rfl) (fun _ _ => rfl) c k u p
@[simp] theorem Ctx.issueOn_digest (c : Ctx) (k : Cluster) (u : Uses) (p : Bool) : (c.issueOn k u p).digest = c.digest :=
  Ctx.issueOn_keeps (fun c => c.digest) (fun _ _ => rfl) (fun _ _ _ => rfl) (fun _ _ => rfl) (fun _ _ => rfl) c k u p
@[simp] theorem Ctx.issueOn_saveSlot (c : Ctx) (k : Cluster) (u : Uses) (p : Bool) : (c.issueOn k u p).saveSlot = c.saveSlot :=
  Ctx.issueOn_keeps (fun c => c.saveSlot) (fun _ _ => rfl) (fun _ _ _ => rfl) (fun _ _ => rfl) (fun _ _ => rfl) c k u p
@[simp] theorem Ctx.issueOn_semFault (c : Ctx) (k : Cluster) (u : Uses) (p : Bool) : (c.issueOn k u p).semFault = c.semFault :=
  Ctx.issueOn_keeps (fun c => c.semFault) (fun _ _ => rfl) (fun _ _ _ => rfl) (fun _ _ => rfl) (fun _ _ => rfl) c k u p
@[simp] theorem Ctx.issueOn_moves (c : Ctx) (k : Cluster) (u : Uses) (p : Bool) : (c.issueOn k u p).moves = c.moves :=
  Ctx.issueOn_keeps (fun c => c.moves) (fun _ _ => rfl) (fun _ _ _ => rfl) (fun _ _ => rfl) (fun _ _ => rfl) c k u p
@[simp] theorem Ctx.issueOn_records (c : Ctx) (k : Cluster) (u : Uses) (p : Bool) : (c.issueOn k u p).records = c.records :=
  Ctx.issueOn_keeps (fun c => c.records) (fun _ _ => rfl) (fun _ _ _ => rfl) (fun _ _ => rfl) (fun _ _ => rfl) c k u p
@[simp] theorem Ctx.issueOn_away (c : Ctx) (k : Cluster) (u : Uses) (p : Bool) : (c.issueOn k u p).away = c.away :=
  Ctx.issueOn_keeps (fun c => c.away) (fun _ _ => rfl) (fun _ _ _ => rfl) (fun _ _ => rfl) (fun _ _ => rfl) c k u p

@[simp] theorem Ctx.cl_issueOn (c : Ctx) (k : Cluster) (u : Uses) (p : Bool) :
    (c.issueOn k u p).cl k = { c.cl k with run := .run, qblk := 0, qdir := false } := by
  simp [Ctx.cl, Ctx.cls_issueOn]

theorem Ctx.cl_issueOn_ne (c : Ctx) (k j : Cluster) (u : Uses) (p : Bool) (h : j ≠ k) : (c.issueOn k u p).cl j = c.cl j := by
  simp [Ctx.cl, Ctx.cls_issueOn, Quad.get_set_ne _ _ _ _ h]

@[simp] theorem issuing_ctx? (s : State) (c : Ctx) (h : Hdr) (u : Uses) :
    (issuing s c h u).ctx? s.focus.1 = some (c.issueOn s.focus.2 u (Pends c s.focus.2 h u)) := by simp [issuing]

@[simp] theorem issuing_core (s : State) (c : Ctx) (h : Hdr) (u : Uses) (k : Nat) : (issuing s c h u).core k = s.core k := rfl

@[simp] theorem issuing_die (s : State) (c : Ctx) (h : Hdr) (u : Uses) (k : Nat) : (issuing s c h u).die k = s.die k := rfl

@[simp] theorem issuing_agenda (s : State) (c : Ctx) (h : Hdr) (u : Uses) : (issuing s c h u).agenda = s.agenda := rfl
@[simp] theorem issuing_slots (s : State) (c : Ctx) (h : Hdr) (u : Uses) : (issuing s c h u).slots = s.slots := rfl
@[simp] theorem issuing_focus (s : State) (c : Ctx) (h : Hdr) (u : Uses) : (issuing s c h u).focus = s.focus := rfl
@[simp] theorem issuing_serial (s : State) (c : Ctx) (h : Hdr) (u : Uses) : (issuing s c h u).serial = s.serial := rfl
@[simp] theorem issuing_cores (s : State) (c : Ctx) (h : Hdr) (u : Uses) : (issuing s c h u).cores = s.cores := rfl
@[simp] theorem issuing_dies (s : State) (c : Ctx) (h : Hdr) (u : Uses) : (issuing s c h u).dies = s.dies := rfl
@[simp] theorem issuing_net (s : State) (c : Ctx) (h : Hdr) (u : Uses) : (issuing s c h u).net = s.net := rfl
@[simp] theorem issuing_cmds (s : State) (c : Ctx) (h : Hdr) (u : Uses) : (issuing s c h u).cmds = s.cmds := rfl
@[simp] theorem issuing_hbm (s : State) (c : Ctx) (h : Hdr) (u : Uses) : (issuing s c h u).hbm = s.hbm := rfl
@[simp] theorem issuing_hostMem (s : State) (c : Ctx) (h : Hdr) (u : Uses) : (issuing s c h u).hostMem = s.hostMem := rfl
@[simp] theorem issuing_peerMem (s : State) (c : Ctx) (h : Hdr) (u : Uses) : (issuing s c h u).peerMem = s.peerMem := rfl
@[simp] theorem issuing_poison (s : State) (c : Ctx) (h : Hdr) (u : Uses) : (issuing s c h u).poison = s.poison := rfl
@[simp] theorem issuing_retired (s : State) (c : Ctx) (h : Hdr) (u : Uses) : (issuing s c h u).retired = s.retired := rfl
@[simp] theorem issuing_errors (s : State) (c : Ctx) (h : Hdr) (u : Uses) : (issuing s c h u).errors = s.errors := rfl
@[simp] theorem issuing_runs (s : State) (c : Ctx) (h : Hdr) (u : Uses) : (issuing s c h u).runs = s.runs := rfl
@[simp] theorem issuing_gangs (s : State) (c : Ctx) (h : Hdr) (u : Uses) : (issuing s c h u).gangs = s.gangs := rfl
@[simp] theorem issuing_launches (s : State) (c : Ctx) (h : Hdr) (u : Uses) : (issuing s c h u).launches = s.launches := rfl
@[simp] theorem issuing_childWaits (s : State) (c : Ctx) (h : Hdr) (u : Uses) : (issuing s c h u).childWaits = s.childWaits := rfl
@[simp] theorem issuing_offers (s : State) (c : Ctx) (h : Hdr) (u : Uses) : (issuing s c h u).offers = s.offers := rfl
@[simp] theorem issuing_reports (s : State) (c : Ctx) (h : Hdr) (u : Uses) : (issuing s c h u).reports = s.reports := rfl
@[simp] theorem issuing_links (s : State) (c : Ctx) (h : Hdr) (u : Uses) : (issuing s c h u).links = s.links := rfl
@[simp] theorem issuing_zone (s : State) (c : Ctx) (h : Hdr) (u : Uses) : (issuing s c h u).zone = s.zone := rfl
@[simp] theorem issuing_zoneCopy (s : State) (c : Ctx) (h : Hdr) (u : Uses) : (issuing s c h u).zoneCopy = s.zoneCopy := rfl
@[simp] theorem issuing_calib (s : State) (c : Ctx) (h : Hdr) (u : Uses) : (issuing s c h u).calib = s.calib := rfl
@[simp] theorem issuing_resetSince (s : State) (c : Ctx) (h : Hdr) (u : Uses) : (issuing s c h u).resetSince = s.resetSince := rfl
@[simp] theorem issuing_deskewing (s : State) (c : Ctx) (h : Hdr) (u : Uses) : (issuing s c h u).deskewing = s.deskewing := rfl
@[simp] theorem issuing_hostCtxs (s : State) (c : Ctx) (h : Hdr) (u : Uses) : (issuing s c h u).hostCtxs = s.hostCtxs := rfl
@[simp] theorem issuing_keys (s : State) (c : Ctx) (h : Hdr) (u : Uses) : (issuing s c h u).keys = s.keys := rfl
@[simp] theorem issuing_log (s : State) (c : Ctx) (h : Hdr) (u : Uses) : (issuing s c h u).log = s.log := rfl
@[simp] theorem issuing_logFull (s : State) (c : Ctx) (h : Hdr) (u : Uses) : (issuing s c h u).logFull = s.logFull := rfl
@[simp] theorem issuing_logLost (s : State) (c : Ctx) (h : Hdr) (u : Uses) : (issuing s c h u).logLost = s.logLost := rfl
@[simp] theorem issuing_journal (s : State) (c : Ctx) (h : Hdr) (u : Uses) : (issuing s c h u).journal = s.journal := rfl
@[simp] theorem issuing_fw (s : State) (c : Ctx) (h : Hdr) (u : Uses) : (issuing s c h u).fw = s.fw := rfl
@[simp] theorem issuing_admin (s : State) (c : Ctx) (h : Hdr) (u : Uses) : (issuing s c h u).admin = s.admin := rfl
@[simp] theorem issuing_boots (s : State) (c : Ctx) (h : Hdr) (u : Uses) : (issuing s c h u).boots = s.boots := rfl
@[simp] theorem issuing_seqs (s : State) (c : Ctx) (h : Hdr) (u : Uses) : (issuing s c h u).seqs = s.seqs := rfl
@[simp] theorem issuing_pq (s : State) (c : Ctx) (h : Hdr) (u : Uses) : (issuing s c h u).pq = s.pq := rfl
@[simp] theorem issuing_depthTab (s : State) (c : Ctx) (h : Hdr) (u : Uses) : (issuing s c h u).depthTab = s.depthTab := rfl
@[simp] theorem issuing_qzero (s : State) (c : Ctx) (h : Hdr) (u : Uses) : (issuing s c h u).qzero = s.qzero := rfl
@[simp] theorem issuing_kvGeom (s : State) (c : Ctx) (h : Hdr) (u : Uses) : (issuing s c h u).kvGeom = s.kvGeom := rfl
@[simp] theorem issuing_kv (s : State) (c : Ctx) (h : Hdr) (u : Uses) : (issuing s c h u).kv = s.kv := rfl
@[simp] theorem issuing_rings (s : State) (c : Ctx) (h : Hdr) (u : Uses) : (issuing s c h u).rings = s.rings := rfl
@[simp] theorem issuing_kvReports (s : State) (c : Ctx) (h : Hdr) (u : Uses) : (issuing s c h u).kvReports = s.kvReports := rfl
@[simp] theorem issuing_fab (s : State) (c : Ctx) (h : Hdr) (u : Uses) : (issuing s c h u).fab = s.fab := rfl

/-! ### What examining comes to -/

/-- A word that nothing holds back executes (R17). -/
theorem State.examine_of_issues (s : State) (c : Ctx) (i : Instr) (h : Hdr) (u : Uses)
    (body : Word → Word → List Word → State → Body) (p : Issues s c i h u) :
    s.examine i h u body =
      s.conclude s.focus.1 s.focus.2 c u.mem
        (body (c.value s.focus.2 u.sa) (c.value s.focus.2 u.sb) (c.dataOf u.data) (issuing s c h u)) := by
  have hsync : (h.sync && !c.inHandler && !c.bundle) = false := by
    rcases p.synced with h | h | h <;> simp [h]
  have hg := p.guard
  have hset := p.settled
  unfold Pends at hset
  unfold State.examine State.run issuing Pends
  simp only [p.present, p.legal, p.onDie, p.queues, p.ports, hsync, Bool.not_true, Bool.false_eq_true, if_false,
    beq_iff_eq, hg, Bool.and_eq_true]
  rcases hset with hp | ⟨h1, h2⟩
  · obtain ⟨ha, hb⟩ : c.pendingPred s.focus.2 h.pred.toNat = false ∧ c.readsPending s.focus.2 u = false := by simpa using hp
    rcases p.privileged with hv | hv <;> simp [ha, hb, hv]
  · rcases p.privileged with hv | hv <;> simp [h1, h2, hv]

/-- The outcome of a word that nothing holds back. -/
theorem word_of_issues (s : State) (c : Ctx) (i : Instr) (h : Hdr) (u : Uses)
    (body : Word → Word → List Word → State → Body) (p : Issues s c i h u) :
    word i h u body s = .next (s.conclude s.focus.1 s.focus.2 c u.mem
      (body (c.value s.focus.2 u.sa) (c.value s.focus.2 u.sb) (c.dataOf u.data) (issuing s c h u))) := by
  rw [word, s.examine_of_issues c i h u body p]

/-- A word whose guard is false changes only its own PC (R40). -/
theorem State.examine_of_guard (s : State) (c : Ctx) (i : Instr) (h : Hdr) (u : Uses)
    (body : Word → Word → List Word → State → Body) (present : s.ctx? s.focus.1 = some c) (legal : wellFormed s.focus.2 i = true)
    (calm : c.pendingPred s.focus.2 h.pred.toNat = false) (guard : (c.cl s.focus.2).pred h.pred.toNat = h.neg)
    (sync : h.sync = false) :
    s.examine i h u body = s.setCtx s.focus.1 ((c.issueOn s.focus.2 {} false).commit s.focus.2 none) := by
  unfold State.examine
  simp [present, legal, calm, guard, sync]

end Sys2Proof.Machine
end

