-- ==== Sys2Proof/Laws/Ops.lean ====
section
/-! SUPPORT. What each shared operation can do: schedule a landing, deliver, trap, leave a handler, write bytes. -/

namespace Sys2Proof.Machine

/-! ### Scheduling (R24, R29) -/

/-- Reserving changes one outbound queue, if the code names one. -/
theorem Ctx.reserve_eq (c : Ctx) (cl : Cluster) (d : BitVec 6) (id : Nat) :
    ∃ qs, c.reserve cl d id = { c with queues := qs } ∧
      ∀ q, (d.toNat / 8 = 7 → d ≠ 63 → q ≠ outQueue cl (d.toNat % 8)) → qs.getD q [] = c.queue q := by
  unfold Ctx.reserve
  split
  · rename_i h
    simp only [Bool.and_eq_true, decide_eq_true_eq, bne_iff_ne] at h
    exact ⟨_, rfl, fun q hq => FMap.getD_insert_ne _ _ _ _ _ (hq h.1 h.2)⟩
  · exact ⟨c.queues, rfl, fun _ _ => rfl⟩

/-- A scheduled landing comes last, and only the queues that its deliveries name change. -/
theorem Ctx.schedule_eq (c : Ctx) (l : Landing) :
    ∃ qs, c.schedule l = { c with queues := qs, landings := c.landings ++ [{ l with q1 := l.id, q2 := l.id + 1 }] } ∧
      ∀ q, (∀ d ∈ [l.d1, l.d2], d.toNat / 8 = 7 → d ≠ 63 → q ≠ outQueue l.cl (d.toNat % 8)) → qs.getD q [] = c.queue q := by
  obtain ⟨q1, h1, k1⟩ := c.reserve_eq l.cl l.d1 l.id
  obtain ⟨q2, h2, k2⟩ := (c.reserve l.cl l.d1 l.id).reserve_eq l.cl l.d2 (l.id + 1)
  refine ⟨q2, ?_, fun q hq => ?_⟩
  · rw [Ctx.schedule, h2, h1]
  · rw [k2 q (hq _ (by simp)), h1]
    exact k1 q (hq _ (by simp))

/-- A landing that the word in focus schedules: what `deliver2`, `deliverPreds`, `deliverElems` and `addLanding` come to. -/
def State.Schedules (s t : State) (c : Ctx) (l : Landing) : Prop :=
  ∃ cls qs, t = { s.setCtx s.focus.1 { c with cls := cls, queues := qs, landings := c.landings ++ [l] } with serial := s.serial + 2 } ∧
    (∀ cl, ∃ n, cls.get cl = { c.cl cl with lastAccess := n }) ∧
    ∀ q, (∀ d ∈ [l.d1, l.d2], d.toNat / 8 = 7 → d ≠ 63 → q ≠ outQueue l.cl (d.toNat % 8)) → qs.getD q [] = c.queue q

theorem State.deliver2_spec (s : State) (c : Ctx) (d1 d2 : BitVec 6) (v1 v2 : Word) (lat : Nat) (h : s.ctx? s.focus.1 = some c) :
    (d1 = 63 ∧ d2 = 63 ∧ s.deliver2 d1 d2 v1 v2 lat = s) ∨
      s.Schedules (s.deliver2 d1 d2 v1 v2 lat) c
        { Landing.blank s.serial s.focus.2 c.time (c.time + lat) (c.cl s.focus.2).lastAccess with
          d1 := d1, d2 := d2, v1 := v1, v2 := v2, q1 := s.serial, q2 := s.serial + 1 } := by
  unfold State.deliver2
  simp only [h]
  split
  · rename_i g
    simp only [Bool.and_eq_true, decide_eq_true_eq] at g
    exact .inl ⟨g.1, g.2, rfl⟩
  · obtain ⟨qs, e, k⟩ := c.schedule_eq
      { Landing.blank s.serial s.focus.2 c.time (c.time + lat) (c.cl s.focus.2).lastAccess with d1 := d1, d2 := d2, v1 := v1, v2 := v2 }
    exact .inr ⟨c.cls, qs, by rw [e]; rfl, fun cl => ⟨_, rfl⟩, k⟩

theorem State.deliverPreds_spec (s : State) (c : Ctx) (m v : BitVec 8) (h : s.ctx? s.focus.1 = some c) :
    (m &&& 0xFE = 0 ∧ s.deliverPreds m v = s) ∨
      s.Schedules (s.deliverPreds m v) c
        { Landing.blank s.serial s.focus.2 c.time (c.time + 1) (c.cl s.focus.2).lastAccess with
          pmask := m &&& 0xFE, pval := v, q1 := s.serial, q2 := s.serial + 1 } := by
  unfold State.deliverPreds
  simp only [h]
  split
  · rename_i g
    exact .inl ⟨g, rfl⟩
  · obtain ⟨qs, e, k⟩ := c.schedule_eq
      { Landing.blank s.serial s.focus.2 c.time (c.time + 1) (c.cl s.focus.2).lastAccess with pmask := m &&& 0xFE, pval := v }
    exact .inr ⟨c.cls, qs, by rw [e]; rfl, fun cl => ⟨_, rfl⟩, k⟩

/-- A change of the last access of one cluster. -/
theorem Ctx.lastAccess_set (c : Ctx) (k : Cluster) (n : Nat) (cl : Cluster) :
    ∃ m, (c.cls.set k { c.cl k with lastAccess := n }).get cl = { c.cl cl with lastAccess := m } := by
  cases k <;> cases cl <;> exact ⟨_, rfl⟩

theorem State.deliverElems_spec (s : State) (c : Ctx) (o : BitVec 15) (es : List Nat) (vs : List (BitVec 16)) (lat : Nat)
    (h : s.ctx? s.focus.1 = some c) :
    s.Schedules (s.deliverElems o es vs lat) c
      { Landing.blank s.serial s.focus.2 c.time (c.time + lat) (c.cl s.focus.2).lastAccess with
        operand := some o, elems := es, vals := vs, q1 := s.serial, q2 := s.serial + 1 } := by
  unfold State.deliverElems
  simp only [h]
  obtain ⟨qs, e, k⟩ := c.schedule_eq
    { Landing.blank s.serial s.focus.2 c.time (c.time + lat) (c.cl s.focus.2).lastAccess with operand := some o, elems := es, vals := vs }
  refine ⟨c.cls.set s.focus.2 { c.cl s.focus.2 with lastAccess := max (c.cl s.focus.2).lastAccess (c.time + lat) }, qs, ?_,
    c.lastAccess_set s.focus.2 _, k⟩
  rw [e]; rfl

/-! ### Bytes (R157, R226, R227) -/

/-- The HBM, host memory and peer memory of a state. -/
def State.memories (s : State) : Mem × Mem × Mem := (s.hbm, s.hostMem, s.peerMem)

@[simp] theorem State.memories_setCtx (s : State) (k : Nat) (c : Ctx) : (s.setCtx k c).memories = s.memories := rfl
@[simp] theorem State.memories_setCore (s : State) (k : Nat) (m : CoreState) : (s.setCore k m).memories = s.memories := rfl
@[simp] theorem State.memories_setDie (s : State) (d : Nat) (v : Die) : (s.setDie d v).memories = s.memories := rfl
@[simp] theorem State.memories_modCore (s : State) (k : Nat) (f : CoreState → CoreState) : (s.modCore k f).memories = s.memories := rfl
@[simp] theorem State.memories_modDie (s : State) (d : Nat) (f : Die → Die) : (s.modDie d f).memories = s.memories := rfl
@[simp] theorem State.memories_report (s : State) (d n : Nat) (e : Cause) (l : Nat) : (s.report d n e l).memories = s.memories := rfl

@[simp] theorem State.memories_modCtx (s : State) (k : Nat) (f : Ctx → Ctx) : (s.modCtx k f).memories = s.memories := by
  unfold State.modCtx; split <;> rfl

@[simp] theorem State.memories_offerTask (s : State) (k : Nat) (i : TrapInfo) : (s.offerTask k i).memories = s.memories := by
  unfold State.offerTask; split <;> rfl

@[simp] theorem State.memories_faultRegs (s : State) (k : Nat) (i : TrapInfo) : (s.faultRegs k i).memories = s.memories := by
  unfold State.faultRegs; split <;> rfl

@[simp] theorem State.memories_leaveHandler (s : State) (k : Nat) (b : Bool) : (s.leaveHandler k b).memories = s.memories := by
  unfold State.leaveHandler
  split
  · rfl
  · split
    · rfl
    · dsimp only; split <;> rfl

@[simp] theorem State.memories_eret (s : State) (k : Nat) : (s.eret k).memories = s.memories := by simp [State.eret]

@[simp] theorem State.memories_enterHandler (s : State) (k : Nat) : (s.enterHandler k).memories = s.memories := by
  unfold State.enterHandler; split <;> rfl

/-- Taking an exception writes no byte of memory. -/
@[simp] theorem State.memories_takeTrap (s : State) (k : Nat) (i : TrapInfo) : (s.takeTrap k i).memories = s.memories := by
  unfold State.takeTrap
  split
  · rfl
  · split
    · simp
    · dsimp only; repeat' split
      all_goals simp

@[simp] theorem State.memories_deliver2 (s : State) (d1 d2 : BitVec 6) (v1 v2 : Word) (lat : Nat) :
    (s.deliver2 d1 d2 v1 v2 lat).memories = s.memories := by
  unfold State.deliver2
  split
  · rfl
  · split <;> rfl

@[simp] theorem State.memories_deliver (s : State) (d1 d2 : BitVec 6) (v : Word) (lat : Nat) :
    (s.deliver d1 d2 v lat).memories = s.memories := s.memories_deliver2 d1 d2 v v lat

@[simp] theorem State.memories_deliverPreds (s : State) (m v : BitVec 8) : (s.deliverPreds m v).memories = s.memories := by
  unfold State.deliverPreds
  split
  · rfl
  · split <;> rfl

@[simp] theorem State.memories_deliverElems (s : State) (o : BitVec 15) (es : List Nat) (vs : List (BitVec 16)) (lat : Nat) :
    (s.deliverElems o es vs lat).memories = s.memories := by
  unfold State.deliverElems; split <;> rfl

/-- Three memories in canonical form. -/
def memoriesWf (m : Mem × Mem × Mem) : Prop := m.1.wf = true ∧ m.2.1.wf = true ∧ m.2.2.wf = true

@[simp] theorem State.memories_dropDecoded (s : State) (pa : Nat) : (s.dropDecoded pa).memories = s.memories := by
  unfold State.dropDecoded
  generalize (s.die (pa / 2 ^ 40)).regions.items = l
  induction l generalizing s with
  | nil => rfl
  | cons e l ih =>
    rw [List.foldl_cons, ih]
    split <;> rfl

/-- Writing a byte at its home keeps the canonical form. -/
theorem State.poke_wf (s : State) (h : HomeOf) (b : Byte) (w : memoriesWf s.memories) : memoriesWf (s.poke h b).memories := by
  obtain ⟨w1, w2, w3⟩ := w
  cases h with
  | scratch k o => exact ⟨w1, w2, w3⟩
  | mem pa =>
    have e := s.memories_dropDecoded pa
    simp only [State.memories, Prod.mk.injEq] at e
    exact ⟨Mem.wf_write _ _ _ w1, by simpa [State.poke, State.memories, e.2.1] using w2, by simpa [State.poke, State.memories, e.2.2] using w3⟩
  | host a => exact ⟨w1, Mem.wf_write _ _ _ w2, w3⟩
  | peer n va => exact ⟨w1, w2, Mem.wf_write _ _ _ w3⟩

theorem State.pokes_wf (hs : List HomeOf) (s : State) (bs : List Byte) (w : memoriesWf s.memories) :
    memoriesWf (s.pokes hs bs).memories := by
  induction hs generalizing s bs with
  | nil => cases bs <;> exact w
  | cons h hs ih =>
    cases bs with
    | nil => exact w
    | cons b bs => exact ih _ _ (s.poke_wf h b w)

/-- Bytes written to host memory keep the canonical form. -/
theorem State.hostWrite_wf (s : State) (a : Nat) (l : List Byte) (w : memoriesWf s.memories) :
    memoriesWf (s.hostWrite a l).memories := by
  refine ⟨w.1, ?_, w.2.2⟩
  have go : ∀ (es : List (Nat × Byte)) (m : Mem), m.wf = true →
      (es.foldl (fun m e => m.write ((a + e.1) % 2 ^ 64) e.2) m).wf = true := by
    intro es
    induction es with
    | nil => intro m h; exact h
    | cons e es ih => intro m h; exact ih _ (Mem.wf_write _ _ _ h)
  exact go _ _ w.2.1

@[simp] theorem State.memories_cleanse (s : State) (l : List HomeOf) : (s.cleanse l).memories = s.memories := by
  unfold State.cleanse; split <;> rfl

@[simp] theorem State.memories_sealUnder (s : State) (f : Nat → Nat) (l : List (HomeOf × Nat)) : (s.sealUnder f l).memories = s.memories := rfl

/-- Writing the bytes of an access at their homes keeps the canonical form. -/
theorem State.setBytes_wf (s : State) (c : Ctx) (addr : Nat) (l : List HomeOf) (b : List Byte) (w : memoriesWf s.memories) :
    memoriesWf (s.setBytes c addr l b).memories := by
  simpa [State.setBytes] using State.pokes_wf _ s _ w

/-- The loss of an LLC keeps the canonical form (R380). -/
theorem State.loseLlc_wf (s : State) (die : Nat) (w : memoriesWf s.memories) : memoriesWf (s.loseLlc die).memories := by
  refine ⟨?_, w.2⟩
  have go : ∀ (as : List Nat) (m : Mem), m.wf = true → (as.foldl (fun m a => m.write a (Config.lostByte s.serial a)) m).wf = true := by
    intro as
    induction as with
    | nil => intro m h; exact h
    | cons a as ih => intro m h; exact ih _ (Mem.wf_write _ _ _ h)
  exact go _ _ w.1

/-! ### Reads and the writes of the network port (R153, R272, R309) -/

@[simp] theorem State.memories_hear (s : State) (p : Packet) : (s.hear p).memories = s.memories := by simp [State.hear]

@[simp] theorem State.memories_deferFault (s : State) (k n : Nat) (d : Deferral) (i : TrapInfo) :
    (s.deferFault k n d i).memories = s.memories := by simp [State.deferFault]

@[simp] theorem State.memories_netWrite (s : State) (k core n a : Nat) (b : List Byte) : (s.netWrite k core n a b).memories = s.memories := by
  unfold State.netWrite; dsimp only; split <;> simp

/-- What a context's words write through the network port reaches its own scratchpad and the faults it is to take, nothing else. -/
theorem State.netWrites_rest (l : List (Nat × Nat × List Byte)) (s : State) (k core : Nat) :
    ∃ cs ks, s.netWrites k core l = { s with ctxs := cs, cores := ks } := by
  induction l generalizing s with
  | nil => exact ⟨_, _, rfl⟩
  | cons e l ih =>
    have one : ∃ cs ks, s.netWrite k core e.1 e.2.1 e.2.2 = { s with ctxs := cs, cores := ks } := by
      unfold State.netWrite State.deferFault State.modCtx
      dsimp only
      split
      · exact ⟨_, _, rfl⟩
      · split <;> exact ⟨_, _, rfl⟩
    obtain ⟨cs, ks, h⟩ := one
    obtain ⟨cs', ks', h'⟩ := ih (s.netWrite k core e.1 e.2.1 e.2.2)
    exact ⟨cs', ks', by rw [State.netWrites, List.foldl_cons]; exact h'.trans (by rw [h])⟩

end Sys2Proof.Machine
end

