-- ==== Sys2Proof/Laws/PerInstr.lean ====
section
/-! SUPPORT. One lemma per instruction: a slot word's encoding holds its header, and a further step of the opcode table has no word. -/

namespace Sys2Proof.Laws.Encoding

open Sys2Proof.Effects

/-- A slot word has a word, whose S, N and G fields are its header (R39, R40); the other instructions have none. -/
def Statement (i : Instr) : Prop :=
  match headerOf i with
  | none => encode i = none
  | some h => ∃ w, encode i = some w ∧ parseHdr w = h

/-- The header of a frame whose payload and OP keep to their places. -/
theorem parseHdr_frame (h : Hdr) (op p : Nat) (ho : op < 2 ^ 7) (hp : p < 2 ^ 52) : parseHdr (frame h op p) = h := by
  obtain ⟨s, n, g⟩ := h
  have hg := g.isLt
  have key : ∀ a b : Nat, a < 2 → b < 2 →
      BitVec.ofNat 1 ((a * 2 ^ 63 + b * 2 ^ 62 + g.toNat * 2 ^ 59 + op * 2 ^ 52 + p) % 2 ^ 64 / 2 ^ 63) = BitVec.ofNat 1 a ∧
      BitVec.ofNat 1 ((a * 2 ^ 63 + b * 2 ^ 62 + g.toNat * 2 ^ 59 + op * 2 ^ 52 + p) % 2 ^ 64 / 2 ^ 62) = BitVec.ofNat 1 b ∧
      BitVec.ofNat 3 ((a * 2 ^ 63 + b * 2 ^ 62 + g.toNat * 2 ^ 59 + op * 2 ^ 52 + p) % 2 ^ 64 / 2 ^ 59) = g := by
    intro a b ha hb
    refine ⟨BitVec.eq_of_toNat_eq ?_, BitVec.eq_of_toNat_eq ?_, BitVec.eq_of_toNat_eq ?_⟩ <;>
      simp only [BitVec.toNat_ofNat] <;> omega
  cases s <;> cases n <;> simp only [parseHdr, frame, fld, bit, BitVec.toNat_ofNat, Bool.false_eq_true, if_true, if_false]
  · obtain ⟨h1, h2, h3⟩ := key 0 0 (by omega) (by omega)
    rw [h1, h2, h3]; rfl
  · obtain ⟨h1, h2, h3⟩ := key 0 1 (by omega) (by omega)
    rw [h1, h2, h3]; rfl
  · obtain ⟨h1, h2, h3⟩ := key 1 0 (by omega) (by omega)
    rw [h1, h2, h3]; rfl
  · obtain ⟨h1, h2, h3⟩ := key 1 1 (by omega) (by omega)
    rw [h1, h2, h3]; rfl

/-- The statement of a slot word, from its row of the encoder. -/
theorem ofRow (i : Instr) (h : Hdr) (op p : Nat) (hh : headerOf i = some h) (he : encode i = some (frame h op p)) (ho : op < 2 ^ 7)
    (hp : p < 2 ^ 52) : Statement i := by
  unfold Statement
  rw [hh]
  exact ⟨_, he, parseHdr_frame h op p ho hp⟩

theorem packAM_lt (f : FmtAM) : packAM f < 2 ^ 52 := by
  unfold packAM
  have := f.d1.isLt
  have := f.d2.isLt
  have := f.sa.isLt
  have := f.sb.isLt
  have := f.land.isLt
  have := f.ord.isLt
  have := f.sc.isLt
  have := f.aop.isLt
  have := f.w.isLt
  have := f.sp.isLt
  omega

theorem packBR_lt (f : FmtBR) : packBR f < 2 ^ 52 := by
  unfold packBR
  have := f.d1.isLt
  have := f.off.isLt
  omega

theorem packCP_lt (f : FmtCP) : packCP f < 2 ^ 52 := by
  unfold packCP
  have := f.mq.isLt
  have := f.p1.isLt
  have := f.w1.isLt
  have := f.p2.isLt
  have := f.w2.isLt
  have := f.sa.isLt
  have := f.sb.isLt
  have := f.off.isLt
  omega

theorem packCR_lt (f : FmtCR) : packCR f < 2 ^ 52 := by
  unfold packCR
  have := f.d1.isLt
  have := f.d2.isLt
  have := f.sa.isLt
  have := f.crn.isLt
  omega

theorem packD_lt (f : FmtD) : packD f < 2 ^ 52 := by
  unfold packD
  have := f.d1.isLt
  have := f.d2.isLt
  omega

theorem packDR_lt (f : FmtDR) : packDR f < 2 ^ 52 := by
  unfold packDR
  have := f.mask.isLt
  omega

theorem packEC_lt (f : FmtEC) : packEC f < 2 ^ 52 := by
  unfold packEC
  have := f.eng.isLt
  have := f.eq.isLt
  have := f.p1.isLt
  have := f.w1.isLt
  have := f.p2.isLt
  have := f.w2.isLt
  have := f.sa.isLt
  have := f.sb.isLt
  have := f.off.isLt
  omega

theorem packFK_lt (f : FmtFK) : packFK f < 2 ^ 52 := by
  unfold packFK
  have := f.v.isLt
  have := f.m.isLt
  have := f.x.isLt
  have := f.offv.isLt
  have := f.offm.isLt
  have := f.offx.isLt
  omega

theorem packFN_lt (f : FmtFN) : packFN f < 2 ^ 52 := by
  unfold packFN
  have := f.pre.isLt
  have := f.suc.isLt
  have := f.sc.isLt
  omega

theorem packLD_lt (f : FmtLD) : packLD f < 2 ^ 52 := by
  unfold packLD
  have := f.d1.isLt
  have := f.d2.isLt
  have := f.sa.isLt
  have := f.sb.isLt
  have := f.land.isLt
  have := f.sz.isLt
  have := f.sx.isLt
  have := f.ord.isLt
  have := f.sc.isLt
  omega

theorem packLDV_lt (f : FmtLDV) : packLDV f < 2 ^ 52 := by
  unfold packLDV
  have := f.vd.isLt
  have := f.sa.isLt
  have := f.sb.isLt
  have := f.land.isLt
  have := f.ord.isLt
  have := f.sc.isLt
  omega

theorem packLI_lt (f : FmtLI) : packLI f < 2 ^ 52 := by
  unfold packLI
  have := f.d1.isLt
  have := f.d2.isLt
  have := f.imm.isLt
  omega

theorem packLP_lt (f : FmtLP) : packLP f < 2 ^ 52 := by
  unfold packLP
  have := f.lc.isLt
  have := f.sa.isLt
  have := f.cnt.isLt
  have := f.off.isLt
  omega

theorem packMA_lt (f : FmtMA) : packMA f < 2 ^ 52 := by
  unfold packMA
  have := f.acc.isLt
  have := f.cnt.isLt
  omega

theorem packMB_lt (f : FmtMB) : packMB f < 2 ^ 52 := by
  unfold packMB
  have := f.wb.isLt
  have := f.z.isLt
  have := f.acc.isLt
  have := f.h.isLt
  have := f.sa.isLt
  have := f.dr.isLt
  have := f.dacc.isLt
  have := f.dt.isLt
  have := f.df.isLt
  omega

theorem packMC_lt (f : FmtMC) : packMC f < 2 ^ 52 := by
  unfold packMC
  have := f.aw.isLt
  have := f.bw.isLt
  have := f.sp.isLt
  have := f.dens.isLt
  have := f.bss.isLt
  omega

theorem packMD_lt (f : FmtMD) : packMD f < 2 ^ 52 := by
  unfold packMD
  have := f.dacc.isLt
  have := f.dt.isLt
  have := f.df.isLt
  omega

theorem packMW_lt (f : FmtMW) : packMW f < 2 ^ 52 := by
  unfold packMW
  have := f.wb.isLt
  have := f.col.isLt
  have := f.half.isLt
  have := f.sa.isLt
  omega

theorem packMX_lt (f : FmtMX) : packMX f < 2 ^ 52 := by
  unfold packMX
  have := f.d1.isLt
  have := f.d2.isLt
  have := f.sa.isLt
  have := f.acc.isLt
  omega

theorem packPL_lt (f : FmtPL) : packPL f < 2 ^ 52 := by
  unfold packPL
  have := f.pd.isLt
  have := f.pa.isLt
  have := f.pb.isLt
  have := f.na.isLt
  have := f.nb.isLt
  omega

theorem packPW_lt (f : FmtPW) : packPW f < 2 ^ 52 := by
  unfold packPW
  have := f.sa.isLt
  have := f.mask.isLt
  omega

theorem packQ_lt (f : FmtQ) : packQ f < 2 ^ 52 := by
  unfold packQ
  have := f.d1.isLt
  have := f.d2.isLt
  have := f.qs.isLt
  omega

theorem packQF_lt (f : FmtQF) : packQF f < 2 ^ 52 := by
  unfold packQF
  have := f.mqm.isLt
  omega

theorem packR1_lt (f : FmtR1) : packR1 f < 2 ^ 52 := by
  unfold packR1
  have := f.d1.isLt
  have := f.d2.isLt
  have := f.sa.isLt
  omega

theorem packRI_lt (f : FmtRI) : packRI f < 2 ^ 52 := by
  unfold packRI
  have := f.d1.isLt
  have := f.d2.isLt
  have := f.sa.isLt
  have := f.fn.isLt
  have := f.imm.isLt
  omega

theorem packRR_lt (f : FmtRR) : packRR f < 2 ^ 52 := by
  unfold packRR
  have := f.d1.isLt
  have := f.d2.isLt
  have := f.sa.isLt
  have := f.sb.isLt
  have := f.fn.isLt
  omega

theorem packS1_lt (f : FmtS1) : packS1 f < 2 ^ 52 := by
  unfold packS1
  have := f.sa.isLt
  omega

theorem packS2_lt (f : FmtS2) : packS2 f < 2 ^ 52 := by
  unfold packS2
  have := f.sa.isLt
  have := f.sb.isLt
  omega

theorem packST_lt (f : FmtST) : packST f < 2 ^ 52 := by
  unfold packST
  have := f.sa.isLt
  have := f.sb.isLt
  have := f.sz.isLt
  have := f.ord.isLt
  have := f.sc.isLt
  omega

theorem packSTV_lt (f : FmtSTV) : packSTV f < 2 ^ 52 := by
  unfold packSTV
  have := f.vs.isLt
  have := f.sa.isLt
  have := f.ord.isLt
  have := f.sc.isLt
  omega

theorem packTR_lt (f : FmtTR) : packTR f < 2 ^ 52 := by
  unfold packTR
  have := f.code.isLt
  omega

theorem packV3_lt (f : FmtV3) : packV3 f < 2 ^ 52 := by
  unfold packV3
  have := f.vd.isLt
  have := f.va.isLt
  have := f.vb.isLt
  have := f.ty.isLt
  have := f.rm.isLt
  have := f.sub.isLt
  omega

theorem packVCV_lt (f : FmtVCV) : packVCV f < 2 ^ 52 := by
  unfold packVCV
  have := f.vd.isLt
  have := f.va.isLt
  have := f.fmtd.isLt
  have := f.fmts.isLt
  have := f.ty.isLt
  have := f.rm.isLt
  have := f.sub.isLt
  omega

theorem packVR_lt (f : FmtVR) : packVR f < 2 ^ 52 := by
  unfold packVR
  have := f.d1.isLt
  have := f.d2.isLt
  have := f.va.isLt
  have := f.sa.isLt
  have := f.ty.isLt
  have := f.rm.isLt
  have := f.sub.isLt
  omega

theorem packVS_lt (f : FmtVS) : packVS f < 2 ^ 52 := by
  unfold packVS
  have := f.vd.isLt
  have := f.va.isLt
  have := f.sa.isLt
  have := f.sb.isLt
  have := f.ty.isLt
  have := f.rm.isLt
  have := f.sub.isLt
  omega

theorem nop (h : Hdr) : Statement (.nop h) := ofRow _ h 0x00 0 rfl rfl (by decide) (by decide)
theorem add (h : Hdr) (f : FmtRR) : Statement (.add h f) := ofRow _ h 0x01 _ rfl rfl (by decide) (packRR_lt f)
theorem sub (h : Hdr) (f : FmtRR) : Statement (.sub h f) := ofRow _ h 0x02 _ rfl rfl (by decide) (packRR_lt f)
theorem andW (h : Hdr) (f : FmtRR) : Statement (.andW h f) := ofRow _ h 0x03 _ rfl rfl (by decide) (packRR_lt f)
theorem orW (h : Hdr) (f : FmtRR) : Statement (.orW h f) := ofRow _ h 0x04 _ rfl rfl (by decide) (packRR_lt f)
theorem xorW (h : Hdr) (f : FmtRR) : Statement (.xorW h f) := ofRow _ h 0x05 _ rfl rfl (by decide) (packRR_lt f)
theorem andn (h : Hdr) (f : FmtRR) : Statement (.andn h f) := ofRow _ h 0x06 _ rfl rfl (by decide) (packRR_lt f)
theorem shl (h : Hdr) (f : FmtRR) : Statement (.shl h f) := ofRow _ h 0x07 _ rfl rfl (by decide) (packRR_lt f)
theorem shr (h : Hdr) (f : FmtRR) : Statement (.shr h f) := ofRow _ h 0x08 _ rfl rfl (by decide) (packRR_lt f)
theorem sra (h : Hdr) (f : FmtRR) : Statement (.sra h f) := ofRow _ h 0x09 _ rfl rfl (by decide) (packRR_lt f)
theorem rot (h : Hdr) (f : FmtRR) : Statement (.rot h f) := ofRow _ h 0x0A _ rfl rfl (by decide) (packRR_lt f)
theorem cmp (h : Hdr) (f : FmtRR) : Statement (.cmp h f) := ofRow _ h 0x0B _ rfl rfl (by decide) (packRR_lt f)
theorem sel (h : Hdr) (f : FmtRR) : Statement (.sel h f) := ofRow _ h 0x0C _ rfl rfl (by decide) (packRR_lt f)
theorem mov (h : Hdr) (f : FmtR1) : Statement (.mov h f) := ofRow _ h 0x0D _ rfl rfl (by decide) (packR1_lt f)
theorem clz (h : Hdr) (f : FmtR1) : Statement (.clz h f) := ofRow _ h 0x0E _ rfl rfl (by decide) (packR1_lt f)
theorem popc (h : Hdr) (f : FmtR1) : Statement (.popc h f) := ofRow _ h 0x0F _ rfl rfl (by decide) (packR1_lt f)
theorem addi (h : Hdr) (f : FmtRI) : Statement (.addi h f) := ofRow _ h 0x10 _ rfl rfl (by decide) (packRI_lt f)
theorem andi (h : Hdr) (f : FmtRI) : Statement (.andi h f) := ofRow _ h 0x11 _ rfl rfl (by decide) (packRI_lt f)
theorem ori (h : Hdr) (f : FmtRI) : Statement (.ori h f) := ofRow _ h 0x12 _ rfl rfl (by decide) (packRI_lt f)
theorem xori (h : Hdr) (f : FmtRI) : Statement (.xori h f) := ofRow _ h 0x13 _ rfl rfl (by decide) (packRI_lt f)
theorem shli (h : Hdr) (f : FmtRI) : Statement (.shli h f) := ofRow _ h 0x14 _ rfl rfl (by decide) (packRI_lt f)
theorem shri (h : Hdr) (f : FmtRI) : Statement (.shri h f) := ofRow _ h 0x15 _ rfl rfl (by decide) (packRI_lt f)
theorem srai (h : Hdr) (f : FmtRI) : Statement (.srai h f) := ofRow _ h 0x16 _ rfl rfl (by decide) (packRI_lt f)
theorem roti (h : Hdr) (f : FmtRI) : Statement (.roti h f) := ofRow _ h 0x17 _ rfl rfl (by decide) (packRI_lt f)
theorem cmpi (h : Hdr) (f : FmtRI) : Statement (.cmpi h f) := ofRow _ h 0x18 _ rfl rfl (by decide) (packRI_lt f)
theorem li (h : Hdr) (f : FmtLI) : Statement (.li h f) := ofRow _ h 0x19 _ rfl rfl (by decide) (packLI_lt f)
theorem lih (h : Hdr) (f : FmtRI) : Statement (.lih h f) := ofRow _ h 0x1A _ rfl rfl (by decide) (packRI_lt f)
theorem ext (h : Hdr) (f : FmtRI) : Statement (.ext h f) := ofRow _ h 0x1B _ rfl rfl (by decide) (packRI_lt f)
theorem pand (h : Hdr) (f : FmtPL) : Statement (.pand h f) := ofRow _ h 0x20 _ rfl rfl (by decide) (packPL_lt f)
theorem por (h : Hdr) (f : FmtPL) : Statement (.por h f) := ofRow _ h 0x21 _ rfl rfl (by decide) (packPL_lt f)
theorem pxor (h : Hdr) (f : FmtPL) : Statement (.pxor h f) := ofRow _ h 0x22 _ rfl rfl (by decide) (packPL_lt f)
theorem prd (h : Hdr) (f : FmtD) : Statement (.prd h f) := ofRow _ h 0x23 _ rfl rfl (by decide) (packD_lt f)
theorem pwr (h : Hdr) (f : FmtPW) : Statement (.pwr h f) := ofRow _ h 0x24 _ rfl rfl (by decide) (packPW_lt f)
theorem br (h : Hdr) (f : FmtBR) : Statement (.br h f) := ofRow _ h 0x28 _ rfl rfl (by decide) (packBR_lt f)
theorem jal (h : Hdr) (f : FmtBR) : Statement (.jal h f) := ofRow _ h 0x29 _ rfl rfl (by decide) (packBR_lt f)
theorem jr (h : Hdr) (f : FmtS2) : Statement (.jr h f) := ofRow _ h 0x2A _ rfl rfl (by decide) (packS2_lt f)
theorem ret (h : Hdr) : Statement (.ret h) := ofRow _ h 0x2B 0 rfl rfl (by decide) (by decide)
theorem loop (h : Hdr) (f : FmtLP) : Statement (.loop h f) := ofRow _ h 0x2C _ rfl rfl (by decide) (packLP_lt f)
theorem loopi (h : Hdr) (f : FmtLP) : Statement (.loopi h f) := ofRow _ h 0x2D _ rfl rfl (by decide) (packLP_lt f)
theorem lend (h : Hdr) (f : FmtLP) : Statement (.lend h f) := ofRow _ h 0x2E _ rfl rfl (by decide) (packLP_lt f)
theorem qcnt (h : Hdr) (f : FmtQ) : Statement (.qcnt h f) := ofRow _ h 0x30 _ rfl rfl (by decide) (packQ_lt f)
theorem crr (h : Hdr) (f : FmtCR) : Statement (.crr h f) := ofRow _ h 0x31 _ rfl rfl (by decide) (packCR_lt f)
theorem join (h : Hdr) : Statement (.join h) := ofRow _ h 0x32 0 rfl rfl (by decide) (by decide)
theorem trap (h : Hdr) (f : FmtTR) : Statement (.trap h f) := ofRow _ h 0x33 _ rfl rfl (by decide) (packTR_lt f)
theorem halt (h : Hdr) : Statement (.halt h) := ofRow _ h 0x34 0 rfl rfl (by decide) (by decide)
theorem mul (h : Hdr) (f : FmtRR) : Statement (.mul h f) := ofRow _ h 0x40 _ rfl rfl (by decide) (packRR_lt f)
theorem mulh (h : Hdr) (f : FmtRR) : Statement (.mulh h f) := ofRow _ h 0x41 _ rfl rfl (by decide) (packRR_lt f)
theorem mulhu (h : Hdr) (f : FmtRR) : Statement (.mulhu h f) := ofRow _ h 0x42 _ rfl rfl (by decide) (packRR_lt f)
theorem div (h : Hdr) (f : FmtRR) : Statement (.div h f) := ofRow _ h 0x43 _ rfl rfl (by decide) (packRR_lt f)
theorem divu (h : Hdr) (f : FmtRR) : Statement (.divu h f) := ofRow _ h 0x44 _ rfl rfl (by decide) (packRR_lt f)
theorem rem (h : Hdr) (f : FmtRR) : Statement (.rem h f) := ofRow _ h 0x45 _ rfl rfl (by decide) (packRR_lt f)
theorem remu (h : Hdr) (f : FmtRR) : Statement (.remu h f) := ofRow _ h 0x46 _ rfl rfl (by decide) (packRR_lt f)
theorem muli (h : Hdr) (f : FmtRI) : Statement (.muli h f) := ofRow _ h 0x47 _ rfl rfl (by decide) (packRI_lt f)
theorem fork (h : Hdr) (f : FmtFK) : Statement (.fork h f) := ofRow _ h 0x48 _ rfl rfl (by decide) (packFK_lt f)
theorem crw (h : Hdr) (f : FmtCR) : Statement (.crw h f) := ofRow _ h 0x49 _ rfl rfl (by decide) (packCR_lt f)
theorem crrp (h : Hdr) (f : FmtCR) : Statement (.crrp h f) := ofRow _ h 0x4A _ rfl rfl (by decide) (packCR_lt f)
theorem eret (h : Hdr) : Statement (.eret h) := ofRow _ h 0x4B 0 rfl rfl (by decide) (by decide)
theorem ctxsv (h : Hdr) (f : FmtS2) : Statement (.ctxsv h f) := ofRow _ h 0x4C _ rfl rfl (by decide) (packS2_lt f)
theorem ctxld (h : Hdr) (f : FmtS2) : Statement (.ctxld h f) := ofRow _ h 0x4D _ rfl rfl (by decide) (packS2_lt f)
theorem yield (h : Hdr) : Statement (.yield h) := ofRow _ h 0x4E 0 rfl rfl (by decide) (by decide)
theorem exit (h : Hdr) : Statement (.exit h) := ofRow _ h 0x4F 0 rfl rfl (by decide) (by decide)
theorem launch (h : Hdr) (f : FmtRR) : Statement (.launch h f) := ofRow _ h 0x50 _ rfl rfl (by decide) (packRR_lt f)
theorem wchild (h : Hdr) (f : FmtRR) : Statement (.wchild h f) := ofRow _ h 0x51 _ rfl rfl (by decide) (packRR_lt f)
theorem semSig (h : Hdr) (f : FmtS2) : Statement (.semSig h f) := ofRow _ h 0x52 _ rfl rfl (by decide) (packS2_lt f)
theorem semWait (h : Hdr) (f : FmtRI) : Statement (.semWait h f) := ofRow _ h 0x53 _ rfl rfl (by decide) (packRI_lt f)
theorem semInit (h : Hdr) (f : FmtS2) : Statement (.semInit h f) := ofRow _ h 0x54 _ rfl rfl (by decide) (packS2_lt f)
theorem semRd (h : Hdr) (f : FmtRR) : Statement (.semRd h f) := ofRow _ h 0x55 _ rfl rfl (by decide) (packRR_lt f)
theorem dgstRd (h : Hdr) (f : FmtRR) : Statement (.dgstRd h f) := ofRow _ h 0x56 _ rfl rfl (by decide) (packRR_lt f)
theorem dgstClr (h : Hdr) : Statement (.dgstClr h) := ofRow _ h 0x57 0 rfl rfl (by decide) (by decide)
theorem mbxSend (h : Hdr) (f : FmtS2) : Statement (.mbxSend h f) := ofRow _ h 0x60 _ rfl rfl (by decide) (packS2_lt f)
theorem mbxRecv (h : Hdr) (f : FmtRR) : Statement (.mbxRecv h f) := ofRow _ h 0x61 _ rfl rfl (by decide) (packRR_lt f)
theorem mbxCnt (h : Hdr) (f : FmtRR) : Statement (.mbxCnt h f) := ofRow _ h 0x62 _ rfl rfl (by decide) (packRR_lt f)
theorem deskew (h : Hdr) (f : FmtRI) : Statement (.deskew h f) := ofRow _ h 0x63 _ rfl rfl (by decide) (packRI_lt f)
theorem zlat (h : Hdr) (f : FmtRR) : Statement (.zlat h f) := ofRow _ h 0x64 _ rfl rfl (by decide) (packRR_lt f)
theorem propPush (h : Hdr) (f : FmtS2) : Statement (.propPush h f) := ofRow _ h 0x65 _ rfl rfl (by decide) (packS2_lt f)
theorem propPop (h : Hdr) (f : FmtRR) : Statement (.propPop h f) := ofRow _ h 0x66 _ rfl rfl (by decide) (packRR_lt f)
theorem hznRd (h : Hdr) (f : FmtRR) : Statement (.hznRd h f) := ofRow _ h 0x67 _ rfl rfl (by decide) (packRR_lt f)
theorem hznWr (h : Hdr) (f : FmtS2) : Statement (.hznWr h f) := ofRow _ h 0x68 _ rfl rfl (by decide) (packS2_lt f)
theorem lnkSt (h : Hdr) (f : FmtRR) : Statement (.lnkSt h f) := ofRow _ h 0x69 _ rfl rfl (by decide) (packRR_lt f)
theorem lnkRate (h : Hdr) (f : FmtS2) : Statement (.lnkRate h f) := ofRow _ h 0x6A _ rfl rfl (by decide) (packS2_lt f)
theorem vadd (h : Hdr) (f : FmtV3) : Statement (.vadd h f) := ofRow _ h 0x40 _ rfl rfl (by decide) (packV3_lt f)
theorem vsub (h : Hdr) (f : FmtV3) : Statement (.vsub h f) := ofRow _ h 0x41 _ rfl rfl (by decide) (packV3_lt f)
theorem vmul (h : Hdr) (f : FmtV3) : Statement (.vmul h f) := ofRow _ h 0x42 _ rfl rfl (by decide) (packV3_lt f)
theorem vfma (h : Hdr) (f : FmtV3) : Statement (.vfma h f) := ofRow _ h 0x43 _ rfl rfl (by decide) (packV3_lt f)
theorem vfms (h : Hdr) (f : FmtV3) : Statement (.vfms h f) := ofRow _ h 0x44 _ rfl rfl (by decide) (packV3_lt f)
theorem vfnma (h : Hdr) (f : FmtV3) : Statement (.vfnma h f) := ofRow _ h 0x45 _ rfl rfl (by decide) (packV3_lt f)
theorem vmax (h : Hdr) (f : FmtV3) : Statement (.vmax h f) := ofRow _ h 0x46 _ rfl rfl (by decide) (packV3_lt f)
theorem vmin (h : Hdr) (f : FmtV3) : Statement (.vmin h f) := ofRow _ h 0x47 _ rfl rfl (by decide) (packV3_lt f)
theorem vabs (h : Hdr) (f : FmtV3) : Statement (.vabs h f) := ofRow _ h 0x48 _ rfl rfl (by decide) (packV3_lt f)
theorem vneg (h : Hdr) (f : FmtV3) : Statement (.vneg h f) := ofRow _ h 0x49 _ rfl rfl (by decide) (packV3_lt f)
theorem vdiv (h : Hdr) (f : FmtV3) : Statement (.vdiv h f) := ofRow _ h 0x4A _ rfl rfl (by decide) (packV3_lt f)
theorem vsqrt (h : Hdr) (f : FmtV3) : Statement (.vsqrt h f) := ofRow _ h 0x4B _ rfl rfl (by decide) (packV3_lt f)
theorem vexp2 (h : Hdr) (f : FmtV3) : Statement (.vexp2 h f) := ofRow _ h 0x4C _ rfl rfl (by decide) (packV3_lt f)
theorem vexp (h : Hdr) (f : FmtV3) : Statement (.vexp h f) := ofRow _ h 0x4D _ rfl rfl (by decide) (packV3_lt f)
theorem vscale (h : Hdr) (f : FmtV3) : Statement (.vscale h f) := ofRow _ h 0x4E _ rfl rfl (by decide) (packV3_lt f)
theorem viadd (h : Hdr) (f : FmtV3) : Statement (.viadd h f) := ofRow _ h 0x50 _ rfl rfl (by decide) (packV3_lt f)
theorem visub (h : Hdr) (f : FmtV3) : Statement (.visub h f) := ofRow _ h 0x51 _ rfl rfl (by decide) (packV3_lt f)
theorem vimul (h : Hdr) (f : FmtV3) : Statement (.vimul h f) := ofRow _ h 0x52 _ rfl rfl (by decide) (packV3_lt f)
theorem vimax (h : Hdr) (f : FmtV3) : Statement (.vimax h f) := ofRow _ h 0x53 _ rfl rfl (by decide) (packV3_lt f)
theorem vimin (h : Hdr) (f : FmtV3) : Statement (.vimin h f) := ofRow _ h 0x54 _ rfl rfl (by decide) (packV3_lt f)
theorem vand (h : Hdr) (f : FmtV3) : Statement (.vand h f) := ofRow _ h 0x55 _ rfl rfl (by decide) (packV3_lt f)
theorem vor (h : Hdr) (f : FmtV3) : Statement (.vor h f) := ofRow _ h 0x56 _ rfl rfl (by decide) (packV3_lt f)
theorem vxor (h : Hdr) (f : FmtV3) : Statement (.vxor h f) := ofRow _ h 0x57 _ rfl rfl (by decide) (packV3_lt f)
theorem vshl (h : Hdr) (f : FmtV3) : Statement (.vshl h f) := ofRow _ h 0x58 _ rfl rfl (by decide) (packV3_lt f)
theorem vshr (h : Hdr) (f : FmtV3) : Statement (.vshr h f) := ofRow _ h 0x59 _ rfl rfl (by decide) (packV3_lt f)
theorem vsra (h : Hdr) (f : FmtV3) : Statement (.vsra h f) := ofRow _ h 0x5A _ rfl rfl (by decide) (packV3_lt f)
theorem vcmp (h : Hdr) (f : FmtV3) : Statement (.vcmp h f) := ofRow _ h 0x5B _ rfl rfl (by decide) (packV3_lt f)
theorem vicmp (h : Hdr) (f : FmtV3) : Statement (.vicmp h f) := ofRow _ h 0x5C _ rfl rfl (by decide) (packV3_lt f)
theorem vsel (h : Hdr) (f : FmtV3) : Statement (.vsel h f) := ofRow _ h 0x5D _ rfl rfl (by decide) (packV3_lt f)
theorem viota (h : Hdr) (f : FmtV3) : Statement (.viota h f) := ofRow _ h 0x5E _ rfl rfl (by decide) (packV3_lt f)
theorem vpopc (h : Hdr) (f : FmtVR) : Statement (.vpopc h f) := ofRow _ h 0x5F _ rfl rfl (by decide) (packVR_lt f)
theorem vcvt (h : Hdr) (f : FmtVCV) : Statement (.vcvt h f) := ofRow _ h 0x60 _ rfl rfl (by decide) (packVCV_lt f)
theorem vpack (h : Hdr) (f : FmtV3) : Statement (.vpack h f) := ofRow _ h 0x61 _ rfl rfl (by decide) (packV3_lt f)
theorem vunpack (h : Hdr) (f : FmtV3) : Statement (.vunpack h f) := ofRow _ h 0x62 _ rfl rfl (by decide) (packV3_lt f)
theorem vperm (h : Hdr) (f : FmtV3) : Statement (.vperm h f) := ofRow _ h 0x63 _ rfl rfl (by decide) (packV3_lt f)
theorem vrot (h : Hdr) (f : FmtVS) : Statement (.vrot h f) := ofRow _ h 0x64 _ rfl rfl (by decide) (packVS_lt f)
theorem vbcast (h : Hdr) (f : FmtVS) : Statement (.vbcast h f) := ofRow _ h 0x65 _ rfl rfl (by decide) (packVS_lt f)
theorem vmov (h : Hdr) (f : FmtV3) : Statement (.vmov h f) := ofRow _ h 0x66 _ rfl rfl (by decide) (packV3_lt f)
theorem vclr (h : Hdr) (f : FmtV3) : Statement (.vclr h f) := ofRow _ h 0x67 _ rfl rfl (by decide) (packV3_lt f)
theorem vins (h : Hdr) (f : FmtVS) : Statement (.vins h f) := ofRow _ h 0x68 _ rfl rfl (by decide) (packVS_lt f)
theorem vext (h : Hdr) (f : FmtVR) : Statement (.vext h f) := ofRow _ h 0x69 _ rfl rfl (by decide) (packVR_lt f)
theorem vrmax (h : Hdr) (f : FmtVR) : Statement (.vrmax h f) := ofRow _ h 0x6A _ rfl rfl (by decide) (packVR_lt f)
theorem vrmin (h : Hdr) (f : FmtVR) : Statement (.vrmin h f) := ofRow _ h 0x6B _ rfl rfl (by decide) (packVR_lt f)
theorem vrsum (h : Hdr) (f : FmtVR) : Statement (.vrsum h f) := ofRow _ h 0x6C _ rfl rfl (by decide) (packVR_lt f)
theorem vrargmax (h : Hdr) (f : FmtVR) : Statement (.vrargmax h f) := ofRow _ h 0x6D _ rfl rfl (by decide) (packVR_lt f)
theorem mbeat (h : Hdr) (f : FmtMB) : Statement (.mbeat h f) := ofRow _ h 0x40 _ rfl rfl (by decide) (packMB_lt f)
theorem mshift (h : Hdr) (f : FmtMB) : Statement (.mshift h f) := ofRow _ h 0x41 _ rfl rfl (by decide) (packMB_lt f)
theorem mdrain (h : Hdr) (f : FmtMD) : Statement (.mdrain h f) := ofRow _ h 0x42 _ rfl rfl (by decide) (packMD_lt f)
theorem mdrainc (h : Hdr) (f : FmtMD) : Statement (.mdrainc h f) := ofRow _ h 0x43 _ rfl rfl (by decide) (packMD_lt f)
theorem mwload (h : Hdr) (f : FmtMW) : Statement (.mwload h f) := ofRow _ h 0x44 _ rfl rfl (by decide) (packMW_lt f)
theorem mbscale (h : Hdr) (f : FmtMW) : Statement (.mbscale h f) := ofRow _ h 0x45 _ rfl rfl (by decide) (packMW_lt f)
theorem mcfg (h : Hdr) (f : FmtMC) : Statement (.mcfg h f) := ofRow _ h 0x46 _ rfl rfl (by decide) (packMC_lt f)
theorem mseed (h : Hdr) (f : FmtS1) : Statement (.mseed h f) := ofRow _ h 0x47 _ rfl rfl (by decide) (packS1_lt f)
theorem mclr (h : Hdr) (f : FmtMA) : Statement (.mclr h f) := ofRow _ h 0x48 _ rfl rfl (by decide) (packMA_lt f)
theorem mexp (h : Hdr) (f : FmtMX) : Statement (.mexp h f) := ofRow _ h 0x49 _ rfl rfl (by decide) (packMX_lt f)
theorem mexpw (h : Hdr) (f : FmtMX) : Statement (.mexpw h f) := ofRow _ h 0x4A _ rfl rfl (by decide) (packMX_lt f)
theorem msat (h : Hdr) (f : FmtD) : Statement (.msat h f) := ofRow _ h 0x4B _ rfl rfl (by decide) (packD_lt f)
theorem mstat (h : Hdr) (f : FmtD) : Statement (.mstat h f) := ofRow _ h 0x4C _ rfl rfl (by decide) (packD_lt f)
theorem mwait (h : Hdr) : Statement (.mwait h) := ofRow _ h 0x4D 0 rfl rfl (by decide) (by decide)
theorem ldl (h : Hdr) (f : FmtLD) : Statement (.ldl h f) := ofRow _ h 0x40 _ rfl rfl (by decide) (packLD_lt f)
theorem stl (h : Hdr) (f : FmtST) : Statement (.stl h f) := ofRow _ h 0x41 _ rfl rfl (by decide) (packST_lt f)
theorem ldlV (h : Hdr) (f : FmtLDV) : Statement (.ldlV h f) := ofRow _ h 0x42 _ rfl rfl (by decide) (packLDV_lt f)
theorem stlV (h : Hdr) (f : FmtSTV) : Statement (.stlV h f) := ofRow _ h 0x43 _ rfl rfl (by decide) (packSTV_lt f)
theorem ldc (h : Hdr) (f : FmtLD) : Statement (.ldc h f) := ofRow _ h 0x44 _ rfl rfl (by decide) (packLD_lt f)
theorem stc (h : Hdr) (f : FmtST) : Statement (.stc h f) := ofRow _ h 0x45 _ rfl rfl (by decide) (packST_lt f)
theorem ldcV (h : Hdr) (f : FmtLDV) : Statement (.ldcV h f) := ofRow _ h 0x46 _ rfl rfl (by decide) (packLDV_lt f)
theorem stcV (h : Hdr) (f : FmtSTV) : Statement (.stcV h f) := ofRow _ h 0x47 _ rfl rfl (by decide) (packSTV_lt f)
theorem ldd (h : Hdr) (f : FmtLD) : Statement (.ldd h f) := ofRow _ h 0x48 _ rfl rfl (by decide) (packLD_lt f)
theorem std (h : Hdr) (f : FmtST) : Statement (.std h f) := ofRow _ h 0x49 _ rfl rfl (by decide) (packST_lt f)
theorem lddV (h : Hdr) (f : FmtLDV) : Statement (.lddV h f) := ofRow _ h 0x4A _ rfl rfl (by decide) (packLDV_lt f)
theorem stdV (h : Hdr) (f : FmtSTV) : Statement (.stdV h f) := ofRow _ h 0x4B _ rfl rfl (by decide) (packSTV_lt f)
theorem ldm (h : Hdr) (f : FmtLD) : Statement (.ldm h f) := ofRow _ h 0x4C _ rfl rfl (by decide) (packLD_lt f)
theorem stm (h : Hdr) (f : FmtST) : Statement (.stm h f) := ofRow _ h 0x4D _ rfl rfl (by decide) (packST_lt f)
theorem ldmV (h : Hdr) (f : FmtLDV) : Statement (.ldmV h f) := ofRow _ h 0x4E _ rfl rfl (by decide) (packLDV_lt f)
theorem stmV (h : Hdr) (f : FmtSTV) : Statement (.stmV h f) := ofRow _ h 0x4F _ rfl rfl (by decide) (packSTV_lt f)
theorem ldn (h : Hdr) (f : FmtLD) : Statement (.ldn h f) := ofRow _ h 0x50 _ rfl rfl (by decide) (packLD_lt f)
theorem stn (h : Hdr) (f : FmtST) : Statement (.stn h f) := ofRow _ h 0x51 _ rfl rfl (by decide) (packST_lt f)
theorem ldnV (h : Hdr) (f : FmtLDV) : Statement (.ldnV h f) := ofRow _ h 0x52 _ rfl rfl (by decide) (packLDV_lt f)
theorem stnV (h : Hdr) (f : FmtSTV) : Statement (.stnV h f) := ofRow _ h 0x53 _ rfl rfl (by decide) (packSTV_lt f)
theorem ldh (h : Hdr) (f : FmtLD) : Statement (.ldh h f) := ofRow _ h 0x54 _ rfl rfl (by decide) (packLD_lt f)
theorem sth (h : Hdr) (f : FmtST) : Statement (.sth h f) := ofRow _ h 0x55 _ rfl rfl (by decide) (packST_lt f)
theorem ldhV (h : Hdr) (f : FmtLDV) : Statement (.ldhV h f) := ofRow _ h 0x56 _ rfl rfl (by decide) (packLDV_lt f)
theorem sthV (h : Hdr) (f : FmtSTV) : Statement (.sthV h f) := ofRow _ h 0x57 _ rfl rfl (by decide) (packSTV_lt f)
theorem drain (h : Hdr) (f : FmtDR) : Statement (.drain h f) := ofRow _ h 0x58 _ rfl rfl (by decide) (packDR_lt f)
theorem fence (h : Hdr) (f : FmtFN) : Statement (.fence h f) := ofRow _ h 0x59 _ rfl rfl (by decide) (packFN_lt f)
theorem cpy (h : Hdr) (f : FmtCP) : Statement (.cpy h f) := ofRow _ h 0x5A _ rfl rfl (by decide) (packCP_lt f)
theorem ecmd (h : Hdr) (f : FmtEC) : Statement (.ecmd h f) := ofRow _ h 0x5B _ rfl rfl (by decide) (packEC_lt f)
theorem qfence (h : Hdr) (f : FmtQF) : Statement (.qfence h f) := ofRow _ h 0x5C _ rfl rfl (by decide) (packQF_lt f)
theorem salloc (h : Hdr) (f : FmtS2) : Statement (.salloc h f) := ofRow _ h 0x5D _ rfl rfl (by decide) (packS2_lt f)
theorem pfm (h : Hdr) (f : FmtS1) : Statement (.pfm h f) := ofRow _ h 0x5E _ rfl rfl (by decide) (packS1_lt f)
theorem mqcnt (h : Hdr) (f : FmtQ) : Statement (.mqcnt h f) := ofRow _ h 0x5F _ rfl rfl (by decide) (packQ_lt f)
theorem barInit (h : Hdr) (f : FmtS2) : Statement (.barInit h f) := ofRow _ h 0x60 _ rfl rfl (by decide) (packS2_lt f)
theorem barArr (h : Hdr) (f : FmtRR) : Statement (.barArr h f) := ofRow _ h 0x61 _ rfl rfl (by decide) (packRR_lt f)
theorem barExp (h : Hdr) (f : FmtS2) : Statement (.barExp h f) := ofRow _ h 0x62 _ rfl rfl (by decide) (packS2_lt f)
theorem barCred (h : Hdr) (f : FmtS2) : Statement (.barCred h f) := ofRow _ h 0x63 _ rfl rfl (by decide) (packS2_lt f)
theorem barWait (h : Hdr) (f : FmtRR) : Statement (.barWait h f) := ofRow _ h 0x64 _ rfl rfl (by decide) (packRR_lt f)
theorem barTest (h : Hdr) (f : FmtRR) : Statement (.barTest h f) := ofRow _ h 0x65 _ rfl rfl (by decide) (packRR_lt f)
theorem barBrk (h : Hdr) (f : FmtS1) : Statement (.barBrk h f) := ofRow _ h 0x66 _ rfl rfl (by decide) (packS1_lt f)
theorem mcast (h : Hdr) (f : FmtRR) : Statement (.mcast h f) := ofRow _ h 0x67 _ rfl rfl (by decide) (packRR_lt f)
theorem amo (h : Hdr) (f : FmtAM) : Statement (.amo h f) := ofRow _ h 0x68 _ rfl rfl (by decide) (packAM_lt f)
theorem amocas (h : Hdr) (f : FmtAM) : Statement (.amocas h f) := ofRow _ h 0x69 _ rfl rfl (by decide) (packAM_lt f)
theorem ared (h : Hdr) (f : FmtAM) : Statement (.ared h f) := ofRow _ h 0x6A _ rfl rfl (by decide) (packAM_lt f)
theorem amof (h : Hdr) (f : FmtAM) : Statement (.amof h f) := ofRow _ h 0x6B _ rfl rfl (by decide) (packAM_lt f)
theorem aredf (h : Hdr) (f : FmtAM) : Statement (.aredf h f) := ofRow _ h 0x6C _ rfl rfl (by decide) (packAM_lt f)
theorem amotOpen (h : Hdr) (f : FmtS2) : Statement (.amotOpen h f) := ofRow _ h 0x6D _ rfl rfl (by decide) (packS2_lt f)
theorem amotSkip (h : Hdr) (f : FmtS2) : Statement (.amotSkip h f) := ofRow _ h 0x6E _ rfl rfl (by decide) (packS2_lt f)
theorem drainT (h : Hdr) (f : FmtS1) : Statement (.drainT h f) := ofRow _ h 0x6F _ rfl rfl (by decide) (packS1_lt f)
theorem pseq (h : Hdr) (f : FmtRR) : Statement (.pseq h f) := ofRow _ h 0x70 _ rfl rfl (by decide) (packRR_lt f)
theorem pflush (h : Hdr) (f : FmtS1) : Statement (.pflush h f) := ofRow _ h 0x71 _ rfl rfl (by decide) (packS1_lt f)
theorem rdig (h : Hdr) (f : FmtRR) : Statement (.rdig h f) := ofRow _ h 0x72 _ rfl rfl (by decide) (packRR_lt f)
theorem rcmp (h : Hdr) (f : FmtRR) : Statement (.rcmp h f) := ofRow _ h 0x73 _ rfl rfl (by decide) (packRR_lt f)
theorem deliveryVisible (ctx : Nat) : Statement (.deliveryVisible ctx) := rfl
theorem landingDataArrival (req : Nat) (r : Reply) : Statement (.landingDataArrival req r) := rfl
theorem queueDeadlock (ctx : Nat) : Statement (.queueDeadlock ctx) := rfl
theorem joinRendezvous (ctx : Nat) : Statement (.joinRendezvous ctx) := rfl
theorem taskComplete (ctx : Nat) : Statement (.taskComplete ctx) := rfl
theorem gateLift (ctx : Nat) : Statement (.gateLift ctx) := rfl
theorem deferredStoreFault (req : Nat) (cause : Cause) : Statement (.deferredStoreFault req cause) := rfl
theorem asyncCauseOffer (ctx : Nat) : Statement (.asyncCauseOffer ctx) := rfl
theorem homeAccessApply (req : Nat) : Statement (.homeAccessApply req) := rfl
theorem egressBufferDrain (req : Nat) : Statement (.egressBufferDrain req) := rfl
theorem flushMarkerGather (ctx die : Nat) : Statement (.flushMarkerGather ctx die) := rfl
theorem flushCompletion (ctx : Nat) : Statement (.flushCompletion ctx) := rfl
theorem moverCommandStart (ctx q : Nat) : Statement (.moverCommandStart ctx q) := rfl
theorem copy (cmd : Nat) : Statement (.copy cmd) := rfl
theorem gather (cmd : Nat) : Statement (.gather cmd) := rfl
theorem i2c (cmd : Nat) : Statement (.i2c cmd) := rfl
theorem fill (cmd : Nat) : Statement (.fill cmd) := rfl
theorem qfenceCommand (cmd : Nat) : Statement (.qfenceCommand cmd) := rfl
theorem mcastCommand (cmd : Nat) : Statement (.mcastCommand cmd) := rfl
theorem commandComplete (cmd : Nat) : Statement (.commandComplete cmd) := rfl
theorem barrierEventApply (req : Nat) : Statement (.barrierEventApply req) := rfl
theorem engineCredit (cmd : Nat) : Statement (.engineCredit cmd) := rfl
theorem routerMerge (req other : Nat) : Statement (.routerMerge req other) := rfl
theorem atomicHomeApply (req : Nat) : Statement (.atomicHomeApply req) := rfl
theorem ticketRequestArrival (req : Nat) : Statement (.ticketRequestArrival req) := rfl
theorem retryResend (req : Nat) : Statement (.retryResend req) := rfl
theorem gapTimerExpiry (win : Nat) : Statement (.gapTimerExpiry win) := rfl
theorem preemptionRequest (ctx : Nat) : Statement (.preemptionRequest ctx) := rfl
theorem contextSave (ctx : Nat) : Statement (.contextSave ctx) := rfl
theorem contextResume (ctx : Nat) : Statement (.contextResume ctx) := rfl
theorem doorbell (die : Nat) (rec : List Byte) : Statement (.doorbell die rec) := rfl
theorem launchAdmit (launch : Nat) : Statement (.launchAdmit launch) := rfl
theorem schedulingStep (die : Nat) : Statement (.schedulingStep die) := rfl
theorem instanceStart (ctx : Nat) : Statement (.instanceStart ctx) := rfl
theorem instanceEnd (ctx : Nat) : Statement (.instanceEnd ctx) := rfl
theorem gangResume (gang : Nat) : Statement (.gangResume gang) := rfl
theorem turnChange (die pcore : Nat) : Statement (.turnChange die pcore) := rfl
theorem powerThrottle (gang cycles : Nat) : Statement (.powerThrottle gang cycles) := rfl
theorem twinRunEnd (run : Nat) : Statement (.twinRunEnd run) := rfl
theorem containmentOffer : Statement (.containmentOffer) := rfl
theorem xinvWrite (ctx : Nat) (v : Word) : Statement (.xinvWrite ctx v) := rfl
theorem escWrite (ctx : Nat) (v : Word) : Statement (.escWrite ctx v) := rfl
theorem decodeRegionEnable (die n : Nat) (v : Word) : Statement (.decodeRegionEnable die n v) := rfl
theorem decodeRegionDisable (die n : Nat) (v : Word) : Statement (.decodeRegionDisable die n v) := rfl
theorem decodeFill (die n vec seg : Nat) : Statement (.decodeFill die n vec seg) := rfl
theorem heddleWrite (die l : Nat) (v : Word) : Statement (.heddleWrite die l v) := rfl
theorem savepoolWrite (die : Nat) (v : Word) : Statement (.savepoolWrite die v) := rfl
theorem hsliceWrite (die : Nat) (v : Word) : Statement (.hsliceWrite die v) := rfl
theorem atpoolWrite (die : Nat) (v : Word) : Statement (.atpoolWrite die v) := rfl
theorem lnkCtlWrite (link : Nat) (v : Word) : Statement (.lnkCtlWrite link v) := rfl
theorem fabNodeWrite (v : Word) : Statement (.fabNodeWrite v) := rfl
theorem peerEntWrite (v : Word) : Statement (.peerEntWrite v) := rfl
theorem replCtlWrite (v : Word) : Statement (.replCtlWrite v) := rfl
theorem registerWrite (ctx : Nat) (crn : BitVec 12) (v : Word) : Statement (.registerWrite ctx crn v) := rfl
theorem deskewEpoch : Statement (.deskewEpoch) := rfl
theorem flitReplay (link : Nat) : Statement (.flitReplay link) := rfl
theorem laneFail (link module : Nat) (up : Bool) : Statement (.laneFail link module up) := rfl
theorem retrain (link step : Nat) (t : Training) : Statement (.retrain link step t) := rfl
theorem replayWindowStepDown (link step : Nat) : Statement (.replayWindowStepDown link step) := rfl
theorem dieReset (die reason : Nat) : Statement (.dieReset die reason) := rfl
theorem quiesce (die other : Nat) : Statement (.quiesce die other) := rfl
theorem dieRejoin (r : DieReturn) : Statement (.dieRejoin r) := rfl
theorem completionRecord (die : Nat) : Statement (.completionRecord die) := rfl
theorem cmplHeadWrite (die off : Nat) (v : Word) : Statement (.cmplHeadWrite die off v) := rfl
theorem flushReadComplete (die : Nat) : Statement (.flushReadComplete die) := rfl
theorem ctxOpen (id : Nat) (policy : BitVec 2) (xroot : Word) (kek : List Byte) : Statement (.ctxOpen id policy xroot kek) := rfl
theorem ctxClose (id : Nat) : Statement (.ctxClose id) := rfl
theorem upload (id : Nat) (g : GraphImage) : Statement (.upload id g) := rfl
theorem free (gid : Nat) : Statement (.free gid) := rfl
theorem keyLoad (id slot : Nat) (wrapped : List Byte) : Statement (.keyLoad id slot wrapped) := rfl
theorem keyClear (id slot : Nat) : Statement (.keyClear id slot) := rfl
theorem resetDie (die : Nat) : Statement (.resetDie die) := rfl
theorem retirePage (pa : Nat) : Statement (.retirePage pa) := rfl
theorem fwStage (image : List Byte) (dies : Bool) : Statement (.fwStage image dies) := rfl
theorem fwSwitch : Statement .fwSwitch := rfl
theorem attest (nonce : List Byte) (dst : Nat) : Statement (.attest nonce dst) := rfl
theorem logRead (a b dst : Nat) : Statement (.logRead a b dst) := rfl
theorem journalClear (step : Nat) : Statement (.journalClear step) := rfl
theorem handlerLoad (die : Nat) (image : List Word) : Statement (.handlerLoad die image) := rfl
theorem packagePowerUp (b : BootOutcome) : Statement (.packagePowerUp b) := rfl
theorem errorLogAppend : Statement (.errorLogAppend) := rfl
theorem timeLogEntry (die : Nat) : Statement (.timeLogEntry die) := rfl
theorem memoryError (die unit loc : Nat) (corrected : Bool) : Statement (.memoryError die unit loc corrected) := rfl
theorem lauter (cmd : Nat) : Statement (.lauter cmd) := rfl
theorem lauterMaskPoll (cmd : Nat) : Statement (.lauterMaskPoll cmd) := rfl
theorem lauterForward (cmd : Nat) : Statement (.lauterForward cmd) := rfl
theorem mailboxPlace (req : Nat) : Statement (.mailboxPlace req) := rfl
theorem kvopRegister (cmd : Nat) : Statement (.kvopRegister cmd) := rfl
theorem kvopOpen (cmd : Nat) : Statement (.kvopOpen cmd) := rfl
theorem kvopSeal (cmd : Nat) : Statement (.kvopSeal cmd) := rfl
theorem kvopFork (cmd : Nat) : Statement (.kvopFork cmd) := rfl
theorem kvopRelease (cmd : Nat) : Statement (.kvopRelease cmd) := rfl
theorem kvopResolve (cmd : Nat) : Statement (.kvopResolve cmd) := rfl
theorem kvopTrunc (cmd : Nat) : Statement (.kvopTrunc cmd) := rfl
theorem kvopTagrd (cmd : Nat) : Statement (.kvopTagrd cmd) := rfl
theorem kvopDone (cmd : Nat) : Statement (.kvopDone cmd) := rfl
theorem kvopRebuild (cmd : Nat) : Statement (.kvopRebuild cmd) := rfl
theorem kvFaultReport (die n vec seg : Nat) (cause : Cause) : Statement (.kvFaultReport die n vec seg cause) := rfl
theorem rebuildInject (handle : Nat) : Statement (.rebuildInject handle) := rfl
theorem coll (cmd : Nat) (ranks : List RankInput) : Statement (.coll cmd ranks) := rfl
theorem peerRequestApply (node : Nat) (r : PeerRequest) : Statement (.peerRequestApply node r) := rfl
theorem fabricFlushMarker (node : Nat) (m : PeerMarkers) : Statement (.fabricFlushMarker node m) := rfl
theorem nodeUnreachable (node : Nat) : Statement (.nodeUnreachable node) := rfl
theorem replicaPairArrival (step : BitVec 32) (digest : BitVec 128) : Statement (.replicaPairArrival step digest) := rfl
theorem llcSliceRetire (die slice : Nat) : Statement (.llcSliceRetire die slice) := rfl
theorem hostAccessTimeout (req : Nat) : Statement (.hostAccessTimeout req) := rfl

end Sys2Proof.Laws.Encoding
end

