-- ==== Sys2Proof/Tests/Slice0.lean ====
section
/-! SUPPORT. Tests: words of every family decode to what they stand for, ill-formed words are refused, and every statement's hypotheses
are met by a state. Expected values are computed by hand from the rules named. -/

set_option maxRecDepth 20000

namespace Sys2Proof.Tests

open Sys2Proof.Machine Sys2Proof.Safety Sys2Proof.Effects

/-! ### States of the witnesses -/

/-- Seven files of eight entries: 0, 1, 64, the DSP address of the core's offset 0, an address of node 1, 0x180, 2^24 and 8. -/
def entries : List (Nat × Word) :=
  (range 0 6).flatMap fun f =>
    [(8 * f + 1, 1), (8 * f + 2, 64), (8 * f + 3, 0x80000000), (8 * f + 4, 0x1000000000000), (8 * f + 5, 0x180), (8 * f + 6, 0x1000000), (8 * f + 7, 8)]

/-- The context of the witnesses: context 1 on core 0 of VD0, a system task with the array, all of every half its own, UMODE 1, every
cluster but C idle, one return address, and two entries in q.cx. -/
def ctxFor (cl : Cluster) (w : Word) : Ctx :=
  let c := (fetchCtx cl w).2
  let x := { c.cl cl with files := ⟨entries⟩, preds := 0x0A, ret := [16] }
  { c.setCl cl x with
    who := { c.who with au := true }
    coreCtl := 4
    queues := ⟨[(2, [⟨0, some 5, 0⟩, ⟨1, some 7, 0⟩])]⟩
    rgn := .all 0x0000FFFF00000000 }

/-- The scratchpad of the witnesses: an area header at 0, a COPY command and its shape at 0x100, a command of the lauter engine at 0x140, a proposal at
0x180, and one message in box 0. -/
def scratch : CoreState :=
  { CoreState.blank with
    bytes := ⟨[(9, 0x40), (0x110, 9), (0x11F, 1), (0x120, 0x10), (0x121, 64), (0x124, 1), (0x126, 1), (0x130, 64), (0x15F, 8), (0x182, 1)]⟩
    lines := ⟨[0, 1, 2, 3, 4, 5, 6]⟩
    mail := ⟨[(0, [(0, List.replicate 64 7)])]⟩ }

/-- A state in which a word is next in a cluster. -/
def hereC (cl : Cluster) (c : Ctx) : State :=
  let l : Launch := ⟨1, 0, 0, 0, 0, .empty, [], 0, false, 0, 0, 0⟩
  let g : GraphImage := ⟨[0, 0x50050000, 0, 0, 0, 0, 0, 0], [], []⟩
  { State.reset with
    focus := (16777217, cl)
    slots := [(16777217, cl)]
    ctxs := ⟨[(16777217, c)]⟩
    cores := ⟨[(128, scratch)]⟩
    launches := ⟨[(0, l)]⟩
    dies := ⟨[(0, .reset), (1, { Die.reset with graphs := ⟨[(0, ⟨0, g, 0⟩)]⟩ }), (2, .reset)]⟩
    fab := { Fabric.reset with node := 0x10000, ents := ⟨[(1, 3)]⟩, replCtl := 1 } }
def here (cl : Cluster) (w : Word) : State := hereC cl (ctxFor cl w)

/-- The context of the event witnesses, changed by `f`, in its state. -/
def S (f : Ctx → Ctx) : State := hereC .c (f (ctxFor .c 0))
def k : Nat := 16777217

/-- A packet of that context to the DSP address 0x80000040, which its region holds. -/
def pkt (act : Action) : Packet :=
  { ctx := k, lcore := 0, die := 1, cl := .x, space := .dsp, addr := 0x80000040, act := act, ord := 0, sc := 0, land := none, chunk := 0,
    stage := .sent, twoHop := false, data := [], cause := 0, uninit := none, faddr := 0, sseq := 0, merged := [], served := false, took := [], after := [],
    sentAt := 0 }

/-- The state with that packet under way, under number 3. -/
def withP (p : Packet) : State := { S id with net := ⟨[(3, p)]⟩, serial := 9 }

/-- A command of that context, under number 3. -/
def cmd (u : EngineUnit) (w0 w1 w2 w3 : Word) : Cmd :=
  ⟨k, u, 1, 0, 0, ⟨w0, w1, w2, w3⟩, .all 0, 0, 0, 0, 0, [], false, false, [], 0, [], none⟩
def withC (c : Cmd) : State := { S id with cmds := ⟨[(3, c)]⟩, serial := 9 }

/-- A window at offset 64 of the core that the context owns. -/
def win : Window := ⟨0, .empty, k, .dsp, 0x80000040, false, 0, true⟩
def withW (w : Window) (s : State) : State := s.modCore 128 fun m => { m with windows := ⟨[(16, w)]⟩ }

/-- A landing of the context due now. -/
def due : Landing := { Landing.blank 1 .c 0 0 0 with d1 := 9 }

/-- The context stands at its boundary. -/
def atB (f : Ctx → Ctx) : State := S fun c => f { c with phase := .boundary, time := 4 }

/-- A write that the context has staged. -/
def stagedReg (crn : BitVec 12) (v : Word) : State := S fun c => { c with staged := [.reg crn v] }

/-- A directory command with a ring on die 1. -/
def kvCmd (op : Nat) : State :=
  { withC (cmd .kv 5 0 (BitVec.ofNat 64 (48 + op)) 0x0900000000000000) with
    rings := ⟨[(1, ⟨0x80000000, 0, 0, 0, false, 0, k, 0, 0, 0⟩)]⟩ }

/-- A run of task 0 of launch 0. -/
def oneRun : Run := ⟨0, 0, 1, none, 0, 0, 0, .ready, 0, none, [], [], 0, 0, 0, [], 0, false, none⟩

/-- The state with a second context, on a logical core of its own number. -/
def two (l : Nat) : State :=
  { S id with ctxs := ⟨[(16777217, ctxFor .c 0), (16777218, { ctxFor .c 0 with who := { (ctxFor .c 0).who with lcore := l } })]⟩ }

/-- A run of a twin task with one instance, which has ended. -/
def twin : State :=
  let g : GraphImage := ⟨[0x10000, 0, 0, 0, 0, 0, 0, 0, 0, 0x400000000], [], []⟩
  let r : Run := { oneRun with ended := [([0, 0, 0], 5)] }
  { (S id).modDie 1 fun d => { d with graphs := ⟨[(0, ⟨0, g, 0⟩)]⟩ } with
    launches := ⟨[(0, ⟨1, 0, 0, 0, 0, .empty, [], 0, false, 0, 0, 0⟩)]⟩, runs := ⟨[(0, r)]⟩ }

/-- The checks of `Issues` on the context of `hereC`, as a Bool. -/
def passes (cl : Cluster) (c : Ctx) (i : Instr) (h : Hdr) (u : Uses) : Bool :=
  wellFormed cl i && decide ((c.cl cl).pred h.pred.toNat ≠ h.neg) &&
    (!Pends c cl h u || (decide (c.wmode ≠ 1) && decide (c.wmode ≠ 2))) && (!h.sync || c.inHandler || c.bundle) && (!u.priv || c.priv) &&
    !u.dieIllegal && decide (c.blocked cl u = none) && !c.portClash cl u

theorem passes_issues {cl : Cluster} {c : Ctx} {i : Instr} {h : Hdr} {u : Uses} (p : passes cl c i h u = true) :
    Issues (hereC cl c) c i h u := by
  simp only [passes, Bool.and_eq_true, Bool.or_eq_true, Bool.not_eq_true', decide_eq_true_eq] at p
  obtain ⟨⟨⟨⟨⟨⟨⟨hl, hg⟩, hs⟩, hy⟩, hp⟩, hd⟩, hq⟩, ho⟩ := p
  exact ⟨rfl, hl, hg, hs, by simpa [or_assoc] using hy, hp, hd, hq, ho⟩

/-- A case of a witness: a cluster, its context, and a word. -/
abbrev Case := Cluster × Ctx × Instr

/-- Every case issues with what its table gives, and gates on no acquire. -/
def allIssue {α : Type} (table : State → Ctx → Instr → Option α) (hu : α → Hdr × Uses) (l : List Case) : Bool :=
  l.all fun e => match table (hereC e.1 e.2.1) e.2.1 e.2.2 with
    | some d => passes e.1 e.2.1 e.2.2 (hu d).1 (hu d).2 && (!(hu d).2.mem || !e.2.1.acquiring)
    | none => false

/-- In every case the table has the word, and the word issues. -/
def Issuing {α : Type} (table : State → Ctx → Instr → Option α) (hu : α → Hdr × Uses) (l : List Case) : Prop :=
  ∀ e ∈ l, ∃ d, table (hereC e.1 e.2.1) e.2.1 e.2.2 = some d ∧
    Issues (hereC e.1 e.2.1) e.2.1 e.2.2 (hu d).1 (hu d).2 ∧ Clear e.2.1 (hu d).2

theorem allIssue_spec {α : Type} {table : State → Ctx → Instr → Option α} {hu : α → Hdr × Uses} {l : List Case}
    (h : allIssue table hu l = true) : Issuing table hu l := by
  intro e he
  have h := List.all_eq_true.mp h e he
  revert h
  cases ht : table (hereC e.1 e.2.1) e.2.1 e.2.2 with
  | none => simp
  | some d =>
    simp only [Bool.and_eq_true, Bool.or_eq_true, Bool.not_eq_true']
    intro ⟨hp, hm⟩
    refine ⟨d, rfl, passes_issues hp, fun hu => ?_⟩
    rcases hm with hm | hm
    · rw [hu] at hm; cases hm
    · exact hm

/-! ### Words of every family (the encodings of R39, R46, R50, R53, R54; the OPs of R57 to R61) -/

/-- A word in its cluster and what it stands for. -/
abbrev Row := Cluster × Word × Instr

def valueRows : List Row :=
  [(.c, 0x0014FF2100000000, .add ⟨false, false, 0⟩ ⟨19, 63, 2, 1, 0⟩),
   (.c, 0x0024FF2100000000, .sub ⟨false, false, 0⟩ ⟨19, 63, 2, 1, 0⟩),
   (.c, 0x0034FF2100000000, .andW ⟨false, false, 0⟩ ⟨19, 63, 2, 1, 0⟩),
   (.c, 0x0044FF2100000000, .orW ⟨false, false, 0⟩ ⟨19, 63, 2, 1, 0⟩),
   (.c, 0x0054FF2100000000, .xorW ⟨false, false, 0⟩ ⟨19, 63, 2, 1, 0⟩),
   (.c, 0x0064FF2100000000, .andn ⟨false, false, 0⟩ ⟨19, 63, 2, 1, 0⟩),
   (.c, 0x0074FF2100000000, .shl ⟨false, false, 0⟩ ⟨19, 63, 2, 1, 0⟩),
   (.c, 0x0084FF2100000000, .shr ⟨false, false, 0⟩ ⟨19, 63, 2, 1, 0⟩),
   (.c, 0x0094FF2100000000, .sra ⟨false, false, 0⟩ ⟨19, 63, 2, 1, 0⟩),
   (.c, 0x00A4FF2100000000, .rot ⟨false, false, 0⟩ ⟨19, 63, 2, 1, 0⟩),
   (.c, 0x00B4FF210000000A, .cmp ⟨false, false, 0⟩ ⟨19, 63, 2, 1, 10⟩),
   (.c, 0x00C4FF2100000005, .sel ⟨false, false, 0⟩ ⟨19, 63, 2, 1, 5⟩),
   (.c, 0x00D4FF3000000000, .mov ⟨false, false, 0⟩ ⟨19, 63, 3⟩),
   (.c, 0x00E4FF3000000000, .clz ⟨false, false, 0⟩ ⟨19, 63, 3⟩),
   (.c, 0x00F4FF3000000000, .popc ⟨false, false, 0⟩ ⟨19, 63, 3⟩),
   (.c, 0x0104FF30FFFFFFFE, .addi ⟨false, false, 0⟩ ⟨19, 63, 3, 0, 4294967294⟩),
   (.c, 0x0114FF30FFFFFFFE, .andi ⟨false, false, 0⟩ ⟨19, 63, 3, 0, 4294967294⟩),
   (.c, 0x0124FF30FFFFFFFE, .ori ⟨false, false, 0⟩ ⟨19, 63, 3, 0, 4294967294⟩),
   (.c, 0x0134FF30FFFFFFFE, .xori ⟨false, false, 0⟩ ⟨19, 63, 3, 0, 4294967294⟩),
   (.c, 0x0144FF300000003F, .shli ⟨false, false, 0⟩ ⟨19, 63, 3, 0, 63⟩),
   (.c, 0x0154FF3000000005, .shri ⟨false, false, 0⟩ ⟨19, 63, 3, 0, 5⟩),
   (.c, 0x0164FF3000000005, .srai ⟨false, false, 0⟩ ⟨19, 63, 3, 0, 5⟩),
   (.c, 0x0174FF3000000001, .roti ⟨false, false, 0⟩ ⟨19, 63, 3, 0, 1⟩),
   (.c, 0x0184FF33FFFFFFFE, .cmpi ⟨false, false, 0⟩ ⟨19, 63, 3, 3, 4294967294⟩),
   (.c, 0x0194FF0080000001, .li ⟨false, false, 0⟩ ⟨19, 63, 2147483649⟩),
   (.c, 0x01A4FF3000000007, .lih ⟨false, false, 0⟩ ⟨19, 63, 3, 0, 7⟩),
   (.c, 0x01B4FF3100000704, .ext ⟨false, false, 0⟩ ⟨19, 63, 3, 1, 1796⟩),
   (.c, 0x0234FF0000000000, .prd ⟨false, false, 0⟩ ⟨19, 63⟩),
   (.c, 0x0404FF2100000000, .mul ⟨false, false, 0⟩ ⟨19, 63, 2, 1, 0⟩),
   (.c, 0x0414FF2100000000, .mulh ⟨false, false, 0⟩ ⟨19, 63, 2, 1, 0⟩),
   (.c, 0x0424FF2100000000, .mulhu ⟨false, false, 0⟩ ⟨19, 63, 2, 1, 0⟩),
   (.c, 0x0474FF30FFFFFFFE, .muli ⟨false, false, 0⟩ ⟨19, 63, 3, 0, 4294967294⟩)]

def divideRows : List Row :=
  [(.c, 0x0434FF2100000000, .div ⟨false, false, 0⟩ ⟨19, 63, 2, 1, 0⟩),
   (.c, 0x0444FF2100000000, .divu ⟨false, false, 0⟩ ⟨19, 63, 2, 1, 0⟩),
   (.c, 0x0454FF2100000000, .rem ⟨false, false, 0⟩ ⟨19, 63, 2, 1, 0⟩),
   (.c, 0x0464FF2100000000, .remu ⟨false, false, 0⟩ ⟨19, 63, 2, 1, 0⟩)]

def predicateRows : List Row :=
  [(.c, 0x0206540000000000, .pand ⟨false, false, 0⟩ ⟨3, 1, 2, 1, 0⟩),
   (.c, 0x0216540000000000, .por ⟨false, false, 0⟩ ⟨3, 1, 2, 1, 0⟩),
   (.c, 0x0226540000000000, .pxor ⟨false, false, 0⟩ ⟨3, 1, 2, 1, 0⟩),
   (.c, 0x0240003000000055, .pwr ⟨false, false, 0⟩ ⟨3, 85⟩)]

def countRows : List Row :=
  [(.c, 0x0304FF0900000000, .qcnt ⟨false, false, 0⟩ ⟨19, 63, 9⟩),
   (.x, 0x05F27F0300000000, .mqcnt ⟨false, false, 0⟩ ⟨9, 63, 3⟩)]

def branchRows : List Row :=
  [(.c, 0x0280000000FFFFFE, .br ⟨false, false, 0⟩ ⟨0, 16777214⟩),
   (.c, 0x0294C00000FFFFFE, .jal ⟨false, false, 0⟩ ⟨19, 16777214⟩),
   (.c, 0x02A0007200000000, .jr ⟨false, false, 0⟩ ⟨7, 2⟩),
   (.c, 0x02B0000000000000, .ret ⟨false, false, 0⟩),
   (.c, 0x02C8000000000003, .loop ⟨false, false, 0⟩ ⟨1, 0, 0, 3⟩),
   (.c, 0x02D8000000000003, .loopi ⟨false, false, 0⟩ ⟨1, 0, 0, 3⟩),
   (.c, 0x02E8000000000003, .lend ⟨false, false, 0⟩ ⟨1, 0, 0, 3⟩)]

def controlRows : List Row :=
  [(.c, 0x0000000000000000, .nop ⟨false, false, 0⟩),
   (.c, 0x0320000000000000, .join ⟨false, false, 0⟩),
   (.c, 0x0330000000001205, .trap ⟨false, false, 0⟩ ⟨4613⟩),
   (.c, 0x0340000000000000, .halt ⟨false, false, 0⟩),
   (.c, 0x0488FFFF00000000, .fork ⟨false, false, 0⟩ ⟨1, 0, 0, 65535, 0, 0⟩),
   (.c, 0x04E0000000000000, .yield ⟨false, false, 0⟩),
   (.c, 0x04F0000000000000, .exit ⟨false, false, 0⟩)]

def laneRows : List Row :=
  [(.v, 0x0401000320080000, .vadd ⟨false, false, 0⟩ ⟨2048, 3200, 4096, 0, 0, 0⟩),
   (.v, 0x0411000320080000, .vsub ⟨false, false, 0⟩ ⟨2048, 3200, 4096, 0, 0, 0⟩),
   (.v, 0x0421000320080000, .vmul ⟨false, false, 0⟩ ⟨2048, 3200, 4096, 0, 0, 0⟩),
   (.v, 0x0431000320080000, .vfma ⟨false, false, 0⟩ ⟨2048, 3200, 4096, 0, 0, 0⟩),
   (.v, 0x0441000320080000, .vfms ⟨false, false, 0⟩ ⟨2048, 3200, 4096, 0, 0, 0⟩),
   (.v, 0x0451000320080000, .vfnma ⟨false, false, 0⟩ ⟨2048, 3200, 4096, 0, 0, 0⟩),
   (.v, 0x0461000320080000, .vmax ⟨false, false, 0⟩ ⟨2048, 3200, 4096, 0, 0, 0⟩),
   (.v, 0x0471000320080000, .vmin ⟨false, false, 0⟩ ⟨2048, 3200, 4096, 0, 0, 0⟩),
   (.v, 0x0481000320000000, .vabs ⟨false, false, 0⟩ ⟨2048, 3200, 0, 0, 0, 0⟩),
   (.v, 0x0491000320000000, .vneg ⟨false, false, 0⟩ ⟨2048, 3200, 0, 0, 0, 0⟩),
   (.v, 0x04A1000320080000, .vdiv ⟨false, false, 0⟩ ⟨2048, 3200, 4096, 0, 0, 0⟩),
   (.v, 0x04B1000320000000, .vsqrt ⟨false, false, 0⟩ ⟨2048, 3200, 0, 0, 0, 0⟩),
   (.v, 0x04C1000320000000, .vexp2 ⟨false, false, 0⟩ ⟨2048, 3200, 0, 0, 0, 0⟩),
   (.v, 0x04D1000320000000, .vexp ⟨false, false, 0⟩ ⟨2048, 3200, 0, 0, 0, 0⟩),
   (.v, 0x04E1000320080000, .vscale ⟨false, false, 0⟩ ⟨2048, 3200, 4096, 0, 0, 0⟩),
   (.v, 0x0501000320080000, .viadd ⟨false, false, 0⟩ ⟨2048, 3200, 4096, 0, 0, 0⟩),
   (.v, 0x0511000320080000, .visub ⟨false, false, 0⟩ ⟨2048, 3200, 4096, 0, 0, 0⟩),
   (.v, 0x0521000320080000, .vimul ⟨false, false, 0⟩ ⟨2048, 3200, 4096, 0, 0, 0⟩),
   (.v, 0x0531000320080000, .vimax ⟨false, false, 0⟩ ⟨2048, 3200, 4096, 0, 0, 0⟩),
   (.v, 0x0541000320080000, .vimin ⟨false, false, 0⟩ ⟨2048, 3200, 4096, 0, 0, 0⟩),
   (.v, 0x0551000320080000, .vand ⟨false, false, 0⟩ ⟨2048, 3200, 4096, 0, 0, 0⟩),
   (.v, 0x0561000320080000, .vor ⟨false, false, 0⟩ ⟨2048, 3200, 4096, 0, 0, 0⟩),
   (.v, 0x0571000320080000, .vxor ⟨false, false, 0⟩ ⟨2048, 3200, 4096, 0, 0, 0⟩),
   (.v, 0x0581000320080000, .vshl ⟨false, false, 0⟩ ⟨2048, 3200, 4096, 0, 0, 0⟩),
   (.v, 0x0591000320080000, .vshr ⟨false, false, 0⟩ ⟨2048, 3200, 4096, 0, 0, 0⟩),
   (.v, 0x05A1000320080000, .vsra ⟨false, false, 0⟩ ⟨2048, 3200, 4096, 0, 0, 0⟩),
   (.v, 0x05B1000320080000, .vcmp ⟨false, false, 0⟩ ⟨2048, 3200, 4096, 0, 0, 0⟩),
   (.v, 0x05C1000320080000, .vicmp ⟨false, false, 0⟩ ⟨2048, 3200, 4096, 0, 0, 0⟩),
   (.v, 0x05D1000320080000, .vsel ⟨false, false, 0⟩ ⟨2048, 3200, 4096, 0, 0, 0⟩),
   (.v, 0x05E1000000080000, .viota ⟨false, false, 0⟩ ⟨2048, 0, 4096, 0, 0, 0⟩),
   (.v, 0x0601000320085000, .vcvt ⟨false, false, 0⟩ ⟨2048, 3200, 4, 5, 0, 0, 0⟩),
   (.v, 0x0621000320080000, .vunpack ⟨false, false, 0⟩ ⟨2048, 3200, 4096, 0, 0, 0⟩),
   (.v, 0x0631000320080000, .vperm ⟨false, false, 0⟩ ⟨2048, 3200, 4096, 0, 0, 0⟩),
   (.v, 0x0641000320000000, .vrot ⟨false, false, 0⟩ ⟨2048, 3200, 0, 0, 0, 0, 0⟩),
   (.v, 0x0651000320000000, .vbcast ⟨false, false, 0⟩ ⟨2048, 3200, 0, 0, 0, 0, 0⟩),
   (.v, 0x0661000320000000, .vmov ⟨false, false, 0⟩ ⟨2048, 3200, 0, 0, 0, 0⟩),
   (.v, 0x0671000000000000, .vclr ⟨false, false, 0⟩ ⟨2048, 0, 0, 0, 0, 0⟩),
   (.v, 0x0681000000044000, .vins ⟨false, false, 0⟩ ⟨2048, 0, 1, 1, 0, 0, 0⟩)]

def scalarRows : List Row :=
  [(.v, 0x05F27F0320000000, .vpopc ⟨false, false, 0⟩ ⟨9, 63, 3200, 0, 0, 0, 0⟩),
   (.v, 0x06927F0320000000, .vext ⟨false, false, 0⟩ ⟨9, 63, 3200, 0, 0, 0, 0⟩),
   (.v, 0x06A27F0320000000, .vrmax ⟨false, false, 0⟩ ⟨9, 63, 3200, 0, 0, 0, 0⟩),
   (.v, 0x06B27F0320000000, .vrmin ⟨false, false, 0⟩ ⟨9, 63, 3200, 0, 0, 0, 0⟩),
   (.v, 0x06C27F0320000000, .vrsum ⟨false, false, 0⟩ ⟨9, 63, 3200, 0, 0, 0, 0⟩),
   (.v, 0x06D27F0320000000, .vrargmax ⟨false, false, 0⟩ ⟨9, 63, 3200, 0, 0, 0, 0⟩)]

def packRows : List Row :=
  [(.v, 0x0611000320080000, .vpack ⟨false, false, 0⟩ ⟨2048, 3200, 4096, 0, 0, 0⟩)]

def matrixRows : List Row :=
  [(.m, 0x0400004000000000, .mbeat ⟨false, false, 0⟩ ⟨0, 0, 0, 0, 2, 0, 0, 0, 0⟩),
   (.m, 0x0410001071000000, .mshift ⟨false, false, 0⟩ ⟨0, 0, 0, 0, 0, 1, 7, 2048, 0⟩),
   (.m, 0x0420000031000000, .mdrain ⟨false, false, 0⟩ ⟨3, 2048, 0⟩),
   (.m, 0x0430000031000000, .mdrainc ⟨false, false, 0⟩ ⟨3, 2048, 0⟩),
   (.m, 0x0440584000000000, .mwload ⟨false, false, 0⟩ ⟨0, 5, 2, 2⟩),
   (.m, 0x04500C4000000000, .mbscale ⟨false, false, 0⟩ ⟨0, 0, 3, 2⟩),
   (.m, 0x0469000000000000, .mcfg ⟨false, false, 0⟩ ⟨2, 1, 0, 0, 0⟩),
   (.m, 0x0470003000000000, .mseed ⟨false, false, 0⟩ ⟨3⟩),
   (.m, 0x0483E81400000000, .mclr ⟨false, false, 0⟩ ⟨250, 5⟩),
   (.m, 0x04927F0000000009, .mexp ⟨false, false, 0⟩ ⟨9, 63, 0, 9⟩),
   (.m, 0x04A27F1000000009, .mexpw ⟨false, false, 0⟩ ⟨9, 63, 1, 9⟩),
   (.m, 0x04B27F0000000000, .msat ⟨false, false, 0⟩ ⟨9, 63⟩),
   (.m, 0x04C27F0000000000, .mstat ⟨false, false, 0⟩ ⟨9, 63⟩),
   (.m, 0x04D0000000000000, .mwait ⟨false, false, 0⟩)]

def memoryRows : List Row :=
  [(.x, 0x04027F2100000000, .ldl ⟨false, false, 0⟩ ⟨9, 63, 2, 1, 0, 0, 0, 0, 0⟩),
   (.x, 0x0410002100000000, .stl ⟨false, false, 0⟩ ⟨2, 1, 0, 0, 0⟩),
   (.x, 0x0421000000000000, .ldlV ⟨false, false, 0⟩ ⟨2048, 0, 0, 0, 0, 0⟩),
   (.x, 0x043180A000000000, .stlV ⟨false, false, 0⟩ ⟨3077, 0, 0, 0⟩),
   (.x, 0x04427F2100000000, .ldc ⟨false, false, 0⟩ ⟨9, 63, 2, 1, 0, 0, 0, 0, 0⟩),
   (.x, 0x0450002100000000, .stc ⟨false, false, 0⟩ ⟨2, 1, 0, 0, 0⟩),
   (.x, 0x0461000000000000, .ldcV ⟨false, false, 0⟩ ⟨2048, 0, 0, 0, 0, 0⟩),
   (.x, 0x047180A000000000, .stcV ⟨false, false, 0⟩ ⟨3077, 0, 0, 0⟩),
   (.x, 0x04827F2100000000, .ldd ⟨false, false, 0⟩ ⟨9, 63, 2, 1, 0, 0, 0, 0, 0⟩),
   (.x, 0x0490002100000000, .std ⟨false, false, 0⟩ ⟨2, 1, 0, 0, 0⟩),
   (.x, 0x04A1000000000000, .lddV ⟨false, false, 0⟩ ⟨2048, 0, 0, 0, 0, 0⟩),
   (.x, 0x04B180A000000000, .stdV ⟨false, false, 0⟩ ⟨3077, 0, 0, 0⟩),
   (.x, 0x04C27F2100000000, .ldm ⟨false, false, 0⟩ ⟨9, 63, 2, 1, 0, 0, 0, 0, 0⟩),
   (.x, 0x04D0002100000000, .stm ⟨false, false, 0⟩ ⟨2, 1, 0, 0, 0⟩),
   (.x, 0x04E1000000000000, .ldmV ⟨false, false, 0⟩ ⟨2048, 0, 0, 0, 0, 0⟩),
   (.x, 0x04F180A000000000, .stmV ⟨false, false, 0⟩ ⟨3077, 0, 0, 0⟩),
   (.x, 0x05027F4000000000, .ldn ⟨false, false, 0⟩ ⟨9, 63, 4, 0, 0, 0, 0, 0, 0⟩),
   (.x, 0x0510004000000000, .stn ⟨false, false, 0⟩ ⟨4, 0, 0, 0, 0⟩),
   (.x, 0x0521000800000000, .ldnV ⟨false, false, 0⟩ ⟨2048, 4, 0, 0, 0, 0⟩),
   (.x, 0x053180A800000000, .stnV ⟨false, false, 0⟩ ⟨3077, 4, 0, 0⟩),
   (.x, 0x05427F2100000000, .ldh ⟨false, false, 0⟩ ⟨9, 63, 2, 1, 0, 0, 0, 0, 0⟩),
   (.x, 0x0550002100000000, .sth ⟨false, false, 0⟩ ⟨2, 1, 0, 0, 0⟩),
   (.x, 0x0561000000000000, .ldhV ⟨false, false, 0⟩ ⟨2048, 0, 0, 0, 0, 0⟩),
   (.x, 0x057180A000000000, .sthV ⟨false, false, 0⟩ ⟨3077, 0, 0, 0⟩)]

def exchangeRows : List Row :=
  [(.x, 0x058000000000002A, .drain ⟨false, false, 0⟩ ⟨42⟩),
   (.x, 0x0590C24000000000, .fence ⟨false, false, 0⟩ ⟨3, 2, 2⟩),
   (.x, 0x05A8000000000100, .cpy ⟨false, false, 0⟩ ⟨2, 0, 0, 0, 0, 0, 0, 256⟩),
   (.x, 0x05B1000000000140, .ecmd ⟨false, false, 0⟩ ⟨1, 0, 0, 0, 0, 0, 0, 0, 320⟩),
   (.x, 0x05C5000000000000, .qfence ⟨false, false, 0⟩ ⟨5⟩),
   (.x, 0x05D0002200000000, .salloc ⟨false, false, 0⟩ ⟨2, 2⟩),
   (.x, 0x05E0002000000000, .pfm ⟨false, false, 0⟩ ⟨2⟩)]

def barrierRows : List Row :=
  [(.x, 0x0600002100000000, .barInit ⟨false, false, 0⟩ ⟨2, 1⟩),
   (.x, 0x06127F2100000000, .barArr ⟨false, false, 0⟩ ⟨9, 63, 2, 1, 0⟩),
   (.x, 0x0620002200000000, .barExp ⟨false, false, 0⟩ ⟨2, 2⟩),
   (.x, 0x0630002200000000, .barCred ⟨false, false, 0⟩ ⟨2, 2⟩),
   (.x, 0x06427F2100000003, .barWait ⟨false, false, 0⟩ ⟨9, 63, 2, 1, 3⟩),
   (.x, 0x06527F2000000000, .barTest ⟨false, false, 0⟩ ⟨9, 63, 2, 0, 0⟩),
   (.x, 0x0660002000000000, .barBrk ⟨false, false, 0⟩ ⟨2⟩),
   (.x, 0x067FFF2600000000, .mcast ⟨false, false, 0⟩ ⟨63, 63, 2, 6, 0⟩)]

def atomicRows : List Row :=
  [(.x, 0x06827F3000000000, .amo ⟨false, false, 0⟩ ⟨9, 63, 3, 0, 0, 0, 0, 0, 0, 0⟩),
   (.x, 0x06927F3000000000, .amocas ⟨false, false, 0⟩ ⟨9, 63, 3, 0, 0, 0, 0, 0, 0, 0⟩),
   (.x, 0x06AFFF3000000000, .ared ⟨false, false, 0⟩ ⟨63, 63, 3, 0, 0, 0, 0, 0, 0, 0⟩),
   (.x, 0x06B27F3000000000, .amof ⟨false, false, 0⟩ ⟨9, 63, 3, 0, 0, 0, 0, 0, 0, 0⟩),
   (.x, 0x06CFFF3000000000, .aredf ⟨false, false, 0⟩ ⟨63, 63, 3, 0, 0, 0, 0, 0, 0, 0⟩),
   (.x, 0x06D0003100000000, .amotOpen ⟨false, false, 0⟩ ⟨3, 1⟩),
   (.x, 0x06E0003100000000, .amotSkip ⟨false, false, 0⟩ ⟨3, 1⟩),
   (.x, 0x06F0003000000000, .drainT ⟨false, false, 0⟩ ⟨3⟩)]

def fabricRows : List Row :=
  [(.x, 0x07027F1000000000, .pseq ⟨false, false, 0⟩ ⟨9, 63, 1, 0, 0⟩),
   (.x, 0x0710001000000000, .pflush ⟨false, false, 0⟩ ⟨1⟩),
   (.x, 0x07227F1000000000, .rdig ⟨false, false, 0⟩ ⟨9, 63, 1, 0, 0⟩),
   (.x, 0x07327F1000000001, .rcmp ⟨false, false, 0⟩ ⟨9, 63, 1, 0, 1⟩)]

def registerRows : List Row :=
  [(.c, 0x0314FF0000000004, .crr ⟨false, false, 0⟩ ⟨19, 63, 0, 4⟩),
   (.c, 0x0494FF1000000041, .crw ⟨false, false, 0⟩ ⟨19, 63, 1, 65⟩),
   (.c, 0x04A4FF0000000200, .crrp ⟨false, false, 0⟩ ⟨19, 63, 0, 512⟩)]

def areaRows : List Row :=
  [(.c, 0x04C0003100000000, .ctxsv ⟨false, false, 0⟩ ⟨3, 1⟩),
   (.c, 0x04D0003100000000, .ctxld ⟨false, false, 0⟩ ⟨3, 1⟩)]

def schedulerRows : List Row :=
  [(.c, 0x0504FF1200000000, .launch ⟨false, false, 0⟩ ⟨19, 63, 1, 2, 0⟩),
   (.c, 0x0514FF1100000003, .wchild ⟨false, false, 0⟩ ⟨19, 63, 1, 1, 3⟩),
   (.c, 0x0520001200000000, .semSig ⟨false, false, 0⟩ ⟨1, 2⟩),
   (.c, 0x0534FF1000000004, .semWait ⟨false, false, 0⟩ ⟨19, 63, 1, 0, 4⟩),
   (.c, 0x0540001200000000, .semInit ⟨false, false, 0⟩ ⟨1, 2⟩),
   (.c, 0x0554FF1000000000, .semRd ⟨false, false, 0⟩ ⟨19, 63, 1, 0, 0⟩),
   (.c, 0x0564FF1000000000, .dgstRd ⟨false, false, 0⟩ ⟨19, 63, 1, 0, 0⟩),
   (.c, 0x0570000000000000, .dgstClr ⟨false, false, 0⟩)]

def packageRows : List Row :=
  [(.c, 0x0600002000000000, .mbxSend ⟨false, false, 0⟩ ⟨2, 0⟩),
   (.c, 0x0614FF2000000000, .mbxRecv ⟨false, false, 0⟩ ⟨19, 63, 2, 0, 0⟩),
   (.c, 0x0624FF1000000000, .mbxCnt ⟨false, false, 0⟩ ⟨19, 63, 1, 0, 0⟩),
   (.c, 0x0634FF0000000000, .deskew ⟨false, false, 0⟩ ⟨19, 63, 0, 0, 0⟩),
   (.c, 0x0644FF1000000000, .zlat ⟨false, false, 0⟩ ⟨19, 63, 1, 0, 0⟩),
   (.c, 0x0650005000000000, .propPush ⟨false, false, 0⟩ ⟨5, 0⟩),
   (.c, 0x0664FF2000000004, .propPop ⟨false, false, 0⟩ ⟨19, 63, 2, 0, 4⟩),
   (.c, 0x0674FF2000000001, .hznRd ⟨false, false, 0⟩ ⟨19, 63, 2, 0, 1⟩),
   (.c, 0x0680001200000000, .hznWr ⟨false, false, 0⟩ ⟨1, 2⟩),
   (.c, 0x0694FF1000000002, .lnkSt ⟨false, false, 0⟩ ⟨19, 63, 1, 0, 2⟩),
   (.c, 0x06A0001100000000, .lnkRate ⟨false, false, 0⟩ ⟨1, 1⟩)]

def eretRows : List Row :=
  [(.c, 0x04B0000000000000, .eret ⟨false, false, 0⟩)]

theorem test_valueRows_decode : ∀ e ∈ valueRows, (decode e.1 e.2.1).toOption = some e.2.2 := by decide
theorem test_divideRows_decode : ∀ e ∈ divideRows, (decode e.1 e.2.1).toOption = some e.2.2 := by decide
theorem test_predicateRows_decode : ∀ e ∈ predicateRows, (decode e.1 e.2.1).toOption = some e.2.2 := by decide
theorem test_countRows_decode : ∀ e ∈ countRows, (decode e.1 e.2.1).toOption = some e.2.2 := by decide
theorem test_branchRows_decode : ∀ e ∈ branchRows, (decode e.1 e.2.1).toOption = some e.2.2 := by decide
theorem test_controlRows_decode : ∀ e ∈ controlRows, (decode e.1 e.2.1).toOption = some e.2.2 := by decide
theorem test_laneRows_decode : ∀ e ∈ laneRows, (decode e.1 e.2.1).toOption = some e.2.2 := by decide
theorem test_scalarRows_decode : ∀ e ∈ scalarRows, (decode e.1 e.2.1).toOption = some e.2.2 := by decide
theorem test_packRows_decode : ∀ e ∈ packRows, (decode e.1 e.2.1).toOption = some e.2.2 := by decide
theorem test_matrixRows_decode : ∀ e ∈ matrixRows, (decode e.1 e.2.1).toOption = some e.2.2 := by decide
theorem test_memoryRows_decode : ∀ e ∈ memoryRows, (decode e.1 e.2.1).toOption = some e.2.2 := by decide
theorem test_exchangeRows_decode : ∀ e ∈ exchangeRows, (decode e.1 e.2.1).toOption = some e.2.2 := by decide
theorem test_barrierRows_decode : ∀ e ∈ barrierRows, (decode e.1 e.2.1).toOption = some e.2.2 := by decide
theorem test_atomicRows_decode : ∀ e ∈ atomicRows, (decode e.1 e.2.1).toOption = some e.2.2 := by decide
theorem test_fabricRows_decode : ∀ e ∈ fabricRows, (decode e.1 e.2.1).toOption = some e.2.2 := by decide
theorem test_registerRows_decode : ∀ e ∈ registerRows, (decode e.1 e.2.1).toOption = some e.2.2 := by decide
theorem test_areaRows_decode : ∀ e ∈ areaRows, (decode e.1 e.2.1).toOption = some e.2.2 := by decide
theorem test_schedulerRows_decode : ∀ e ∈ schedulerRows, (decode e.1 e.2.1).toOption = some e.2.2 := by decide
theorem test_packageRows_decode : ∀ e ∈ packageRows, (decode e.1 e.2.1).toOption = some e.2.2 := by decide
theorem test_eretRows_decode : ∀ e ∈ eretRows, (decode e.1 e.2.1).toOption = some e.2.2 := by decide

/-- The case of a row in its state, its context changed. -/
def caseOf (f : Ctx → Ctx) (e : Row) : Case := (e.1, f (ctxFor e.1 e.2.1), e.2.2)

/-! ### Every slot word issues somewhere (the hypotheses of the statements on words) -/

/-- A handler is running. -/
def handling (c : Ctx) : Ctx := { c with susp := some ⟨c.cl .c, 3, []⟩ }

theorem test_valueRows_issue : Issuing valueWord (fun d => (d.h, d.u)) (valueRows.map (caseOf id)) := allIssue_spec (by decide)
theorem test_divideRows_issue : Issuing divideWord (fun d => (d.h, d.u)) (divideRows.map (caseOf id)) := allIssue_spec (by decide)
theorem test_predicateRows_issue : Issuing predicateWord (fun d => (d.h, d.u)) (predicateRows.map (caseOf id)) := allIssue_spec (by decide)
theorem test_countRows_issue : Issuing countWord (fun d => (d.h, d.u)) (countRows.map (caseOf id)) := allIssue_spec (by decide)
theorem test_branchRows_issue : Issuing branchWord (fun d => (d.1.h, d.1.u)) (branchRows.map (caseOf id)) := allIssue_spec (by decide)
theorem test_controlRows_issue : Issuing controlWord (fun d => (d.h, d.u)) (controlRows.map (caseOf id)) := allIssue_spec (by decide)
theorem test_laneRows_issue : Issuing laneWord (fun d => (d.h, d.u)) (laneRows.map (caseOf id)) := allIssue_spec (by decide)
theorem test_scalarRows_issue : Issuing scalarWord (fun d => (d.1.h, d.1.u)) (scalarRows.map (caseOf id)) := allIssue_spec (by decide)
theorem test_packRows_issue : Issuing (fun _ => packWord) (fun d => (d.1.h, d.1.u)) (packRows.map (caseOf id)) := allIssue_spec (by decide)
theorem test_matrixRows_issue : Issuing matrixWord (fun d => (d.h, d.u)) (matrixRows.map (caseOf id)) := allIssue_spec (by decide)
theorem test_memoryRows_issue : Issuing memoryWord (fun d => (d.h, d.u)) (memoryRows.map (caseOf id)) := allIssue_spec (by decide)
theorem test_exchangeRows_issue : Issuing exchangeWord (fun d => (d.h, d.u)) (exchangeRows.map (caseOf id)) := allIssue_spec (by decide)
theorem test_barrierRows_issue : Issuing barrierWord (fun d => (d.h, d.u)) (barrierRows.map (caseOf id)) := allIssue_spec (by decide)
theorem test_atomicRows_issue : Issuing atomicWord (fun d => (d.h, d.u)) (atomicRows.map (caseOf id)) := allIssue_spec (by decide)
theorem test_fabricRows_issue : Issuing fabricWord (fun d => (d.h, d.u)) (fabricRows.map (caseOf id)) := allIssue_spec (by decide)
theorem test_registerRows_issue : Issuing registerWord (fun d => (d.h, d.u)) (registerRows.map (caseOf id)) := allIssue_spec (by decide)
theorem test_areaRows_issue : Issuing areaWord (fun d => (d.h, d.u)) (areaRows.map (caseOf handling)) := allIssue_spec (by decide)
theorem test_schedulerRows_issue : Issuing schedulerWord (fun d => (d.h, d.u)) (schedulerRows.map (caseOf id)) := allIssue_spec (by decide)
theorem test_packageRows_issue : Issuing packageWord (fun d => (d.h, d.u)) (packageRows.map (caseOf id)) := allIssue_spec (by decide)

/-- A second form of the words that have two: a `loop` and a `loopi` that enter. -/
def enteringLoops : List Case :=
  [(.c, ctxFor .c 0, .loop ⟨false, false, 0⟩ ⟨1, 1, 0, 3⟩), (.c, ctxFor .c 0, .loopi ⟨false, false, 0⟩ ⟨0, 0, 2, 3⟩)]
theorem test_entering_loops : Issuing controlWord (fun d => (d.h, d.u)) enteringLoops := allIssue_spec (by decide)

/-- A header, and contexts that change one thing of `ctxFor`. -/
def hd : Hdr := ⟨false, false, 0⟩
def c0 (cl : Cluster) : Ctx := ctxFor cl 0
def userOf (c : Ctx) : Ctx := { c with who := { c.who with sys := false } }
def noArray (c : Ctx) : Ctx := { c with who := { c.who with au := false } }
def ctl (v : Word) (c : Ctx) : Ctx := { c with coreCtl := v }

/-- Entry 2 of the cluster's first file and p1 are pending; the time is 1. -/
def pendingTwo (cl : Cluster) (c : Ctx) : Ctx :=
  { c with time := 1, landings := [{ Landing.blank 1 cl 0 9 0 with d1 := 2, d2 := 49 }] }

/-- The words that trap of themselves (R85, R86, R91, R95, R97, R98, R99, R144, R200, R229). -/
def trapCases : List Case :=
  [(.c, c0 .c, .div hd ⟨19, 63, 2, 0, 0⟩), (.c, c0 .c, .divu hd ⟨19, 63, 2, 0, 0⟩), (.c, c0 .c, .rem hd ⟨19, 63, 2, 0, 0⟩),
   (.c, c0 .c, .remu hd ⟨19, 63, 2, 0, 0⟩), (.c, c0 .c, .jr hd ⟨1, 0⟩), (.c, (c0 .c).setCl .c { (c0 .c).cl .c with ret := [] }, .ret hd),
   (.c, c0 .c, .loop hd ⟨1, 1, 0, 0⟩), (.c, c0 .c, .loopi hd ⟨0, 0, 2, 0⟩), (.c, handling (c0 .c), .join hd),
   (.c, handling (c0 .c), .halt hd), (.c, handling (c0 .c), .trap hd ⟨0x1205⟩), (.c, handling (c0 .c), .fork hd ⟨1, 0, 0, 5, 0, 0⟩),
   (.c, handling (c0 .c), .yield hd), (.c, handling (c0 .c), .exit hd), (.c, c0 .c, .eret hd), (.c, c0 .c, .ctxsv hd ⟨3, 1⟩),
   (.c, c0 .c, .ctxld hd ⟨3, 1⟩), (.c, c0 .c, .crr hd ⟨19, 63, 0, 0x043⟩),
   (.x, c0 .x, .ldl hd ⟨9, 63, 1, 0, 0, 3, 0, 0, 0⟩), (.x, c0 .x, .ldc hd ⟨9, 63, 1, 0, 0, 3, 0, 0, 0⟩),
   (.x, c0 .x, .ldd hd ⟨9, 63, 1, 0, 0, 3, 0, 0, 0⟩), (.x, c0 .x, .ldm hd ⟨9, 63, 1, 0, 0, 3, 0, 0, 0⟩),
   (.x, c0 .x, .ldn hd ⟨9, 63, 1, 0, 0, 3, 0, 0, 0⟩), (.x, c0 .x, .ldh hd ⟨9, 63, 1, 0, 0, 3, 0, 0, 0⟩),
   (.x, c0 .x, .ldlV hd ⟨2048, 1, 0, 0, 0, 0⟩), (.x, c0 .x, .ldmV hd ⟨2048, 1, 0, 0, 0, 0⟩),
   (.x, c0 .x, .stl hd ⟨1, 0, 3, 0, 0⟩), (.x, c0 .x, .stm hd ⟨1, 0, 3, 0, 0⟩), (.x, c0 .x, .sth hd ⟨1, 0, 3, 0, 0⟩),
   (.x, c0 .x, .stlV hd ⟨2048, 1, 0, 0⟩), (.x, ctl 0 (c0 .x), .stlV hd ⟨2048, 0, 0, 0⟩), (.x, c0 .x, .stmV hd ⟨2048, 1, 0, 0⟩),
   (.v, ctl 0 (c0 .v), .vadd hd ⟨2048, 3200, 4096, 0, 0, 0⟩),
   (.m, noArray (c0 .m), .mdrain hd ⟨3, 2048, 0⟩), (.m, noArray (c0 .m), .mclr hd ⟨250, 5⟩), (.m, noArray (c0 .m), .msat hd ⟨9, 63⟩),
   (.m, noArray (c0 .m), .mbeat hd ⟨0, 0, 0, 0, 2, 0, 0, 0, 0⟩),
   (.v, ctl 0 (c0 .v), .vpack hd ⟨2048, 3200, 4096, 0, 0, 0⟩), (.v, ctl 0 (c0 .v), .vext hd ⟨9, 63, 3200, 0, 0, 0, 0⟩),
   (.v, ctl 0 (c0 .v), .vpopc hd ⟨9, 63, 3200, 0, 0, 0, 0⟩), (.v, ctl 0 (c0 .v), .vrmax hd ⟨9, 63, 3200, 0, 0, 0, 0⟩),
   (.m, c0 .m, .mbeat hd ⟨0, 0, 0, 0, 7, 0, 0, 0, 0⟩), (.m, c0 .m, .mbeat hd ⟨0, 0, 0, 0, 6, 0, 0, 0, 0⟩),
   (.m, { c0 .m with xPort := [0] }, .mwload hd ⟨0, 5, 0, 2⟩), (.m, ctl 0 (c0 .m), .mbeat hd ⟨0, 0, 0, 0, 2, 0, 0, 0, 0⟩)]
theorem test_trapping_words : Issuing trapWord (fun d => (d.h, d.u)) trapCases := allIssue_spec (by decide)

/-- The words that push, send events and use units, each with a check of its rule that fails (R92, R99, R239, R241, R275, R285, R316, R327, R347, R404, R448,
R449, R458). -/
def faultCases : List Case :=
  [(.x, c0 .x, .salloc hd ⟨1, 2⟩), (.x, c0 .x, .salloc hd ⟨6, 2⟩), (.x, c0 .x, .cpy hd ⟨0, 0, 0, 0, 0, 0, 0, 1⟩),
   (.x, c0 .x, .ecmd hd ⟨0, 0, 0, 0, 0, 0, 0, 0, 1⟩), (.x, c0 .x, .barInit hd ⟨2, 0⟩), (.x, c0 .x, .barArr hd ⟨9, 63, 1, 1, 0⟩),
   (.x, c0 .x, .barExp hd ⟨3, 1⟩), (.x, c0 .x, .barCred hd ⟨1, 1⟩), (.x, c0 .x, .barWait hd ⟨9, 63, 2, 2, 0⟩),
   (.x, c0 .x, .barTest hd ⟨9, 63, 1, 0, 0⟩), (.x, c0 .x, .barBrk hd ⟨1⟩), (.x, c0 .x, .mcast hd ⟨63, 63, 2, 0, 0⟩),
   (.x, c0 .x, .amo hd ⟨9, 63, 4, 0, 400, 0, 0, 0, 0, 0⟩), (.x, c0 .x, .ared hd ⟨63, 63, 4, 0, 0, 0, 0, 0, 0, 0⟩),
   (.x, c0 .x, .amotOpen hd ⟨1, 0⟩), (.x, c0 .x, .amotSkip hd ⟨1, 0⟩), (.x, c0 .x, .drainT hd ⟨1⟩), (.x, c0 .x, .pseq hd ⟨9, 63, 4, 0, 0⟩),
   (.x, c0 .x, .pflush hd ⟨4⟩), (.x, c0 .x, .rdig hd ⟨9, 63, 2, 0, 0⟩), (.x, c0 .x, .rcmp hd ⟨9, 63, 4, 0, 0⟩), (.c, c0 .c, .crw hd ⟨19, 63, 0, 0x043⟩),
   (.c, handling (c0 .c), .ctxsv hd ⟨1, 1⟩), (.c, handling (c0 .c), .ctxld hd ⟨1, 1⟩), (.c, c0 .c, .launch hd ⟨19, 63, 4, 0, 0⟩),
   (.c, c0 .c, .wchild hd ⟨19, 63, 1, 2, 0⟩), (.c, c0 .c, .semSig hd ⟨6, 1⟩), (.c, c0 .c, .semWait hd ⟨19, 63, 6, 0, 1⟩),
   (.c, c0 .c, .semInit hd ⟨6, 1⟩), (.c, c0 .c, .semRd hd ⟨19, 63, 6, 0, 0⟩), (.c, c0 .c, .dgstRd hd ⟨19, 63, 2, 0, 0⟩),
   (.c, c0 .c, .mbxSend hd ⟨5, 4⟩), (.c, c0 .c, .mbxRecv hd ⟨19, 63, 1, 0, 0⟩), (.c, c0 .c, .mbxCnt hd ⟨19, 63, 2, 0, 0⟩),
   (.c, c0 .c, .zlat hd ⟨19, 63, 2, 0, 0⟩), (.c, c0 .c, .propPush hd ⟨0, 0⟩), (.c, c0 .c, .propPop hd ⟨19, 63, 1, 0, 0⟩),
   (.c, c0 .c, .hznRd hd ⟨19, 63, 6, 0, 0⟩), (.c, c0 .c, .hznWr hd ⟨4, 1⟩), (.c, c0 .c, .lnkSt hd ⟨19, 63, 5, 0, 0⟩), (.c, c0 .c, .lnkRate hd ⟨2, 1⟩)]
theorem test_unit_faults : Issuing unitFault (fun d => (d.h, d.u)) faultCases := allIssue_spec (by decide)

/-- A word that pushes from an invalid line under UMODE 0, which an outstanding acquire holds back. -/
theorem test_late_fault :
    ((unitFault (hereC .x (c0 .x)) (ctl 0 (c0 .x)) (.cpy hd ⟨0, 0, 0, 0, 0, 0, 0, 512⟩)).map fun d => (d.late, d.cause)) =
      some (true, causeUninitRead) := by decide

/-- A store of the context's that has not performed, with a landing before it and one after. -/
def owing (cl : Cluster) : State := { hereC cl (c0 cl) with net := ⟨[(0, { pkt (.store [1]) with stage := .sent })]⟩, serial := 5 }

/-- A release, and a digest word, that have their gate to wait for (the third clause of AcquireGates). -/
theorem test_unmet_gates :
    (gateOf (owing .x) (c0 .x) (.stm hd ⟨2, 1, 3, 2, 2⟩)).map (fun d => (owing .x).gateMet (owing .x).focus.1 (c0 .x) d.gate) = some false ∧
    (gateOf (owing .c) (c0 .c) (.dgstRd hd ⟨19, 63, 1, 0, 0⟩)).map (fun d => (owing .c).gateMet (owing .c).focus.1 (c0 .c) d.gate) =
      some false := by decide

/-- A release whose gate is met and covers a deferred fault. -/
theorem test_met_gate :
    let c := { c0 .x with deferred := [⟨0, .store, .landing causeXlateFault .x 0 0x0B⟩] }
    let s := { hereC .x c with serial := 5 }
    (gateOf s c (.stm hd ⟨2, 1, 3, 2, 2⟩)).map (fun d => (s.gateMet s.focus.1 c d.gate, (c.takeDeferred d.gate.covers).isSome)) =
      some (true, true) := by decide

/-- `rcmp` while another one waits, `lnk.rate` while a retrain is wanted, `fork` of a cluster that runs, an empty mailbox, a full queue of proposals. -/
theorem test_unit_waits :
    bits (ibB (c0 .c) 0) 2 62 = 0 ∧ (({ hereC .c (c0 .c) with cores := .empty } : State).core 128).box 0 = [] ∧
    ((c0 .c).setCl .v { (c0 .c).cl .v with run := .run }).inHandler = false ∧ Cluster.v ∈ forkNames ⟨1, 0, 0, 5, 0, 0⟩ ∧
    unitFault (hereC .c (c0 .c)) (c0 .c) (.lnkRate hd ⟨1, 1⟩) = none ∧
    (let s : State := { hereC .x (c0 .x) with fab := { (hereC .x (c0 .x)).fab with replCtl := 1, waiting := some (16777217, 1, 0, 0) } }
     unitFault s (c0 .x) (.rcmp hd ⟨9, 63, 1, 0, 0⟩) = none ∧ gateOpen s (c0 .x) (stepGate s (c0 .x)) = true ∧
       passes .x (c0 .x) (.rcmp hd ⟨9, 63, 1, 0, 0⟩) hd
         { sa := some (aFile .x .ia, 1), d1 := 9, d2 := 63, lat := 1024 } = true) := by decide

/-- `sem.sig` with a refusal still to be taken, and `fork` behind an access of C. -/
theorem test_unit_takes :
    (let c := { c0 .c with semFault := some (unplaced causeBarrierOverflow 3) }
     unitFault (hereC .c c) c (.semSig hd ⟨1, 1⟩) = none ∧ gateOpen (hereC .c c) c ((hereC .c c).releaseGate 2) = true ∧
       c.semFault.isSome = true ∧ passes .c c (.semSig hd ⟨1, 1⟩) hd { sa := some (4, 1), sb := some (5, 1) } = true) ∧
    (let c := (c0 .c).touch .c 7
     c.time < (c.cl .c).lastAccess ∧ c.inHandler = false ∧ passes .c c (.fork hd ⟨1, 0, 0, 5, 0, 0⟩) hd {} = true) := by decide

/-- `eret` in a handler. -/
theorem test_eret_issues : Issues (hereC .c (handling (c0 .c))) (handling (c0 .c)) (.eret hd) hd { priv := true } :=
  passes_issues (by decide)

/-- An acquire of the context is outstanding. -/
def acquires (c : Ctx) : Ctx := { c with landings := [{ Landing.blank 1 .x 0 9 0 with acquire := true, missing := 1, since := 0 }] }

/-- A word of M on an invalid line under UMODE 0, which an outstanding acquire holds back (the second clause of AcquireGates). -/
theorem test_late_trap :
    ((trapWord (hereC .m (acquires (ctl 0 (c0 .m)))) (acquires (ctl 0 (c0 .m))) (.mbeat hd ⟨0, 0, 0, 0, 2, 0, 0, 0, 0⟩)).map fun d =>
      (d.late, d.cause)) = some (true, causeUninitRead) ∧ (acquires (ctl 0 (c0 .m))).acquiring = true ∧
    passes .m (acquires (ctl 0 (c0 .m))) (.mbeat hd ⟨0, 0, 0, 0, 2, 0, 0, 0, 0⟩) hd (usesH 2 (hereC .m (c0 .m))) = true := by decide

/-- Each kind of word that reaches memory, with an acquire outstanding: it issues but is not clear (the hypotheses of AcquireGates). -/
def gatingCases : List Case :=
  [(.x, acquires (c0 .x), .ldm hd ⟨9, 63, 2, 1, 400, 0, 0, 0, 0⟩), (.x, acquires (c0 .x), .pfm hd ⟨2⟩),
   (.x, acquires (c0 .x), .barBrk hd ⟨2⟩), (.x, acquires (c0 .x), .ared hd ⟨63, 63, 3, 0, 0, 0, 0, 0, 0, 0⟩),
   (.m, acquires (c0 .m), .mwload hd ⟨0, 5, 0, 2⟩), (.c, acquires (c0 .c), .propPush hd ⟨5, 0⟩)]
theorem test_acquire_gates : ∀ e ∈ gatingCases, ∃ d,
    (memoryWord (hereC e.1 e.2.1) e.2.1 e.2.2 = some d ∨ exchangeWord (hereC e.1 e.2.1) e.2.1 e.2.2 = some d ∨
      barrierWord (hereC e.1 e.2.1) e.2.1 e.2.2 = some d ∨ atomicWord (hereC e.1 e.2.1) e.2.1 e.2.2 = some d ∨
      matrixWord (hereC e.1 e.2.1) e.2.1 e.2.2 = some d ∨ packageWord (hereC e.1 e.2.1) e.2.1 e.2.2 = some d) ∧
    passes e.1 e.2.1 e.2.2 d.h d.u = true ∧ d.u.mem = true ∧ e.2.1.acquiring = true := by
  simp only [gatingCases, List.forall_mem_cons, List.not_mem_nil, false_implies, implies_true, and_true]
  exact ⟨⟨_, .inl rfl, by decide, by decide, by decide⟩, ⟨_, .inr (.inl rfl), by decide, by decide, by decide⟩,
    ⟨_, .inr (.inr (.inl rfl)), by decide, by decide, by decide⟩, ⟨_, .inr (.inr (.inr (.inl rfl))), by decide, by decide, by decide⟩,
    ⟨_, .inr (.inr (.inr (.inr (.inl rfl)))), by decide, by decide, by decide⟩,
    ⟨_, .inr (.inr (.inr (.inr (.inr rfl)))), by decide, by decide, by decide⟩⟩

/-! ### Guards, waits and the checks of R63 -/

/-- p2 is false (PREDS of `ctxFor` has p1 and p3): a word under p2, and one with S = 1 outside its bundle, meet FalseGuards. -/
theorem test_false_guard : ((c0 .c).cl .c).pred 2 = false ∧ (c0 .c).pendingPred .c 2 = false ∧
    wellFormed .c (.add ⟨false, false, 2⟩ ⟨19, 63, 2, 1, 0⟩) = true ∧ wellFormed .c (.add ⟨true, false, 2⟩ ⟨19, 63, 2, 1, 0⟩) = true ∧
    (c0 .c).bundle = false ∧ (c0 .c).inHandler = false := by decide

/-- A reserved FN, and a guard whose p1 is pending under WMODE 1 and 2, meet IllegalAndPending. -/
theorem test_illegal_and_pending : wellFormed .c (.add hd ⟨19, 63, 2, 1, 1⟩) = false ∧ (pendingTwo .c (c0 .c)).pendingPred .c 1 = true ∧
    wellFormed .c (.nop ⟨false, false, 1⟩) = true ∧ (ctl 5 (c0 .c)).wmode = 1 ∧ (ctl 6 (c0 .c)).wmode = 2 := by decide

/-- What holds of a word that reaches the queue condition of R63: its header and uses, its legality, its guard. -/
def reaches (cl : Cluster) (c : Ctx) (i : Instr) (p : Hdr → Uses → Bool) : Bool :=
  match usesOf (hereC cl c) c i with
  | some (h, u) =>
    wellFormed cl i && decide ((c.cl cl).pred h.pred.toNat ≠ h.neg) &&
      (!c.pendingPred cl h.pred.toNat || (decide (c.wmode ≠ 1) && decide (c.wmode ≠ 2))) && p h u
  | none => false

/-- What holds of a word that reaches the privilege check of R63. -/
def examined (cl : Cluster) (c : Ctx) (i : Instr) (p : Hdr → Uses → Bool) : Bool :=
  reaches cl c i fun h u => (decide (c.wmode ≠ 2) || !c.readsPending cl u) && decide (c.blocked cl u = none) &&
    (!h.sync || c.inHandler || c.bundle) && p h u

/-- A pending source under WMODE 2, a pop of an empty queue, a full outbound queue, and S = 1 outside the bundle (Waits). -/
theorem test_waits :
    reaches .c (ctl 6 (pendingTwo .c (c0 .c))) (.add hd ⟨19, 63, 2, 1, 0⟩)
      (fun _ u => (ctl 6 (pendingTwo .c (c0 .c))).readsPending .c u) = true ∧
    reaches .c (c0 .c) (.add hd ⟨19, 63, 8, 1, 0⟩) (fun _ u => (c0 .c).blocked .c u == some (8, false)) = true ∧
    reaches .c { c0 .c with queues := ⟨[(0, List.replicate 64 ⟨0, none, 0⟩)]⟩ } (.add hd ⟨56, 63, 2, 1, 0⟩)
      (fun _ u => ({ c0 .c with queues := ⟨[(0, List.replicate 64 ⟨0, none, 0⟩)]⟩ } : Ctx).blocked .c u == some (0, true)) = true ∧
    reaches .c (c0 .c) (.add ⟨true, false, 0⟩ ⟨19, 63, 2, 1, 0⟩)
      (fun h u => h.sync && (c0 .c).blocked .c u == none && !(c0 .c).bundle && !(c0 .c).inHandler) = true := by decide

/-- A privileged word of a user task, a pending source under WMODE 1, and two deliveries to one file (IssueChecks). -/
theorem test_issue_checks :
    examined .c (userOf (c0 .c)) (.eret hd) (fun _ u => u.priv && !(userOf (c0 .c)).priv) = true ∧
    examined .c (ctl 5 (pendingTwo .c (c0 .c))) (.add hd ⟨19, 63, 2, 1, 0⟩)
      (fun _ u => !u.priv && !u.dieIllegal && (ctl 5 (pendingTwo .c (c0 .c))).readsPending .c u) = true ∧
    examined .c (c0 .c) (.add hd ⟨19, 20, 2, 1, 0⟩) (fun _ u => !u.priv && !u.dieIllegal && (c0 .c).portClash .c u) = true ∧
    examined .c { c0 .c with who := { (c0 .c).who with die := 0 } } (.crr hd ⟨19, 63, 0, 0x100⟩) (fun _ u => u.dieIllegal && !u.priv) = true := by
  decide

/-! ### Illegal words: one for each check of well-formedness -/

/-- Words that break one point of R64 each: a destination or source outside the cluster's file, a reserved function, condition, immediate, field,
format, type, rounding, operand tile, order, scope, drain, engine, queue, patch, code, count, and a cluster that has not the word. -/
def illFormed : List (Cluster × Instr) :=
  [(.v, .add hd ⟨19, 63, 2, 1, 0⟩), (.c, .add hd ⟨56, 57, 2, 15, 1⟩), (.c, .cmp hd ⟨19, 63, 2, 1, 11⟩), (.c, .sel hd ⟨19, 63, 2, 1, 8⟩),
   (.c, .addi hd ⟨19, 63, 3, 1, 0⟩), (.c, .shli hd ⟨19, 63, 3, 0, 64⟩), (.c, .cmpi hd ⟨19, 63, 3, 12, 0⟩), (.c, .ext hd ⟨19, 63, 3, 2, 0⟩),
   (.c, .ext hd ⟨19, 63, 3, 0, 0x40⟩), (.c, .br hd ⟨1, 0⟩), (.c, .loop hd ⟨1, 0, 1, 3⟩), (.c, .loopi hd ⟨1, 1, 0, 3⟩),
   (.c, .lend hd ⟨0, 0, 1, 0⟩), (.c, .qcnt hd ⟨19, 63, 15⟩), (.c, .crr hd ⟨19, 63, 1, 4⟩), (.c, .crr hd ⟨19, 63, 0, 0xFFF⟩),
   (.c, .trap hd ⟨0x1200⟩), (.c, .trap hd ⟨0x1216⟩), (.c, .trap hd ⟨0x1219⟩), (.c, .join ⟨true, false, 0⟩), (.v, .mul hd ⟨9, 63, 2, 1, 0⟩),
   (.c, .fork hd ⟨0, 0, 0, 0, 0, 0⟩), (.c, .fork hd ⟨1, 0, 0, 0, 5, 0⟩), (.c, .fork ⟨true, false, 0⟩ ⟨1, 0, 0, 5, 0, 0⟩), (.v, .yield hd),
   (.c, .semWait hd ⟨19, 63, 1, 0, 0⟩), (.c, .semRd hd ⟨19, 63, 1, 1, 0⟩), (.c, .propPop hd ⟨19, 63, 2, 0, 1⟩), (.c, .hznRd hd ⟨19, 63, 2, 0, 2⟩),
   (.c, .lnkSt hd ⟨19, 63, 1, 0, 3⟩), (.c, .deskew hd ⟨19, 63, 0, 0, 1⟩), (.v, .vadd hd ⟨2048, 3200, 4096, 3, 0, 0⟩),
   (.v, .vadd hd ⟨2048, 3200, 4096, 0, 4, 0⟩), (.v, .vadd hd ⟨2048, 3200, 4096, 0, 0, 1⟩), (.v, .vadd hd ⟨2560, 3200, 4096, 0, 0, 0⟩),
   (.v, .vabs hd ⟨2048, 3200, 1, 0, 0, 0⟩), (.v, .vcvt hd ⟨2048, 3200, 4, 31, 0, 0, 0⟩), (.v, .vcvt hd ⟨2048, 3200, 4, 5, 1, 0, 0⟩),
   (.v, .vicmp hd ⟨2048, 3200, 4096, 0, 6, 0⟩), (.v, .vpack hd ⟨2048, 3200, 4096, 3, 0, 1⟩), (.v, .vclr hd ⟨2048, 1, 0, 0, 0, 0⟩),
   (.m, .mdrain hd ⟨3, 2048, 3⟩), (.m, .mbeat hd ⟨0, 0, 0, 0, 2, 0, 3, 0, 0⟩), (.m, .mclr hd ⟨255, 1⟩), (.m, .mbscale hd ⟨0, 5, 2, 2⟩),
   (.m, .mcfg hd ⟨2, 1, 0, 1, 0⟩), (.x, .ldm hd ⟨9, 63, 2, 1, 400, 3, 1, 0, 0⟩), (.x, .ldm hd ⟨9, 63, 2, 1, 400, 0, 0, 2, 0⟩),
   (.x, .ldm hd ⟨9, 63, 2, 1, 400, 0, 0, 0, 1⟩), (.x, .ldm hd ⟨9, 63, 2, 1, 400, 0, 0, 1, 5⟩), (.x, .ldl hd ⟨9, 63, 2, 1, 5, 0, 0, 0, 0⟩),
   (.x, .stm hd ⟨2, 1, 0, 1, 0⟩), (.x, .ldmV hd ⟨24576, 0, 0, 400, 0, 0⟩), (.x, .stmV hd ⟨2048, 0, 1, 0⟩), (.x, .drain hd ⟨0⟩),
   (.x, .fence hd ⟨0, 2, 2⟩), (.x, .fence hd ⟨3, 2, 5⟩), (.x, .cpy hd ⟨2, 0, 1, 0, 0, 0, 0, 256⟩), (.x, .ecmd hd ⟨3, 0, 0, 0, 0, 0, 0, 0, 256⟩),
   (.x, .ecmd hd ⟨1, 1, 0, 0, 0, 0, 0, 0, 256⟩), (.x, .qfence hd ⟨0⟩), (.x, .mqcnt hd ⟨9, 63, 4⟩), (.x, .mcast hd ⟨9, 63, 2, 6, 0⟩),
   (.x, .amo hd ⟨9, 63, 3, 0, 400, 0, 0, 11, 0, 0⟩), (.x, .amo hd ⟨9, 63, 3, 0, 400, 0, 0, 0, 0, 3⟩), (.x, .ared hd ⟨9, 63, 3, 0, 0, 0, 0, 0, 0, 0⟩),
   (.x, .amof hd ⟨9, 63, 3, 0, 400, 0, 0, 3, 0, 0⟩), (.x, .pseq hd ⟨9, 63, 1, 0, 3⟩), (.x, .rcmp hd ⟨9, 63, 1, 1, 0⟩),
   (.c, .deliveryVisible 0)]
theorem test_ill_formed : ∀ e ∈ illFormed, wellFormed e.1 e.2 = false := by decide

/-! ### Every further step has an effect somewhere (the hypotheses of the statements on events) -/

theorem test_accessEvent : ∀ e ∈ ([
    (withP (pkt (.load 8)), .homeAccessApply 3),
    (withP (pkt (.store [1, 2])), .homeAccessApply 3),
    (withP { pkt (.line [1]) with space := .csp, addr := 64 }, .homeAccessApply 3),
    ({ (withP { pkt (.store [1]) with space := .host }) with fab := { (withP (pkt (.load 8))).fab with refusing := true } }, .homeAccessApply 3),
    (withP { pkt (.store [1, 2]) with stage := .egress }, .egressBufferDrain 3),
    (withP (pkt (.store [1, 2])), .deferredStoreFault 3 causeXlateFault),
    (withP { pkt (.load 8) with space := .host }, .hostAccessTimeout 3),
    (withP { pkt (.load 8) with stage := .answered, land := some 1 }, .landingDataArrival 3 ⟨[], 0⟩),
    (withP { pkt (.load 1) with space := .host, land := some 1 }, .landingDataArrival 3 ⟨[1], 0⟩),
    (withP (pkt (.barArr 1)), .barrierEventApply 3),
    ({ two 0 with net := ⟨[(3, pkt (.amo 0 1 false)), (4, { pkt (.amo 0 1 false) with ctx := 16777218 })]⟩ }, .routerMerge 3 4),
    (withP (pkt (.amo 0 1 false)), .atomicHomeApply 3),
    (withP (pkt (.cas 0 1 false)), .atomicHomeApply 3),
    (withW win (withP (pkt (.ticket 0 false 0 1))), .ticketRequestArrival 3),
    (withP (pkt (.winOpen 0 false)), .ticketRequestArrival 3),
    (withW win (withP (pkt (.winSkip 0))), .ticketRequestArrival 3),
    ((withP { pkt (.ticket 0 false 0 1) with stage := .retry }).modDie 1 fun d => { d with time := 64 }, .retryResend 3),
    ((withW win (S id)).modDie 1 fun d => { d with time := 16777216 }, .gapTimerExpiry 536870928),
    (withP { pkt (.mail 1 [7]) with space := .lsp, addr := 0x80000000 }, .mailboxPlace 3)] : List (State × Instr)), (accessEvent e.1 e.2).isSome = true := by decide

theorem test_boundaryEvent : ∀ e ∈ ([
    (atB fun c => { c with landings := [due] }, .deliveryVisible k),
    (atB fun c => { c with landings := [{ due with missing := 1 }] }, .deliveryVisible k),
    (atB fun c => { c with deadlock := 65536 }, .queueDeadlock k),
    (atB fun c => c.setCl .c { c.cl .c with run := .joined }, .joinRendezvous k),
    (atB fun c => { c with holds := [.peerFlush 1] }, .gateLift k),
    (atB fun c => { c with async := [.landing causeTicketGap .x 0 0] }, .asyncCauseOffer k),
    (S fun c => { c with flushing := some ⟨true, 1, 0, [2], [2]⟩ }, .flushMarkerGather k 2),
    (S fun c => { c with flushing := some ⟨true, 1, 0, [5], []⟩ }, .flushMarkerGather k 5),
    (S fun c => { c with flushing := some ⟨false, 0, 0, [2, 5], [2]⟩ }, .flushMarkerGather k 5),
    (S id, .flushMarkerGather k 5),
    (S fun c => { c with flushing := some ⟨true, 1, 0, [], [2]⟩ }, .flushCompletion k)] : List (State × Instr)), (boundaryEvent e.1 e.2).isSome = true := by decide

theorem test_commandEvent : ∀ e ∈ ([
    (withC (cmd .mover 0 0 0 0x0600000000000000), .moverCommandStart k 0),
    ({ withC { cmd .mover 128 64 0 0x0100000000000000 with running := true, shape := ⟨0x0001000100000110, 0, 0, 0⟩ } with serial := 9 }, .copy 3),
    ({ withC { cmd .mover 128 64 0 0x0500000000000000 with running := true, shape := ⟨0x0001000100000100, 0, 0, 0⟩ } with serial := 9 }, .fill 3),
    ({ withC { cmd .mover 128 64 0 0x0300000000000000 with running := true, shape := ⟨0x0001000100000110, 0, 0, 0⟩ } with serial := 9 }, .gather 3),
    ({ withC { cmd .mover 128 64 0 0x0400000000000000 with running := true, shape := ⟨0x0001000100000110, 0, 0, 0⟩ } with serial := 9 }, .i2c 3),
    ({ withC { cmd .mover 128 64 0 0x0200000000000000 with running := true, shape := ⟨0x0001000100000110, 0, 0, 0⟩ } with serial := 9 }, .mcastCommand 3),
    (withC { cmd .mover 0 0 1 0x0600000000000000 with running := true }, .qfenceCommand 3),
    (withC { cmd .mover 0 0 0 0x0600000000000000 with finished := true, credits := [(0x80000040, 1, false)] }, .engineCredit 3),
    (withC { cmd .mover 0 0 0 0x0600000000000000 with finished := true }, .commandComplete 3)] : List (State × Instr)), (commandEvent e.1 e.2).isSome = true := by decide

theorem test_contextEvent : ∀ e ∈ ([
    (S id, .preemptionRequest k),
    (S fun c => { c with status := .halted, phase := .rest }, .contextSave k),
    (S fun c => { c with status := .saved, phase := .rest }, .contextResume k),
    (S fun c => { c with status := .placed, phase := .rest }, .instanceStart k),
    (S fun c => { c with status := .gone, phase := .rest }, .instanceEnd k),
    (S fun c => { c with status := .ending, phase := .rest }, .taskComplete k),
    (S id, .schedulingStep 1),
    (S id, .powerThrottle 1 5),
    ({ S (fun c => { c with status := .saved, phase := .rest }) with gangs := ⟨[(4, ⟨0, [0], [k], 0, 0, true, 0, 0⟩)]⟩, runs := ⟨[(0, oneRun)]⟩ }, .gangResume 4),
    ((two 1).modDie 1 fun d => { d with hslice := 0, heddle := ⟨[(1, ⟨0, false⟩)]⟩, savepool := 0xFF0000000000 }, .turnChange 1 0)] : List (State × Instr)), (contextEvent e.1 e.2).isSome = true := by decide

theorem test_launchEvent : ∀ e ∈ ([
    (S id, .doorbell 1 ([0, 0, 0, 0, 1] ++ List.replicate 11 0)),
    (({ S id with launches := .empty } : State).modDie 1 fun d => { d with pendings := [⟨1, 0, .empty, 0⟩] }, .launchAdmit (launchKey 1 1)),
    (twin, .twinRunEnd 0),
    ({ S id with offers := [⟨k, 0, 0, 5, false, false⟩] }, .containmentOffer)] : List (State × Instr)), (launchEvent e.1 e.2).isSome = true := by decide

theorem test_directoryEvent : ∀ e ∈ ([
    (kvCmd 0, .kvopRegister 3),
    (kvCmd 1, .kvopOpen 3),
    (kvCmd 2, .kvopSeal 3),
    (kvCmd 3, .kvopFork 3),
    (kvCmd 4, .kvopRelease 3),
    (kvCmd 5, .kvopResolve 3),
    (kvCmd 6, .kvopTrunc 3),
    (kvCmd 7, .kvopTagrd 3),
    (kvCmd 8, .kvopDone 3),
    (kvCmd 9, .kvopRebuild 3),
    ({ S id with kvReports := [⟨1, 0, 5, causeKvUe⟩] }, .kvFaultReport 1 0 0 5 causeKvUe),
    ({ kvCmd 0 with kv := ⟨[(5, ⟨.rebuild, 0x10000000001, 0, 0, 64, 0, 3, .shared, .empty, 0, some 0, none⟩)]⟩ }, .rebuildInject 5)] : List (State × Instr)), (directoryEvent e.1 e.2).isSome = true := by decide

theorem test_engineEvent : ∀ e ∈ ([
    (withC (cmd .coll 0 0 0 0x0700000000000000), .coll 3 []),
    (withC (cmd .lauter 0 0 0 0x0800000000000000), .lauter 3),
    (withC { cmd .lauter 0 0 0 0x0800000000000000 with running := true, note := 1, notes := [0] }, .lauterMaskPoll 3),
    (withC { cmd .lauter 0 0 0 0x0800000000000000 with die := 2 }, .lauterForward 3)] : List (State × Instr)), (engineEvent e.1 e.2).isSome = true := by decide

theorem test_registerEvent : ∀ e ∈ ([
    (stagedReg 0x046 1, .xinvWrite k 1),
    (stagedReg 0x043 0, .escWrite k 0),
    (stagedReg 0x13F 1, .decodeRegionEnable 1 15 1),
    (stagedReg 0x13F 0, .decodeRegionDisable 1 15 0),
    ((S id).modDie 1 fun d => { d with regions := ⟨[(0, ⟨0, 0, 0, 0x10001000001⟩)]⟩ }, .decodeFill 1 0 0 0),
    (stagedReg 0x24F 5, .heddleWrite 1 79 5),
    (stagedReg 0x074 4096, .savepoolWrite 1 4096),
    (stagedReg 0x073 0, .hsliceWrite 1 0),
    (stagedReg 0x060 0, .atpoolWrite 1 0),
    (stagedReg 0x086 0, .lnkCtlWrite 2 0),
    (stagedReg 0x0A0 7, .fabNodeWrite 7),
    (stagedReg 0x0A3 7, .peerEntWrite 7),
    (stagedReg 0x0A4 1, .replCtlWrite 1),
    (stagedReg 0x040 5, .registerWrite k 0x040 5)] : List (State × Instr)), (registerEvent e.1 e.2).isSome = true := by decide

theorem test_linkEvent : ∀ e ∈ ([
    (S id, .laneFail 2 15 true),
    (S id, .retrain 0 0 ⟨[], 3, 4⟩),
    (S id, .flitReplay 2),
    ({ S id with links := ⟨[(0, { Link.reset with rate := 1, rlim := 1, window := 65 })]⟩ }, .replayWindowStepDown 0 0),
    ({ S id with deskewing := [(k, 1)] }, .deskewEpoch)] : List (State × Instr)), (linkEvent e.1 e.2).isSome = true := by decide

theorem test_resetEvent : ∀ e ∈ ([
    (S id, .dieReset 2 1),
    ((S id).modDie 2 fun d => { d with resetting := true }, .quiesce 2 1),
    (((S id).modDie 2 fun d => { d with resetting := true }).modDie 0 (fun d => { d with fenced := ⟨[2]⟩ }) |>.modDie 1 (fun d => { d with fenced := ⟨[2]⟩ }), .dieRejoin ⟨2, ⟨[], []⟩, [], []⟩),
    (S id, .memoryError 0 0 5 true),
    (S id, .memoryError 2 7 5 false),
    (S id, .llcSliceRetire 1 3)] : List (State × Instr)), (resetEvent e.1 e.2).isSome = true := by decide

theorem test_processorEvent : ∀ e ∈ ([
    ({ S id with admin := { HostWindow.reset with held := [⟨1, 0, 0, 0, 0, 0, 0⟩] } }, .completionRecord 3),
    (S id, .cmplHeadWrite 3 0x030 1),
    (S id, .cmplHeadWrite 0 0x028 12),
    ({ S id with admin := { HostWindow.reset with posted := 1 } }, .flushReadComplete 3),
    ({ S id with reports := [⟨0, 0, 0, 0, 0⟩] }, .errorLogAppend),
    (S id, .timeLogEntry 0),
    (S id, .packagePowerUp ⟨[], none, [], [], [], []⟩)] : List (State × Instr)), (processorEvent e.1 e.2).isSome = true := by decide

theorem test_adminEvent : ∀ e ∈ ([
    ({ S id with adminSeq := 1 }, .ctxClose 5),
    ({ S id with adminSeq := 1 }, .free 0),
    ({ S id with adminSeq := 1 }, .keyClear 0 1),
    ({ S id with adminSeq := 1 }, .resetDie 2),
    ({ S id with adminSeq := 1 }, .retirePage 0x10000000000),
    ({ S id with adminSeq := 1 }, .fwStage [] false),
    ({ S id with adminSeq := 1 }, .fwSwitch),
    ({ S id with adminSeq := 1 }, .attest [] 0),
    ({ S id with adminSeq := 1 }, .logRead 0 0 0),
    ({ S id with adminSeq := 1 }, .journalClear 9),
    ({ S id with adminSeq := 1 }, .handlerLoad 0 []),
    ({ S id with adminSeq := 1 }, .upload 0 ⟨[], [], []⟩)] : List (State × Instr)), (adminEvent e.1 e.2).isSome = true := by decide

theorem test_fabricEvent : ∀ e ∈ ([
    (S id, .peerRequestApply 1 ⟨0, none, 64, true, 0, [1]⟩),
    (S id, .fabricFlushMarker 1 ⟨0, 1⟩),
    (S id, .nodeUnreachable 1),
    (S id, .replicaPairArrival 1 2)] : List (State × Instr)), (fabricEvent e.1 e.2).isSome = true := by decide


/-- The commands whose outcome rests on a free value have an effect too, whatever that value is. -/
theorem test_ctxOpen : ∃ t, adminEvent { S id with adminSeq := 1 } (.ctxOpen 1 0 0 []) = some t := by
  unfold adminEvent; dsimp only; split <;> exact ⟨_, rfl⟩
theorem test_keyLoad : ∃ t, adminEvent { S id with adminSeq := 1 } (.keyLoad 0 1 []) = some t := by
  unfold adminEvent; dsimp only; split <;> exact ⟨_, rfl⟩

/-- An event without its conditions is in no table (IdleEvents). -/
theorem test_idle_event : let e : Instr := .homeAccessApply 3
    headerOf e = none ∧ accessEvent State.reset e = none ∧ boundaryEvent State.reset e = none ∧ commandEvent State.reset e = none ∧
    contextEvent State.reset e = none ∧ launchEvent State.reset e = none ∧ directoryEvent State.reset e = none ∧
    engineEvent State.reset e = none ∧ registerEvent State.reset e = none ∧ linkEvent State.reset e = none ∧
    resetEvent State.reset e = none ∧ processorEvent State.reset e = none ∧ adminEvent State.reset e = none ∧
    fabricEvent State.reset e = none := ⟨rfl, rfl, rfl, rfl, rfl, rfl, rfl, rfl, rfl, rfl, rfl, rfl, rfl, rfl⟩

/-! ### Steps, cycles and stores -/

/-- The memories of a state in mid-cycle are canonical, and it steps (MemoryWfKept). -/
theorem test_memory_wf : MemoryWf (here .c 0x0014FF2100000000) := ⟨by decide, by decide, by decide⟩
theorem test_memory_wf_step : ∃ t, step (here .c 0x0014FF2100000000) = .next t := ⟨_, rfl⟩

/-- A word of code memory, all ones, a PC without code memory, a word of the handler, and an event of the agenda (StepRunsDecoded). -/
theorem test_fetches :
    (here .c 0x0014FF2100000000).fetch (ctxFor .c 0x0014FF2100000000) .c = some 0x0014FF2100000000 ∧
    (here .c 0x0014FF2100000000).fetch (ctxFor .v 0) .c = some 0xFFFFFFFFFFFFFFFF ∧
    (S id).fetch ((c0 .c).setCl .c { (c0 .c).cl .c with pc := 0xE000 }) .c = none ∧
    (S id).fetch ((handling (c0 .c)).setCl .c { (c0 .c).cl .c with pc := 0xE008 }) .c = some 0xFFFFFFFFFFFFFFFF := by decide
theorem test_agenda : ({ State.reset with agenda := [.event (.schedulingStep 1)] } : State).slots = [] ∧
    ({ State.reset with agenda := [.event (.schedulingStep 1)] } : State).atTurn = none := by decide

/-- A word for each round trip (EncodeDecode, DecodeEncode). -/
theorem test_round_trip : wellFormed .c (.add hd ⟨19, 63, 2, 1, 0⟩) = true ∧
    encode (.add hd ⟨19, 63, 2, 1, 0⟩) = some 0x0014FF2100000000 := by decide

/-- Legal condition fields at their highest (Conditions). -/
theorem test_conditions : wellFormed .c (.cmp hd ⟨19, 63, 2, 1, 10⟩) = true ∧ wellFormed .c (.cmpi hd ⟨19, 63, 3, 10, 0⟩) = true ∧
    wellFormed .c (.sel hd ⟨19, 63, 2, 1, 7⟩) = true := by decide

/-- A landing to p0 only (PredicateZero). -/
theorem test_predicate_zero : ({ Landing.blank 1 .c 0 9 0 with d1 := 48 } : Landing).d1 = 48 ∧
    ({ Landing.blank 1 .c 0 9 0 with d1 := 48 } : Landing).d2 = 63 ∧ ({ Landing.blank 1 .c 0 9 0 with d1 := 48 } : Landing).pmask = 0 := by decide

/-- Loop counters for each case of NextPc: none ends, the inner one goes on, it ends alone, the outer goes on, it ends, both end. -/
def looping (n1 n0 : BitVec 32) : ClusterState :=
  { (c0 .c).cl .c with pc := 0x40, lc1 := ⟨n1, 0x20, 0x40⟩, lc0 := ⟨n0, 0x10, 0x40⟩ }
theorem test_next_pc : (looping 2 0).advance.pc = 0x20 ∧ (looping 1 0).advance.pc = 0x48 ∧ (looping 0 2).advance.pc = 0x10 ∧
    (looping 0 1).advance.pc = 0x48 ∧ (looping 1 2).advance.pc = 0x10 ∧ (looping 1 1).advance.pc = 0x48 ∧ (looping 0 0).advance.pc = 0x48 ∧
    (looping 1 1).advance.lc1.count = 0 ∧ (looping 1 1).advance.lc0.count = 0 := by decide

/-- A landing to an outbound queue and to elements (LandingWrites, QueueLandings). -/
theorem test_landing : let l : Landing := { Landing.blank 1 .c 0 9 0 with d1 := 56, q1 := 4, v1 := 5, elems := [3, 7], vals := [1, 2] }
    (c0 .c).inHandler = false ∧ l.d1 = BitVec.ofNat 6 (56 + 0) ∧ l.d2 = 63 ∧ l.elems[1]? = some 7 ∧ l.vals[1]? = some 2 ∧
    ((c0 .c).land l).mrf.get 7 = 2 ∧ ((c0 .c).land l).mrf.get 8 = 0 := by decide

/-- A landing whose second delivery, or both of them, name queues (QueueLandings): outbound queue 1 of C is queue 1, and entry 6 gets its value. -/
theorem test_queue_landings :
    let q : Ctx := { c0 .c with queues := ⟨[(0, [⟨4, none, 0⟩]), (1, [⟨6, none, 0⟩])]⟩ }
    let l : Landing := { Landing.blank 1 .c 0 9 0 with d1 := 9, d2 := 57, q2 := 6, v2 := 5 }
    let b : Landing := { Landing.blank 1 .c 0 9 0 with d1 := 56, q1 := 4, v1 := 3, d2 := 57, q2 := 6, v2 := 5 }
    q.inHandler = false ∧ l.d2 = BitVec.ofNat 6 (56 + 1) ∧ (q.land l).queue 1 = [⟨6, some 5, 10⟩] ∧ (q.land l).queue 0 = q.queue 0 ∧
    (q.land b).queue 0 = [⟨4, some 3, 10⟩] ∧ (q.land b).queue 1 = [⟨6, some 5, 10⟩] := by decide

/-- A context whose cycle ends with a store staged, and one whose cycle is gated (CycleEnds). -/
theorem test_cycle_ends : let c := { c0 .c with staged := [.store 0x40 [1, 2]] }
    c.verdict ≠ .trapped ∧ c.verdict ≠ .gated ∧ c.netWrites = [] ∧ c.trace = false ∧ c.yields = false ∧
    (((hereC .c c).endCycle k).core 128).get 0x41 = 2 ∧ (((hereC .c { c with verdict := .gated }).endCycle k).core 128).get 0x41 = 0 := by decide

/-- A store that may be applied at its home (HomeStores). -/
theorem test_home_store : let s := withP (pkt (.store [1, 2]))
    s.packet? 3 = some (pkt (.store [1, 2])) ∧ s.enabled 3 (pkt (.store [1, 2])) = true ∧ s.aborted (c0 .c) (pkt (.store [1, 2])) = false ∧
    (s.homes (c0 .c) .dsp true 0x80000040 2).toOption = some [.scratch 128 0x40, .scratch 128 0x41] := by decide

/-- A store to the host of a replicated graph whose comparison has failed writes nothing (HomeStores). -/
def refused : State :=
  { (withP { pkt (.store [1]) with space := .host }) with fab := { (withP (pkt (.load 8))).fab with refusing := true } }
theorem test_home_refused : refused.enabled 3 { pkt (.store [1]) with space := .host } = true ∧ refused.fab.refusing = true ∧
    refused.replicated (c0 .c).who.gid = true := by decide

/-- Words of each frame issue and go on (ScalarFrame, LaneFrame, OutgoingFrame, AreaFrame). -/
theorem test_frames :
    (∃ d t, quietWord (hereC .c (c0 .c)) (c0 .c) (.add hd ⟨19, 63, 2, 1, 0⟩) = some (d, []) ∧
      exec (.add hd ⟨19, 63, 2, 1, 0⟩) (hereC .c (c0 .c)) = .next t) ∧
    (∃ w t, laneWord (hereC .v (c0 .v)) (c0 .v) (.vadd hd ⟨2048, 3200, 4096, 0, 0, 0⟩) = some w ∧
      exec (.vadd hd ⟨2048, 3200, 4096, 0, 0, 0⟩) (hereC .v (c0 .v)) = .next t) ∧ (c0 .v).umode ≠ 0 ∧
    (∃ d t, matrixWord (hereC .m (c0 .m)) (c0 .m) (.mdrain hd ⟨3, 2048, 0⟩) = some d ∧
      exec (.mdrain hd ⟨3, 2048, 0⟩) (hereC .m (c0 .m)) = .next t) ∧
    (∃ d t, outgoingWord (hereC .x (c0 .x)) (c0 .x) (.ldm hd ⟨9, 63, 2, 1, 400, 0, 0, 0, 0⟩) = some d ∧
      exec (.ldm hd ⟨9, 63, 2, 1, 400, 0, 0, 0, 0⟩) (hereC .x (c0 .x)) = .next t) ∧
    (∃ t, exec (.ctxsv hd ⟨3, 1⟩) (hereC .c (handling (c0 .c))) = .next t) ∧
    ((ibB (handling (c0 .c)) 1).toNat < 4) ∧ (∃ t, exec (.ctxld hd ⟨3, 1⟩) (hereC .c (handling (c0 .c))) = .next t) :=
  ⟨⟨_, _, rfl, rfl⟩, ⟨_, _, rfl, rfl⟩, by decide, ⟨_, _, rfl, rfl⟩, ⟨_, _, rfl, rfl⟩, ⟨_, rfl⟩, by decide, ⟨_, rfl⟩⟩

/-! ### Exceptions -/

/-- A fatal cause outside the handler (TrapEntry), one that a level ignores (IgnoredCauses), one inside the handler (HandlerFaults), and a handler
that may end (HandlerEnd). -/
theorem test_causes : (c0 .c).inHandler = false ∧ (c0 .c).ignores (.issue causeIllegalOp .c) = false ∧
    (c0 .c).ignores ⟨0x05, .c, true, 0x12, false, 0, 0⟩ = true ∧ (handling (c0 .c)).inHandler = true ∧
    (handling (c0 .c)).landings = [] := by decide

/-- R460: a DIGEST_MISMATCH of the hardware enters no handler. -/
theorem test_digest_mismatch : let s := (S id).takeTrap k (.landing causeDigestMismatch .x 0 0)
    (s.ctx? k).map (fun c => (c.status, c.inHandler)) = some (.stopped, false) ∧ s.offers.length = 1 := by decide

/-- R166, R94: a trap goes to 0xE000 with the code in CAUSE; R167: inside the handler the context stops. -/
theorem test_trap_entry : let s := (S id).takeTrap k (.issue causeIllegalOp .c)
    (s.ctx? k).map (fun c => ((c.cl .c).pc, bits c.cause 0 8, c.inHandler)) = some (0xE000, causeIllegalOp.toNat, true) := by decide
theorem test_handler_fault : let s := (S handling).takeTrap k (.issue causeIllegalOp .c)
    (s.ctx? k).map (·.status) = some .stopped ∧ s.offers.length = 1 := by decide

/-! ### Picks (R420 to R427) -/

/-- A greedy pick of one token, token 1, from two tokens of equal logit 0 in shards of one, with the uniforms of UFIX. -/
def pick1 (us : List Nat) : Pick :=
  ⟨[0, 0, 0x21, 0] ++ List.replicate 12 0 ++ [1] ++ List.replicate 63 0 ++ toBytes 1 4 ++ toBytes 2 4 ++ toBytes 64 4 ++ [2] ++
    List.replicate 35 0, [], us⟩
def rows1 : List (List FVal) := List.replicate 2 [zeroF, zeroF]

/-- Each n is exp(0) = 1 and Z is 2, so the proposal passes exactly below u = 1/2; the bonus is token 0 up to u = 1/2 and token 1 above; a
rejected greedy token 1 leaves token 0 alone (R419 to R424). -/
theorem test_pick_accepts : (pick1 [8388607, 0, 0, 0, 0, 8388608]).draw rows1 = ⟨1, false, 0, 0, 3⟩ := by decide
theorem test_pick_bonus : (pick1 [0, 0, 0, 0, 0, 8388609]).draw rows1 = ⟨1, false, 1, 0, 3⟩ := by decide
theorem test_pick_rejects : (pick1 [8388608, 9, 0, 0, 0, 0]).draw rows1 = ⟨0, true, 0, 0, 5⟩ := by decide

/-- The premises on numbers hold of it, a token is drawable, and a list of two has its halves (EngineEvents). -/
theorem test_pick_numbers : isFin ((pick1 []).prob 0 1) = true ∧ isFin ((pick1 []).row rows1 0).1 = true ∧
    isFin (((pick1 []).row rows1 0).2.getD 1 zeroF) = true ∧
    ([natF 1, natF 1].length = 2 ^ (0 + 1)) ∧ treeSum [natF 1, natF 1] = add32 (natF 1) (natF 1) := by decide
theorem test_drawable : drawable [natF 1, natF 1] 8388609 1 ∧ ¬drawable [natF 1, natF 1] 8388609 0 := by
  unfold drawable; decide

/-- The pick fits the slot of a fresh sequence (its horizon is 0) once its version is 0, and no longer when the horizon has moved. -/
theorem test_pick_fits : pickFits (S id) 0 (pick1 []).desc ∧ ¬pickFits ((S id).setSeq 0 ⟨5, 0x10000⟩) 0 (pick1 []).desc := by
  refine ⟨⟨.inl (by decide), by decide, by decide⟩, fun h => absurd h.2.1 (by decide)⟩

/-- Philox4x32-10 of counter 0 and key 0 begins with 6627E8D5, the known answer of its authors (R421). -/
theorem test_philox : philox 0 0 0 = 0x6627E8D5 := by decide

/-- The place and the parameters of a verify die (R93), and a return stack within its depth (RegisterAndAreaWords). -/
theorem test_core_id : (S id).readReg (c0 .c) .c 0x000 = 0x04504000 ∧ (c0 .c).who.lcore < 128 ∧ (c0 .c).who.die < 3 ∧
    ((c0 .c).cl .c).ret.length ≤ 8 := by decide

/-! ### Results computed by hand -/

/-- What a word of the cases schedules: the first value it delivers and when it lands. -/
def delivers (cl : Cluster) (i : Instr) : Option (Word × Nat) :=
  match exec i (hereC cl (c0 cl)) with
  | .next t => (t.ctx? k).bind fun c => c.landings.getLast?.map fun l => (l.v1, l.due)
  | _ => none

/-- Entry 1 holds 1, entry 2 holds 64 and entry 7 holds 8: 64 + 1, 1 - 64 and 1 + (-2) wrap (R79, R80), 64 * 64 lands after three cycles and
64 / 8 after twenty (R95). -/
theorem test_add : delivers .c (.add hd ⟨19, 63, 2, 1, 0⟩) = some (65, 1) := by decide
theorem test_sub : delivers .c (.sub hd ⟨19, 63, 1, 2, 0⟩) = some (0xFFFFFFFFFFFFFFC1, 1) := by decide
theorem test_addi_negative : delivers .c (.addi hd ⟨19, 63, 1, 0, 0xFFFFFFFE⟩) = some (0xFFFFFFFFFFFFFFFF, 1) := by decide
theorem test_mul_latency : delivers .c (.mul hd ⟨19, 63, 2, 2, 0⟩) = some (4096, 3) := by decide
theorem test_div : delivers .c (.div hd ⟨19, 63, 2, 7, 0⟩) = some (8, 20) := by decide

end Sys2Proof.Tests
end

section
/-! An event whose conditions do not hold leaves the state as it was (log 2): where the table of Effects that lists an event answers
nothing, `exec` answers the same state. One lemma for each event; what several events share stands before them. -/

namespace Sys2Proof.Effects

open Sys2Proof.Machine Sys2Proof.Safety

@[simp] theorem onlyIf_eq_none {b : Bool} {t : State} : onlyIf b t = none ↔ b = false := by
  cases b <;> simp [onlyIf]

/-- A packet and its context are found exactly when both look-ups answer. -/
theorem packetOf_of_found {s : State} {id : Nat} {p : Packet} {c : Ctx} (hp : s.packet? id = some p) (hc : s.ctx? p.ctx = some c) :
    packetOf s id = some (p, c) := by
  simp [packetOf, hp, hc]

/-- A branch that is taken unless a guard holds is taken where it does not. -/
theorem stays_of_guard {p q : Prop} [Decidable p] {s t : State} (hq : ¬q) (hpq : ¬p → q) : (if p then s else t) = s :=
  if_pos (by_contra fun hp => hq (hpq hp))

/-! ### Accesses at their homes -/

section Access
variable {s : State} {id : Nat}

/-- Every load, store and line does something at its home. -/
theorem applyAccess_of_accessApplies_none {p : Packet} {c : Ctx} (h : accessApplies s id p c = none) : s.applyAccess id p c = s := by
  cases hact : p.act
  case load | line => simp [accessApplies, hact] at h
  case store => simp only [accessApplies, hact] at h; split at h <;> cases h
  all_goals simp [State.applyAccess, hact]

theorem homeAccessApply_idle (h : accessEvent s (.homeAccessApply id) = none) : exec (.homeAccessApply id) s = .next s := by
  refine congrArg Host.Outcome.next ?_
  rcases hp : s.packet? id with _ | p
  · rfl
  rcases hc : s.ctx? p.ctx with _ | c
  · simp only [hc]
  simp only [accessEvent, packetOf_of_found hp hc, Option.bind_some] at h
  simp only [hc]
  split at h
  · next he => rw [if_pos he, applyAccess_of_accessApplies_none h]
  · next he => rw [if_neg he]

theorem oldest_iff {p : Packet} : s.oldest id p = true ↔ ∀ e ∈ s.egress p.die p.lcore, e.1 < id → s.meet e.2 p = false := by
  simp [State.oldest, imp_iff_not_or]

theorem egressBufferDrain_idle (h : accessEvent s (.egressBufferDrain id) = none) : exec (.egressBufferDrain id) s = .next s := by
  refine congrArg Host.Outcome.next ?_
  rcases hp : s.packet? id with _ | p
  · rfl
  rcases hc : s.ctx? p.ctx with _ | c
  · simp only [hc]
  simp only [accessEvent, packetOf_of_found hp hc, Option.bind_some] at h
  simp only [hc]
  split
  · next b hact =>
    refine if_neg fun hall => ?_
    simp only [Bool.and_eq_true, beq_iff_eq, oldest_iff] at hall
    simp only [hact, hall, accessApplies] at h
    grind
  · rfl

/-- The next access of a command outside the package or in the host that has no such place faults nothing. -/
theorem failOutside_of_outsideFault_none {cause : Cause} {spaces : List Space} {out : Space → Bool}
    (hout : ∀ sp, spaces.contains sp = out sp) (h : outsideFault s id cause out = none) : s.failOutside id cause spaces = s := by
  unfold outsideFault at h
  unfold State.failOutside
  rcases hw : (s.cmds.find? id).bind Cmd.outside with _ | ⟨sp, a, wr⟩
  · rfl
  · simp only [hw, Option.bind_some, onlyIf_eq_none] at h
    simp only [hout, h, Bool.false_eq_true, if_false]

theorem deferredStoreFault_idle {cause : Cause} (h : accessEvent s (.deferredStoreFault id cause) = none) :
    exec (.deferredStoreFault id cause) s = .next s := by
  refine congrArg Host.Outcome.next ?_
  change (if ¬storeCauses.contains cause then none else _) = none at h
  split at h
  · next hcause => rcases s.packet? id with _ | p <;> simp_all
  · rcases hp : s.packet? id with _ | p <;> simp only [hp, onlyIf_eq_none] at h ⊢
    · rw [failOutside_of_outsideFault_none (by intro sp; cases sp <;> rfl) h, ite_self]
    · exact if_neg fun hall => by simp_all [Packet.unapplied]

theorem hostAccessTimeout_idle (h : accessEvent s (.hostAccessTimeout id) = none) : exec (.hostAccessTimeout id) s = .next s := by
  refine congrArg Host.Outcome.next ?_
  simp only [accessEvent] at h
  rcases hp : s.packet? id with _ | p <;> simp only [hp, onlyIf_eq_none] at h ⊢
  · exact failOutside_of_outsideFault_none (by intro sp; cases sp <;> rfl) h
  · simp [h]

theorem landingDataArrival_idle {r : Reply} (h : accessEvent s (.landingDataArrival id r) = none) :
    exec (.landingDataArrival id r) s = .next s := by
  refine congrArg Host.Outcome.next ?_
  rcases hp : s.packet? id with _ | p
  · rfl
  simp only [accessEvent, hp, Option.bind_some] at h
  grind [loadCauses]

theorem barrierEventApply_idle (h : accessEvent s (.barrierEventApply id) = none) : exec (.barrierEventApply id) s = .next s := by
  refine congrArg Host.Outcome.next ?_
  rcases hp : s.packet? id with _ | p
  · rfl
  rcases hc : s.ctx? p.ctx with _ | c
  · simp only [hc]
  simp only [accessEvent, packetOf_of_found hp hc, Option.bind_some] at h
  simp only [hc]
  split <;> simp_all

theorem routerMerge_idle {other : Nat} (h : accessEvent s (.routerMerge id other) = none) : exec (.routerMerge id other) s = .next s := by
  refine congrArg Host.Outcome.next ?_
  simp only [accessEvent] at h
  rcases hp : s.packet? id with _ | p
  · rfl
  rcases hq : s.packet? other with _ | q
  · rfl
  simp only [hp, hq, Option.bind_some, onlyIf_eq_none] at h
  exact if_neg fun hall => by simp_all

theorem atomicHomeApply_idle (h : accessEvent s (.atomicHomeApply id) = none) : exec (.atomicHomeApply id) s = .next s := by
  refine congrArg Host.Outcome.next ?_
  rcases hp : s.packet? id with _ | p
  · rfl
  rcases hc : s.ctx? p.ctx with _ | c
  · simp only [hc]
  simp only [accessEvent, packetOf_of_found hp hc, Option.bind_some] at h
  simp only [hc]
  split <;> simp_all

/-- A ticketed request whose granule is at no home meets no window. -/
theorem ticketArrives_of_atWindow_none {p : Packet} {c : Ctx} (h : atWindow s id p c = none) : s.ticketArrives id p c = s := by
  unfold atWindow at h
  unfold State.ticketArrives
  rcases hl : s.homes c p.space true p.addr p.act.length with e | l
  · simp only [hl] at h
    cases h
  rcases l with _ | ⟨w, l⟩
  · rfl
  · cases hact : p.act <;> simp_all

theorem ticketRequestArrival_idle (h : accessEvent s (.ticketRequestArrival id) = none) : exec (.ticketRequestArrival id) s = .next s := by
  refine congrArg Host.Outcome.next ?_
  rcases hp : s.packet? id with _ | p
  · rfl
  rcases hc : s.ctx? p.ctx with _ | c
  · simp only [hc]
  simp only [accessEvent, packetOf_of_found hp hc, Option.bind_some] at h
  simp only [hc, State.atHome, State.aborted]
  grind [ticketArrives_of_atWindow_none]

theorem retryResend_idle (h : accessEvent s (.retryResend id) = none) : exec (.retryResend id) s = .next s := by
  refine congrArg Host.Outcome.next ?_
  simp only [accessEvent] at h
  rcases hp : s.packet? id with _ | p
  · rfl
  simp only [hp, Option.bind_some, onlyIf_eq_none] at h
  exact if_neg (by simp [h])

theorem gapTimerExpiry_idle {win : Nat} (h : accessEvent s (.gapTimerExpiry win) = none) : exec (.gapTimerExpiry win) s = .next s := by
  refine congrArg Host.Outcome.next ?_
  simp only [accessEvent] at h
  rcases hw : s.win? (winHome win) with _ | w
  · rfl
  simp only [hw, Option.bind_some] at h
  split at h
  · split at h <;> cases h
  · next hdue => exact if_neg hdue

/-- A message that may not be placed now waits. -/
theorem waits_of_not_free {before turn : Bool} {n : Nat} (h : (!before && turn && decide (n < 16)) = false) :
    (before || !turn || decide (16 ≤ n)) = true := by
  cases before <;> cases turn <;> simp_all

theorem mailboxPlace_idle (h : accessEvent s (.mailboxPlace id) = none) : exec (.mailboxPlace id) s = .next s := by
  refine congrArg Host.Outcome.next ?_
  rcases hp : s.packet? id with _ | p
  · rfl
  rcases hc : s.ctx? p.ctx with _ | c
  · simp only [hc]
  simp only [accessEvent, packetOf_of_found hp hc, Option.bind_some] at h
  simp only [hc]
  split
  · next c' n msg hsome hact =>
    cases hsome
    simp only [hact] at h
    split at h
    · cases h
    next hup =>
    split at h
    · cases h
    next hsome =>
    rw [onlyIf_eq_none] at h
    rw [if_neg hup, if_neg (by simpa [and_assoc] using hsome)]
    exact if_pos (waits_of_not_free h)
  · rfl
end Access

/-! ### Boundaries and flushes -/

section Boundary
variable {s : State} {k : Nat}

/-- What stands at a boundary, as the model finds it. -/
theorem standsAt_of_boundaryOf {c : Ctx} {b : AtBoundary} (h : s.boundaryOf k = some (c, b)) : standsAt s k b = some c := by
  unfold State.boundaryOf at h
  split at h
  · cases h
  · next d hd =>
    split at h
    · next hph =>
      obtain ⟨rfl, rfl⟩ : d = c ∧ s.atBoundary k d = b := by simpa using h
      simp [standsAt, hd, hph]
    · cases h

theorem deliveryVisible_idle (h : boundaryEvent s (.deliveryVisible k) = none) : exec (.deliveryVisible k) s = .next s := by
  refine congrArg Host.Outcome.next ?_
  simp only [boundaryEvent] at h
  split
  · next c hc => simp [standsAt_of_boundaryOf hc] at h
  · next c hc => split at h <;> simp [standsAt_of_boundaryOf hc] at h
  · rfl

theorem queueDeadlock_idle (h : boundaryEvent s (.queueDeadlock k) = none) : exec (.queueDeadlock k) s = .next s := by
  refine congrArg Host.Outcome.next ?_
  simp only [boundaryEvent] at h
  split
  · next c hc => simp [standsAt_of_boundaryOf hc] at h
  · rfl

theorem joinRendezvous_idle (h : boundaryEvent s (.joinRendezvous k) = none) : exec (.joinRendezvous k) s = .next s := by
  refine congrArg Host.Outcome.next ?_
  simp only [boundaryEvent] at h
  split
  · next c hc => simp [standsAt_of_boundaryOf hc] at h
  · rfl

theorem gateLift_idle (h : boundaryEvent s (.gateLift k) = none) : exec (.gateLift k) s = .next s := by
  refine congrArg Host.Outcome.next ?_
  simp only [boundaryEvent] at h
  split
  · next c hc => simp [standsAt_of_boundaryOf hc] at h
  · rfl

/-- A cause from outside that stands at a boundary is the first of its context. -/
theorem async_of_atBoundary {c : Ctx} {i : TrapInfo} (h : s.atBoundary k c = .async i) : ∃ rest, c.async = i :: rest := by
  unfold State.atBoundary at h
  grind

theorem asyncCauseOffer_idle (h : boundaryEvent s (.asyncCauseOffer k) = none) : exec (.asyncCauseOffer k) s = .next s := by
  refine congrArg Host.Outcome.next ?_
  split
  · next c i hb =>
    have hs := standsAt_of_boundaryOf hb
    simp only [standsAt, Option.filter_eq_some_iff, Bool.and_eq_true, beq_iff_eq] at hs
    obtain ⟨hc, hph, hat⟩ := hs
    obtain ⟨rest, hr⟩ := async_of_atBoundary hat
    simp [boundaryEvent, hc, hph, hat, hr] at h
  · rfl

theorem flushMarkerGather_idle {dest : Nat} (h : boundaryEvent s (.flushMarkerGather k dest) = none) :
    exec (.flushMarkerGather k dest) s = .next s := by
  refine congrArg Host.Outcome.next ?_
  rcases hc : s.ctx? k with _ | c
  · rfl
  simp only [boundaryEvent, hc, Option.bind_some] at h
  rcases hf : c.flushing with _ | f
  · simp [hf] at h
  simp only [hf] at h ⊢
  grind

theorem flushCompletion_idle (h : boundaryEvent s (.flushCompletion k) = none) : exec (.flushCompletion k) s = .next s := by
  refine congrArg Host.Outcome.next ?_
  rcases hc : s.ctx? k with _ | c
  · rfl
  rcases hf : c.flushing with _ | f
  · simp only [hf]
  simp only [boundaryEvent, hc, hf, Option.bind_some, onlyIf_eq_none] at h
  simp only [hf]
  exact if_neg (ne_true_of_eq_false h)
end Boundary

/-! ### Engine commands -/

section Commands
variable {s : State} {id k : Nat}

theorem moverCommandStart_idle {q : Nat} (h : commandEvent s (.moverCommandStart k q) = none) :
    exec (.moverCommandStart k q) s = .next s := by
  refine congrArg Host.Outcome.next ?_
  rcases hc : s.ctx? k with _ | c
  · rfl
  simp only [commandEvent, hc, Option.bind_some, Option.map_eq_none_iff] at h
  simp only [h]

/-- A mover command that is not running, or whose next access waits, does nothing. -/
theorem runMover_of_moverRuns_none {kind : Nat} (h : moverRuns s id kind = none) : s.runMover id kind = s := by
  unfold State.runMover
  rcases hcmd : s.cmds.find? id with _ | cmd
  · rfl
  simp only [moverRuns, hcmd, Option.bind_some] at h
  split at h
  · next hrun =>
    obtain ⟨hu, hk, hr, hf⟩ := hrun
    rcases hc : s.ctx? cmd.ctx with _ | c
    · simp [hu, hk, hr, hf, hc]
    simp only [hc, Option.bind_some] at h
    rcases hm : s.moverStep id cmd c with x | t
    · simp_all [State.orFault]
    · simp [hm] at h
  · next hrun => exact stays_of_guard hrun fun hno => by simpa [and_assoc] using hno

theorem copy_idle (h : commandEvent s (.copy id) = none) : exec (.copy id) s = .next s :=
  congrArg _ (runMover_of_moverRuns_none h)
theorem mcastCommand_idle (h : commandEvent s (.mcastCommand id) = none) : exec (.mcastCommand id) s = .next s :=
  congrArg _ (runMover_of_moverRuns_none h)
theorem gather_idle (h : commandEvent s (.gather id) = none) : exec (.gather id) s = .next s :=
  congrArg _ (runMover_of_moverRuns_none h)
theorem i2c_idle (h : commandEvent s (.i2c id) = none) : exec (.i2c id) s = .next s :=
  congrArg _ (runMover_of_moverRuns_none h)
theorem fill_idle (h : commandEvent s (.fill id) = none) : exec (.fill id) s = .next s :=
  congrArg _ (runMover_of_moverRuns_none h)

theorem qfenceCommand_idle (h : commandEvent s (.qfenceCommand id) = none) : exec (.qfenceCommand id) s = .next s := by
  refine congrArg Host.Outcome.next ?_
  rcases hc : s.cmds.find? id with _ | c
  · rfl
  simp only [commandEvent, hc, Option.bind_some, onlyIf_eq_none] at h
  exact if_neg (ne_true_of_eq_false h)

theorem engineCredit_idle (h : commandEvent s (.engineCredit id) = none) : exec (.engineCredit id) s = .next s := by
  refine congrArg Host.Outcome.next ?_
  rcases hc : s.cmds.find? id with _ | c
  · rfl
  simp only [commandEvent, hc, Option.bind_some] at h
  rcases hcr : c.credits with _ | ⟨⟨a, n, arrive⟩, rest⟩
  · simp only [hcr]
  simp only [hcr] at h ⊢
  rcases hx : s.ctx? c.ctx with _ | x
  · grind
  · grind

theorem commandComplete_idle (h : commandEvent s (.commandComplete id) = none) : exec (.commandComplete id) s = .next s := by
  refine congrArg Host.Outcome.next ?_
  rcases hc : s.cmds.find? id with _ | c
  · rfl
  simp only [commandEvent, hc, Option.bind_some, onlyIf_eq_none] at h
  exact if_neg (ne_true_of_eq_false h)
end Commands

/-! ### Contexts -/

section Contexts
variable {s : State} {k : Nat}

theorem preemptionRequest_idle (h : contextEvent s (.preemptionRequest k) = none) : exec (.preemptionRequest k) s = .next s := by
  refine congrArg Host.Outcome.next ?_
  rcases hc : s.ctx? k with _ | c
  · rfl
  simp only [contextEvent, hc, Option.bind_some, onlyIf_eq_none, Bool.not_eq_false'] at h
  exact if_pos h

theorem contextSave_idle (h : contextEvent s (.contextSave k) = none) : exec (.contextSave k) s = .next s := by
  refine congrArg Host.Outcome.next ?_
  rcases hc : s.ctx? k with _ | c
  · rfl
  simp only [contextEvent, hc, Option.bind_some] at h
  have hst : (c.status == .halted) = false := by
    split at h
    · cases h
    · exact onlyIf_eq_none.mp h
  simp [hst]

theorem contextResume_idle (h : contextEvent s (.contextResume k) = none) : exec (.contextResume k) s = .next s := by
  refine congrArg Host.Outcome.next ?_
  rcases hc : s.ctx? k with _ | c
  · rfl
  simp only [contextEvent, hc, Option.bind_some, onlyIf_eq_none] at h
  exact if_neg (ne_true_of_eq_false h)

theorem instanceStart_idle (h : contextEvent s (.instanceStart k) = none) : exec (.instanceStart k) s = .next s := by
  refine congrArg Host.Outcome.next ?_
  rcases hc : s.ctx? k with _ | c
  · rfl
  simp only [contextEvent, hc, Option.bind_some] at h
  split at h
  · next hp =>
    rw [Option.map_eq_none_iff] at h
    simp [hp, h]
  · next hp => exact if_pos hp

theorem instanceEnd_idle (h : contextEvent s (.instanceEnd k) = none) : exec (.instanceEnd k) s = .next s := by
  refine congrArg Host.Outcome.next ?_
  rcases hc : s.ctx? k with _ | c
  · rfl
  simp only [contextEvent, hc, Option.bind_some, onlyIf_eq_none] at h
  exact if_neg (ne_true_of_eq_false h)

theorem taskComplete_idle (h : contextEvent s (.taskComplete k) = none) : exec (.taskComplete k) s = .next s := by
  refine congrArg Host.Outcome.next ?_
  rcases hc : s.ctx? k with _ | c
  · rfl
  simp only [contextEvent, hc, Option.bind_some] at h
  split at h
  · split at h
    · cases h
    · split at h <;> cases h
  · next hq => exact stays_of_guard hq fun hno => by simpa [and_assoc] using hno

theorem schedulingStep_idle {die : Nat} (h : contextEvent s (.schedulingStep die) = none) : exec (.schedulingStep die) s = .next s := by
  refine congrArg Host.Outcome.next ?_
  simp only [contextEvent, onlyIf_eq_none, Bool.not_eq_false'] at h
  exact if_pos h

theorem gangResume_idle {n : Nat} (h : contextEvent s (.gangResume n) = none) : exec (.gangResume n) s = .next s := by
  refine congrArg Host.Outcome.next ?_
  rcases hg : s.gangs.find? n with _ | g
  · rfl
  simp only [contextEvent, hg, Option.bind_some, onlyIf_eq_none] at h
  rcases hl : s.candidates g.die with _ | ⟨c, l⟩
  · simp only [hl]
  simp only [hl, List.head?_cons, Option.bind_some, beq_eq_false_iff_ne] at h
  simp only [hl, if_neg h]

theorem turnChange_idle {die p : Nat} (h : contextEvent s (.turnChange die p) = none) : exec (.turnChange die p) s = .next s := by
  refine congrArg Host.Outcome.next ?_
  simp only [contextEvent] at h
  rcases hall : s.sharers die p with _ | ⟨a, all⟩
  · rfl
  rcases hl : s.turnOf die p with _ | l
  · rfl
  rcases hm : nextTurn l (a :: all) with _ | m
  · simp only [hm, List.head?_cons, Option.bind_some]
  simp only [hall, hl, hm, Option.bind_some, onlyIf_eq_none, reduceCtorEq, if_false] at h
  simp only [hm, List.head?_cons, Option.bind_some]
  exact stays_of_guard (ne_true_of_eq_false h) fun hno => by simpa using hno
end Contexts

/-! ### Launches and containment -/

section Launches
variable {s : State}

theorem doorbell_idle {die : Nat} {r : List Byte} (h : launchEvent s (.doorbell die r) = none) : exec (.doorbell die r) s = .next s := by
  refine congrArg Host.Outcome.next ?_
  simp only [launchEvent] at h
  split at h
  · split at h
    · cases h
    · split at h <;> cases h
  · next hd =>
    refine stays_of_guard hd fun hno => ?_
    simpa [doorbellHeard, and_assoc] using hno

theorem launchAdmit_idle {n : Nat} (h : launchEvent s (.launchAdmit n) = none) : exec (.launchAdmit n) s = .next s := by
  refine congrArg Host.Outcome.next ?_
  simp only [launchEvent] at h
  rcases hp : (s.die (n / 2 ^ 32)).pendings.find? fun p => launchKey (n / 2 ^ 32) p.hseq = n with _ | p
  · simp only [hp]
  rcases hg : (s.die (n / 2 ^ 32)).graphs.find? p.gid with _ | g
  · simp only [hp, hg]
  simp only [hp, hg, Option.bind_some, onlyIf_eq_none] at h
  simp only [hp, hg]
  exact if_neg (ne_true_of_eq_false h)

theorem twinRunEnd_idle {n : Nat} (h : launchEvent s (.twinRunEnd n) = none) : exec (.twinRunEnd n) s = .next s := by
  refine congrArg Host.Outcome.next ?_
  rcases hr : s.runs.find? n with _ | r
  · rfl
  rcases hg : s.imageOf r with _ | g
  · simp only [hg]
  simp only [launchEvent, hr, hg, Option.bind_some] at h
  simp only [hg]
  split at h
  · split at h
    · cases h
    · split at h <;> cases h
  · next ht => exact stays_of_guard ht fun hno => by simpa [and_assoc] using hno

theorem containmentOffer_idle (h : launchEvent s .containmentOffer = none) : exec .containmentOffer s = .next s := by
  refine congrArg Host.Outcome.next ?_
  simp only [launchEvent] at h
  rcases ho : s.offers with _ | ⟨x, rest⟩
  · rfl
  · simp only [ho] at h
    cases h
end Launches

/-! ### The page directory -/

section Directory
variable {s : State} {id : Nat}

/-- An operation of the directory that only waits leaves the state, where the table's operation is the model's. -/
theorem runKv_of_directoryRuns_none {op : Nat} {go go' : Ctx → Cmd → KvStep} (hgo : ∀ c x, go c x = go' c x)
    (h : directoryRuns s id op go = none) : s.runKv id op go' = s := by
  obtain rfl : go = go' := funext fun c => funext fun x => hgo c x
  unfold State.runKv
  rcases hcmd : s.cmds.find? id with _ | cmd
  · rfl
  simp only [directoryRuns, hcmd, Option.bind_some] at h
  by_cases hready : s.kvReady id op cmd = true
  · rw [if_pos hready] at h
    rcases hc : s.ctx? cmd.ctx with _ | c
    · simp [hready, hc]
    rw [hc, Option.bind_some] at h
    simp only [hready, hc]
    split at h
    · next x hx =>
      have hx0 : x.cause = 0 := by simpa using h
      rcases hstep : go c cmd with y | ⟨t, r⟩
      · rw [hstep] at hx
        cases hx
        simp [hx0]
      · rw [hstep] at hx
        change (t.append (r.record cmd op).1 (r.record cmd op).2 >>= _) = _ at hx
        rcases ha : t.append (r.record cmd op).1 (r.record cmd op).2 with y | u <;> rw [ha] at hx <;> cases hx
        simp [ha, hx0]
    · cases h
  · simp [hready]

theorem busy_iff {e : KvEntry} : e.busy = true ↔ e.phase = .quar ∨ e.phase = .rebuild := by
  simp [KvEntry.busy]

theorem onEntry_eq_kvOn {w : Quad Word} {go go' : Nat → KvEntry → KvStep} (hgo : ∀ h e, go h e = go' h e) :
    onEntry s w go = s.kvOn w go' := by
  unfold onEntry State.kvOn
  rcases s.kv.find? (bits w.q0 0 32) with _ | e
  · rfl
  · exact hgo _ e

/-! The table's words for an operation on the directory are the model's. -/

theorem opens_eq_openTail : opens = State.openTail := rfl
theorem takesEntry_eq_putEntry : takesEntry = State.putEntry := rfl
theorem withPage_eq_setEntry : withPage = State.setEntry := rfl
theorem withoutPage_eq_freeEntry : withoutPage = State.freeEntry := rfl
theorem namesTail_eq_setTail : namesTail = State.setTail := rfl

theorem unlessBusy_eq {e : KvEntry} {r : KvStep} : unlessBusy s e r = if e.busy then .ok (s, kvFails kvBusy) else r :=
  if_congr busy_iff.symm rfl rfl

theorem kvopRegister_idle (h : directoryEvent s (.kvopRegister id) = none) : exec (.kvopRegister id) s = .next s := by
  refine congrArg Host.Outcome.next (runKv_of_directoryRuns_none (fun c x => ?_) h)
  unfold State.kvRegister
  rcases s.graphOf x.die c.who.launch with _ | g
  · rfl
  · refine (ite_not ..).symm.trans (if_congr ?_ rfl rfl)
    simp only [Bool.or_eq_true, Bool.and_eq_true, Bool.not_eq_true', decide_eq_true_eq]
    grind

/-- `State.openTail` is kept closed: unfolded, it searches the handles of a stack. -/
theorem kvopOpen_idle (h : directoryEvent s (.kvopOpen id) = none) : exec (.kvopOpen id) s = .next s := by
  refine congrArg Host.Outcome.next (runKv_of_directoryRuns_none (fun c x => ?_) h)
  unfold State.kvOpen
  obtain ⟨openTail, hopen⟩ := exists_eq (a' := State.openTail)
  rw [opens_eq_openTail, ← hopen]
  rcases hg : s.goodStorage x.words.q0
  · exact if_neg (ne_true_of_eq_false hg)
  · refine (if_pos hg).trans ?_
    dsimp only [kvSlot]
    rcases openTail s _ _ _ _ _ _ with _ | r <;> rfl

/-- What follows a sealed page: the next tail, or none. -/
theorem nextTail_map_eq {t : State} {w : Quad Word} {e y : KvEntry} {flags g : Nat} :
    (if w.q1 = 0 then some (t.setTail (bits w.q2 4 12) 0, flags, g, y)
      else (t.openTail (bits w.q2 4 12) w.q1 g (e.pos0 + 64) (e.len - 64)
        ⟨(e.tag.items.filter fun x => decide (64 ≤ x.1) && decide (x.1 < e.len)).map fun x => (x.1 - 64, x.2)⟩).map
          fun x => (x.1, flags, g, y)) =
      (t.nextTail w e g).map fun u => (u, flags, g, y) := by
  unfold State.nextTail
  split
  · rfl
  · rw [Option.map_map]; rfl

theorem sharesTag_eq_sameTag {y e : KvEntry} :
    (y.phase == .shared && y.parent == e.parent && (range 0 64).all fun n => y.tag.getD n 0 == e.tag.getD n 0) =
      (y.phase == .shared && y.sameTag e) :=
  Bool.and_assoc ..

/-- `State.putEntry` and `State.nextTail` are kept closed: unfolded, they search the handles of a stack. -/
theorem kvopSeal_idle (h : directoryEvent s (.kvopSeal id) = none) : exec (.kvopSeal id) s = .next s := by
  refine congrArg Host.Outcome.next (runKv_of_directoryRuns_none (fun c x => onEntry_eq_kvOn fun n e => ?_) h)
  have hstored : (x.words.q1 ≠ 0 ∧ stored s x.words.q1 = false) ↔ (x.words.q1 ≠ 0 && !s.goodStorage x.words.q1) = true := by
    simp [stored, State.goodStorage, storagePa, storageSize]
  rw [unlessBusy_eq]
  refine if_congr Iff.rfl rfl (if_congr (by simp) rfl (if_congr Iff.rfl rfl (if_congr hstored rfl ?_)))
  unfold seals
  rw [opens_eq_openTail, takesEntry_eq_putEntry, withPage_eq_setEntry, withoutPage_eq_freeEntry, namesTail_eq_setTail]
  obtain ⟨put, hput⟩ := exists_eq (a' := State.putEntry)
  rw [← hput]
  simp only [nextTail_map_eq, sharesTag_eq_sameTag]
  obtain ⟨next, hnext⟩ := exists_eq (a' := State.nextTail)
  rw [← hnext]
  generalize s.kv.items.filter (fun y => y.2.phase == .shared && y.2.sameTag e) = equal
  generalize equal.find? _ = found
  rcases found with _ | ⟨g, y⟩
  · rcases equal with _ | ⟨y, l⟩
    · dsimp only [KvEntry.full, List.isEmpty_nil]
      rw [if_pos rfl]
      rcases put (s.freeEntry n) _ _ with _ | ⟨t, m⟩
      · rfl
      · dsimp only [Option.map_some, Option.bind_some]
        rcases next t x.words e m with _ | u <;> rfl
    · dsimp only [List.isEmpty_cons]
      rw [if_neg Bool.false_ne_true]
      dsimp only [Option.bind_some, KvEntry.full]
      rcases next _ x.words e n with _ | u <;> rfl
  · dsimp only [Option.bind_some]
    rcases next _ x.words e g with _ | u <;> rfl

theorem copies_eq_forkCopy {w : Quad Word} {e : KvEntry} {p : KvPhase} : copies s w e p = s.forkCopy w e p := by
  unfold copies State.forkCopy
  obtain ⟨put, hput⟩ := exists_eq (a' := State.putEntry)
  rw [takesEntry_eq_putEntry, ← hput]
  rcases s.copyStorage e w.q1 with x | t
  · rfl
  · dsimp only [bind, Except.bind, kvSlot]
    rcases put t _ _ with _ | r <;> rfl

theorem kvopFork_idle (h : directoryEvent s (.kvopFork id) = none) : exec (.kvopFork id) s = .next s := by
  refine congrArg Host.Outcome.next (runKv_of_directoryRuns_none (fun c x => onEntry_eq_kvOn fun n e => ?_) h)
  simp only [copies_eq_forkCopy]
  rcases e.phase <;> rfl

theorem kvopRelease_idle (h : directoryEvent s (.kvopRelease id) = none) : exec (.kvopRelease id) s = .next s := by
  refine congrArg Host.Outcome.next (runKv_of_directoryRuns_none (fun c x => onEntry_eq_kvOn fun n e => ?_) h)
  rw [unlessBusy_eq]
  exact if_congr Iff.rfl rfl (if_congr (by simp) rfl rfl)

theorem kvopResolve_idle (h : directoryEvent s (.kvopResolve id) = none) : exec (.kvopResolve id) s = .next s :=
  congrArg Host.Outcome.next (runKv_of_directoryRuns_none (fun _ _ => onEntry_eq_kvOn fun _ _ => rfl) h)

theorem kvopTrunc_idle (h : directoryEvent s (.kvopTrunc id) = none) : exec (.kvopTrunc id) s = .next s := by
  refine congrArg Host.Outcome.next (runKv_of_directoryRuns_none (fun c x => onEntry_eq_kvOn fun n e => ?_) h)
  rw [unlessBusy_eq]
  exact if_congr Iff.rfl rfl (if_congr (by simp) rfl rfl)

theorem kvopTagrd_idle (h : directoryEvent s (.kvopTagrd id) = none) : exec (.kvopTagrd id) s = .next s := by
  refine congrArg Host.Outcome.next (runKv_of_directoryRuns_none (fun c x => onEntry_eq_kvOn fun n e => ?_) h)
  change (s.engineWrite c .dsp x.words.q1.toNat e.tagBytes >>= _) = _
  rcases s.engineWrite c .dsp x.words.q1.toNat e.tagBytes with y | t <;> rfl

theorem kvopDone_idle (h : directoryEvent s (.kvopDone id) = none) : exec (.kvopDone id) s = .next s := by
  refine congrArg Host.Outcome.next (runKv_of_directoryRuns_none (fun c x => onEntry_eq_kvOn fun n e => ?_) h)
  by_cases hp : e.phase = .rebuild <;> simp [hp] <;> rfl

theorem rebuilds_eq_offerRebuild {n : Nat} {e : KvEntry} (hn : s.kv.find? n = some e) : rebuilds s n e = s.offerRebuild n := by
  unfold rebuilds State.offerRebuild State.parentReady
  simp only [hn]
  rcases s.kv.find? e.parent with _ | p <;> exact if_congr (by simp [and_assoc]) rfl rfl

theorem kvopRebuild_idle (h : directoryEvent s (.kvopRebuild id) = none) : exec (.kvopRebuild id) s = .next s := by
  refine congrArg Host.Outcome.next (runKv_of_directoryRuns_none (fun c x => ?_) h)
  unfold State.kvRebuild onEntry State.kvOn
  rcases hn : s.kv.find? (bits x.words.q0 0 32) with _ | e
  · rfl
  simp only [rebuilds_eq_offerRebuild hn]
  by_cases hp : e.phase = .quar <;> simp [hp] <;> rfl

theorem quarantine_eq_notify {n : Nat} {e : KvEntry} {cause : Cause} {place : Nat × Nat} :
    s.quarantine n e e.phase cause cause place =
      ((withPage s n { e with phase := .quar, prior := e.phase, cause := cause, injectAt := none, owed := none }).report e.die 4 cause
        n).notify e.die ⟨1, some cause.toNat, none, 0, some n, e.ownseq, some place, some e⟩ := rfl

theorem kvFaultReport_idle {die n vec seg : Nat} {cause : Cause} (h : directoryEvent s (.kvFaultReport die n vec seg cause) = none) :
    exec (.kvFaultReport die n vec seg cause) s = .next s := by
  refine congrArg Host.Outcome.next ?_
  simp only [directoryEvent] at h
  split at h
  · next hno => exact if_neg (ne_true_of_eq_false hno)
  · next hin =>
    rw [if_pos (by simpa using hin)]
    unfold State.kvFault
    split at h
    · cases h
    next r hr =>
    split at h
    · cases h
    next e he =>
    split at h
    · cases h
    next hbusy =>
    rw [Option.map_eq_none_iff] at h
    dsimp only
    simp only [hr, he]
    rw [if_neg (by simpa using hbusy), quarantine_eq_notify, h]

theorem rebuildInject_idle {n : Nat} (h : directoryEvent s (.rebuildInject n) = none) : exec (.rebuildInject n) s = .next s := by
  refine congrArg Host.Outcome.next ?_
  rcases hn : s.kv.find? n with _ | e
  · rfl
  simp only [directoryEvent, hn, Option.bind_some] at h
  dsimp only
  rcases ho : e.owed with _ | status
  · rcases ht : e.injectAt with _ | t
    · rfl
    rcases hr : s.ring e.die with _ | r
    · rfl
    simp only [ho, ht, hr, Option.bind_some] at h
    split at h
    · next hlt => exact if_pos hlt
    · split at h <;> cases h
  · simp only [ho] at h
    exact congrArg (Option.getD · s) h
end Directory

/-! ### Collectives and picks -/

section Engines
variable {s : State} {id : Nat}

/-- An attempt of a pick that only waits leaves the state. -/
theorem lauterStep_of_pickTries_none {cmd : Cmd} {go go' : Ctx → Except ElemFault State} (hgo : ∀ c, go c = go' c)
    (h : pickTries s id cmd go = none) : s.lauterStep id cmd go' = s := by
  obtain rfl : go = go' := funext hgo
  unfold State.lauterStep
  rcases hc : s.ctx? cmd.ctx with _ | c
  · rfl
  simp only [pickTries, hc, Option.bind_some] at h
  dsimp only
  split at h
  · cases h
  · next hup =>
    rw [if_neg (by exact hup)]
    rcases hx : go c with x | t <;> simp only [hx] at h ⊢
    · exact if_pos (by simpa using h)
    · cases h

theorem lauter_idle (h : engineEvent s (.lauter id) = none) : exec (.lauter id) s = .next s := by
  refine congrArg Host.Outcome.next ?_
  rcases hx : s.cmds.find? id with _ | x
  · rfl
  simp only [engineEvent, hx, Option.bind_some] at h
  dsimp only
  split at h
  · next hs => exact (if_pos hs).trans (lauterStep_of_pickTries_none (fun _ => rfl) h)
  · next hs =>
    rw [if_neg hs]
    split at h
    · next hp => exact (if_pos (by simpa [and_assoc] using hp)).trans (lauterStep_of_pickTries_none (fun _ => rfl) h)
    · next hp => exact if_neg (by simpa [and_assoc] using hp)

theorem lauterMaskPoll_idle (h : engineEvent s (.lauterMaskPoll id) = none) : exec (.lauterMaskPoll id) s = .next s := by
  refine congrArg Host.Outcome.next ?_
  rcases hx : s.cmds.find? id with _ | x
  · rfl
  simp only [engineEvent, hx, Option.bind_some] at h
  dsimp only
  split at h
  · next hp =>
    refine (if_pos (by simpa [Cmd.parked, and_assoc] using hp)).trans (lauterStep_of_pickTries_none (fun c => ?_) h)
    rcases s.maskArrived c (unpackPick x.notes).desc with y | ⟨t, arrived⟩ <;> rfl
  · next hp => exact if_neg (by simpa [Cmd.parked, and_assoc] using hp)

theorem lauterForward_idle (h : engineEvent s (.lauterForward id) = none) : exec (.lauterForward id) s = .next s := by
  refine congrArg Host.Outcome.next ?_
  rcases hx : s.cmds.find? id with _ | x
  · rfl
  simp only [engineEvent, hx, Option.bind_some] at h
  dsimp only
  split at h
  · next hp =>
    split at h
    · cases h
    · next hup =>
      rw [onlyIf_eq_none, decide_eq_false_iff_not, Nat.not_lt] at h
      exact ite_eq_right_iff.mpr fun _ => (if_neg hup).trans (if_pos h)
  · next hp =>
    refine if_neg fun hall => hp ?_
    simp only [Bool.and_eq_true, beq_iff_eq, decide_eq_true_eq, List.all_eq_true, Bool.or_eq_true, Bool.not_eq_true',
      Bool.and_eq_false_iff] at hall
    grind

/-! The table's elements of an exchange are the model's (R453). -/

theorem range_eq_range' {a n : Nat} : range a n = List.range' a n := by
  induction n generalizing a with
  | zero => rfl
  | succ n ih => rw [range, ih, List.range'_succ]

theorem map_getD_range {α : Type} {l : List α} {d : α} : (range 0 l.length).map (fun k => l.getD k d) = l := by
  rw [range_eq_range']
  refine List.ext_getElem (by simp) fun n h1 h2 => ?_
  simp [List.getD_eq_getElem?_getD, List.getElem?_eq_getElem h2]

theorem reduceRanks_eq_collReduce {r : Quad Word} {l : List Nat} : reduceRanks r l = collReduce r l := by
  rcases l with _ | ⟨x, l⟩
  · simp [reduceRanks, collReduce]
  · simp only [reduceRanks, collReduce, List.map_cons, List.foldl_map]
    rfl

theorem dstElem_eq_collResult {r : Quad Word} {all : List (List Byte)} {my n : Nat} (hall : all.length = collRanks r) :
    dstElem r all my n = collResult r all my n := by
  have hmap : ∀ m, ((range 0 (collRanks r)).map fun k => rankElem r all k m) = all.map fun b => collElem r b m := by
    intro m
    conv_rhs => rw [← map_getD_range (l := all) (d := []), List.map_map, hall]
    rfl
  unfold dstElem collResult collOp
  simp only [reduceRanks_eq_collReduce]
  rcases bits r.q0 8 2 with _ | _ | o
  · exact congrArg (toBytes · (collSize r)) (congrArg (collReduce r) (hmap n))
  · rfl
  · exact congrArg (toBytes · (collSize r)) (congrArg (collReduce r) (hmap _))

theorem toBytes_length {x n : Nat} : (toBytes x n).length = n := by
  induction n generalizing x with
  | zero => rfl
  | succ n ih => rw [toBytes, List.length_cons, ih]

theorem collResult_length {r : Quad Word} {all : List (List Byte)} {my n : Nat} : (collResult r all my n).length = collSize r :=
  toBytes_length

/-- Writing the elements of a rank, by the table and by the model. -/
theorem writesDst_eq_writeElems {c : Ctx} {cmd : Cmd} {all : List (List Byte)} (hall : all.length = collRanks cmd.shape)
    {l : List Nat} : writesDst c cmd all l s = s.writeElems c cmd all l := by
  induction l generalizing s with
  | nil => rfl
  | cons n l ih =>
    unfold writesDst State.writeElems
    dsimp only
    rw [dstElem_eq_collResult hall]
    have hmy : bits cmd.shape.q0 32 10 = collRank cmd.shape := rfl
    rw [hmy, collResult_length]
    rcases s.engineWrite c (dsOf cmd.shape) (cmd.words.q1.toNat + n * collSize cmd.shape)
      (collResult cmd.shape all (collRank cmd.shape) n) with x | t
    · rfl
    · exact ih

theorem collDstElems_eq {r : Quad Word} :
    bits r.q1 0 32 * (if bits r.q0 8 2 = 1 then bits r.q0 16 11 else 1) = collDstElems r := by
  change _ = if bits r.q0 8 2 = 1 then bits r.q0 16 11 * bits r.q1 0 32 else bits r.q1 0 32
  split
  · rw [Nat.mul_comm]
  · rw [Nat.mul_one]

/-- Writing the results of the ranks, by the table and by the model. -/
theorem writesRanks_eq_rankResults {all : List (List Byte)} {l : List (Nat × Cmd)}
    (hall : ∀ e ∈ l, all.length = collRanks e.2.shape) : writesRanks all l s = s.rankResults all l := by
  induction l generalizing s with
  | nil => rfl
  | cons e l ih =>
    obtain ⟨id, cmd⟩ := e
    have ih : ∀ t, writesRanks all l t = t.rankResults all l := fun t => ih fun e he => hall e (List.mem_cons_of_mem _ he)
    unfold writesRanks State.rankResults
    rcases s.ctx? cmd.ctx with _ | c
    · rfl
    dsimp only [Option.bind_some]
    rw [collDstElems_eq, writesDst_eq_writeElems (hall _ List.mem_cons_self)]
    rcases s.writeElems c cmd all (range 0 (collDstElems cmd.shape)) with ⟨t, _ | x⟩
    · exact ih _
    · exact if_congr Iff.rfl rfl (ih _)

theorem sameHeader_ranks {a b : Cmd} (h : a.sameHeader b = true) : collRanks a.shape = collRanks b.shape := by
  simp only [Cmd.sameHeader, Cmd.sameRecord, Bool.and_eq_true, beq_iff_eq] at h
  exact h.1.1.1.2

/-- An exchange that a port holds back, or whose ranks have not all started, leaves the state. -/
theorem exchange_of_exchanges_none {x : Cmd} {others : List RankInput} (h : exchanges s x others = none) :
    s.exchange x others = s := by
  unfold exchanges at h
  unfold State.exchange
  have hown : s.ownRanks x.notes = x.notes.filter fun e => decide (bits e 0 10 = bits s.fab.node 0 10) := rfl
  have hfar : (fun e : Word × Nat => decide (rankNode e.1 ≠ bits s.fab.node 0 10)) = fun e => !decide (bits e.1 0 10 = bits s.fab.node 0 10) :=
    funext fun _ => decide_not
  simp only [hown, hfar] at h ⊢
  generalize x.notes.filter (fun e => decide (bits e 0 10 = bits s.fab.node 0 10)) = own at h ⊢
  generalize own.filterMap (s.rankCmd x.q) = mine at h ⊢
  split at h
  · next hwait => exact if_pos (by simpa [or_assoc] using hwait)
  next hstart =>
  rw [if_neg (by simpa [or_assoc] using hstart)]
  split at h
  · cases h
  next hsame =>
  rw [if_neg (by simpa using hsame)]
  rw [not_not] at hsame
  rcases hsrc : s.rankSources mine with ⟨i, f⟩ | ⟨t, srcs⟩ <;> simp only [hsrc] at h ⊢
  · exact if_pos (by simpa using h)
  · have hranks : ∀ e ∈ mine, collRanks x.shape = collRanks e.2.shape := fun e he => (sameHeader_ranks (hsame.1 e he)).symm
    rw [Option.map_eq_none_iff, writesRanks_eq_rankResults] at h
    · simp only [collRanks, h]
    · intro e he
      rw [List.length_map, range_eq_range', List.length_range']
      exact hranks e he

theorem coll_idle {ranks : List RankInput} (h : engineEvent s (.coll id ranks) = none) : exec (.coll id ranks) s = .next s := by
  refine congrArg Host.Outcome.next ?_
  rcases hx : s.cmds.find? id with _ | x
  · rfl
  rcases hc : s.ctx? x.ctx with _ | c
  · simp only [hc]
  simp only [engineEvent, hx, hc, Option.bind_some] at h
  simp only [hc]
  split at h
  · next hno => exact if_pos (by simpa using hno)
  · next hcoll =>
    rw [if_neg (by simpa using hcoll)]
    have hex : x.exchanging = (x.running && !x.finished && x.note == 1) := by
      simp_all [Cmd.exchanging]
    rw [hex]
    split at h
    · next he => exact (if_pos he).trans (exchange_of_exchanges_none h)
    · next he =>
      rw [if_neg he]
      split at h
      · next hel =>
        rw [if_pos hel]
        split at h
        · cases h
        · next e hst =>
          have he0 : e.cause = 0 := by simpa using h
          simp only [hst, he0, if_true]
      · next hel => exact if_neg hel
end Engines

/-! ### Register writes -/

section Registers
variable {s : State} {v : Word}

/-- A register write that is not under way leaves the state. -/
theorem takeWrite_of_writeOf_none {k crn : Nat} {f : Ctx → State → State} (h : writeOf s k crn v f = none) :
    s.takeWrite k (BitVec.ofNat 12 crn) v = s := by
  unfold State.takeWrite
  rcases hc : s.ctx? k with _ | c
  · rfl
  simp only [writeOf, hc, Option.bind_some] at h
  dsimp only
  split at h
  · cases h
  · next hst => rw [if_neg hst, if_neg (ne_true_of_eq_false (onlyIf_eq_none.mp h))]

/-- A write of a shared register that no context has under way leaves the state. -/
theorem takeDieWrite_of_sharedWrite_none {die : Option Nat} {crn : Nat} {f : Ctx → State → State}
    (h : sharedWrite s die crn v f = none) : s.takeDieWrite die crn v = s := by
  have hwriter : s.writer die (BitVec.ofNat 12 crn) v = (s.ctxs.items.find? fun e =>
      writesReg e.2 crn v && (die.map fun d => decide (e.2.who.die = d)).getD true).map fun e => e.1 := by
    rcases die with _ | d <;> rfl
  unfold State.takeDieWrite
  rw [hwriter]
  unfold sharedWrite at h
  generalize s.ctxs.items.find? _ = found at h
  rcases found with _ | e
  · rfl
  · exact takeWrite_of_writeOf_none h

theorem xinvWrite_idle {k : Nat} (h : registerEvent s (.xinvWrite k v) = none) : exec (.xinvWrite k v) s = .next s := by
  simp only [registerEvent] at h
  exact congrArg Host.Outcome.next (takeWrite_of_writeOf_none h)
theorem escWrite_idle {k : Nat} (h : registerEvent s (.escWrite k v) = none) : exec (.escWrite k v) s = .next s := by
  simp only [registerEvent] at h
  exact congrArg Host.Outcome.next (takeWrite_of_writeOf_none h)
theorem savepoolWrite_idle {die : Nat} (h : registerEvent s (.savepoolWrite die v) = none) : exec (.savepoolWrite die v) s = .next s :=
  congrArg Host.Outcome.next (takeDieWrite_of_sharedWrite_none h)
theorem hsliceWrite_idle {die : Nat} (h : registerEvent s (.hsliceWrite die v) = none) : exec (.hsliceWrite die v) s = .next s :=
  congrArg Host.Outcome.next (takeDieWrite_of_sharedWrite_none h)
theorem atpoolWrite_idle {die : Nat} (h : registerEvent s (.atpoolWrite die v) = none) : exec (.atpoolWrite die v) s = .next s :=
  congrArg Host.Outcome.next (takeDieWrite_of_sharedWrite_none h)
theorem fabNodeWrite_idle (h : registerEvent s (.fabNodeWrite v) = none) : exec (.fabNodeWrite v) s = .next s :=
  congrArg Host.Outcome.next (takeDieWrite_of_sharedWrite_none h)
theorem peerEntWrite_idle (h : registerEvent s (.peerEntWrite v) = none) : exec (.peerEntWrite v) s = .next s :=
  congrArg Host.Outcome.next (takeDieWrite_of_sharedWrite_none h)
theorem replCtlWrite_idle (h : registerEvent s (.replCtlWrite v) = none) : exec (.replCtlWrite v) s = .next s :=
  congrArg Host.Outcome.next (takeDieWrite_of_sharedWrite_none h)

theorem registerWrite_idle {k : Nat} {crn : BitVec 12} (h : registerEvent s (.registerWrite k crn v) = none) :
    exec (.registerWrite k crn v) s = .next s := by
  simp only [registerEvent] at h
  have hw := takeWrite_of_writeOf_none h
  rw [BitVec.ofNat_toNat, BitVec.setWidth_eq] at hw
  exact congrArg Host.Outcome.next hw

/-- A write of a register with a condition on its number or value. -/
theorem takeDieWrite_if_none {p : Prop} [Decidable p] {die : Option Nat} {crn : Nat} {f : Ctx → State → State}
    (h : (if p then sharedWrite s die crn v f else none) = none) : (if p then s.takeDieWrite die crn v else s) = s := by
  split at h
  · next hp => rw [if_pos hp, takeDieWrite_of_sharedWrite_none h]
  · next hp => exact if_neg hp

theorem decodeRegionEnable_idle {die n : Nat} (h : registerEvent s (.decodeRegionEnable die n v) = none) :
    exec (.decodeRegionEnable die n v) s = .next s :=
  congrArg Host.Outcome.next (takeDieWrite_if_none h)
theorem decodeRegionDisable_idle {die n : Nat} (h : registerEvent s (.decodeRegionDisable die n v) = none) :
    exec (.decodeRegionDisable die n v) s = .next s :=
  congrArg Host.Outcome.next (takeDieWrite_if_none h)
theorem heddleWrite_idle {die l : Nat} (h : registerEvent s (.heddleWrite die l v) = none) : exec (.heddleWrite die l v) s = .next s :=
  congrArg Host.Outcome.next (takeDieWrite_if_none h)
theorem lnkCtlWrite_idle {l : Nat} (h : registerEvent s (.lnkCtlWrite l v) = none) : exec (.lnkCtlWrite l v) s = .next s :=
  congrArg Host.Outcome.next (takeDieWrite_if_none h)

theorem decodeFill_idle {die n vec seg : Nat} (h : registerEvent s (.decodeFill die n vec seg) = none) :
    exec (.decodeFill die n vec seg) s = .next s := by
  refine congrArg Host.Outcome.next ?_
  simp only [registerEvent, onlyIf_eq_none] at h
  exact if_neg (ne_true_of_eq_false h)
end Registers

/-! ### Links and die time -/

section Links
variable {s : State} {l : Nat}

theorem laneFail_idle {n : Nat} {up : Bool} (h : linkEvent s (.laneFail l n up) = none) : exec (.laneFail l n up) s = .next s := by
  refine congrArg Host.Outcome.next ?_
  simp only [linkEvent] at h
  split at h
  · cases h
  · next hno => exact stays_of_guard hno fun hgo => by simpa [and_assoc] using hgo

theorem retrain_idle {step : Nat} {t : Training} (h : linkEvent s (.retrain l step t) = none) : exec (.retrain l step t) s = .next s := by
  refine congrArg Host.Outcome.next ?_
  simp only [linkEvent] at h
  split at h
  · next hno => exact if_pos (by simpa using hno)
  next hup =>
  refine (if_neg (by simpa using hup)).trans ?_
  rcases hw : (s.link l).want with _ | ⟨r, rest⟩ <;> simp only [hw] at h ⊢
  · rw [onlyIf_eq_none, decide_eq_false_iff_not] at h
    exact if_neg h
  · by_cases hstep : step ≠ (s.link l).stepOf r
    · exact if_pos hstep
    rw [if_neg hstep]
    rw [if_neg (by exact hstep)] at h
    split at h
    · next htrain =>
      rw [onlyIf_eq_none, Bool.not_eq_false'] at h
      simp only [htrain, h, Bool.false_eq_true, if_true, if_false]
    · cases h

theorem flitReplay_idle (h : linkEvent s (.flitReplay l) = none) : exec (.flitReplay l) s = .next s := by
  refine congrArg Host.Outcome.next ?_
  simp only [linkEvent] at h
  split at h
  · cases h
  · next hno => exact stays_of_guard hno fun hgo => by simpa using hgo

theorem replayWindowStepDown_idle {step : Nat} (h : linkEvent s (.replayWindowStepDown l step) = none) :
    exec (.replayWindowStepDown l step) s = .next s := by
  refine congrArg Host.Outcome.next ?_
  simp only [linkEvent, onlyIf_eq_none] at h
  exact stays_of_guard (ne_true_of_eq_false h) fun hgo => by simpa [Link.stepsDown, Nat.pos_iff_ne_zero, and_assoc] using hgo

theorem deskewEpoch_idle (h : linkEvent s .deskewEpoch = none) : exec .deskewEpoch s = .next s := by
  refine congrArg Host.Outcome.next ?_
  simp only [linkEvent] at h
  split at h
  · next hno => exact if_pos (by simpa using hno)
  · cases h
end Links

/-! ### Resets and memory errors -/

section Resets
variable {s : State} {die : Nat}

theorem quiesce_idle {other : Nat} (h : resetEvent s (.quiesce die other) = none) : exec (.quiesce die other) s = .next s := by
  refine congrArg Host.Outcome.next ?_
  simp only [resetEvent] at h
  split at h
  · cases h
  · next hno => exact stays_of_guard hno fun hgo => by simpa [and_assoc] using hgo

theorem dieRejoin_idle {r : DieReturn} (h : resetEvent s (.dieRejoin r) = none) : exec (.dieRejoin r) s = .next s := by
  refine congrArg Host.Outcome.next ?_
  simp only [resetEvent] at h
  split at h
  · cases h
  · next hno => exact stays_of_guard hno fun hgo => by simpa [range, and_assoc, or_iff_not_imp_left] using hgo

theorem memoryError_idle {unit loc : Nat} {corrected : Bool} (h : resetEvent s (.memoryError die unit loc corrected) = none) :
    exec (.memoryError die unit loc corrected) s = .next s := by
  refine congrArg Host.Outcome.next ?_
  simp only [resetEvent] at h
  split at h
  · cases h
  · next hno => exact stays_of_guard hno fun hgo => by simpa using hgo

theorem llcSliceRetire_idle {slice : Nat} (h : resetEvent s (.llcSliceRetire die slice) = none) :
    exec (.llcSliceRetire die slice) s = .next s := by
  refine congrArg Host.Outcome.next ?_
  simp only [resetEvent] at h
  split at h
  · cases h
  · next hno => exact stays_of_guard hno fun hgo => by simpa using hgo
end Resets

/-! ### The management processor -/

section Processor
variable {s : State} {n : Nat}

theorem completionRecord_idle (h : processorEvent s (.completionRecord n) = none) : exec (.completionRecord n) s = .next s := by
  refine congrArg Host.Outcome.next ?_
  simp only [processorEvent] at h
  dsimp only
  rcases hheld : (s.window n).held with _ | ⟨c, rest⟩
  · rfl
  · simp only [hheld] at h ⊢
    split at h
    · cases h
    · next hno =>
      refine stays_of_guard hno fun hgo => ?_
      simpa [State.windowUp, HostWindow.mayWrite, HostWindow.ringSize, and_assoc, or_iff_not_imp_left] using hgo

theorem cmplHeadWrite_idle {off : Nat} {v : Word} (h : processorEvent s (.cmplHeadWrite n off v) = none) :
    exec (.cmplHeadWrite n off v) s = .next s := by
  refine congrArg Host.Outcome.next ?_
  simp only [processorEvent] at h
  split at h
  · next hn => exact if_pos hn
  next hn =>
  refine (if_neg hn).trans ?_
  split at h
  · cases h
  · simp_all
  · simp_all
  · cases h
  · simp_all

theorem flushReadComplete_idle (h : processorEvent s (.flushReadComplete n) = none) : exec (.flushReadComplete n) s = .next s := by
  refine congrArg Host.Outcome.next ?_
  simp only [processorEvent] at h
  split at h
  · cases h
  · next hno => exact stays_of_guard hno fun hgo => by simpa using hgo

theorem errorLogAppend_idle (h : processorEvent s .errorLogAppend = none) : exec .errorLogAppend s = .next s := by
  refine congrArg Host.Outcome.next ?_
  simp only [processorEvent] at h
  rcases hr : s.reports with _ | ⟨x, rest⟩
  · rfl
  · simp only [hr] at h
    split at h
    · cases h
    · split at h <;> cases h

theorem timeLogEntry_idle (h : processorEvent s (.timeLogEntry n) = none) : exec (.timeLogEntry n) s = .next s := by
  refine congrArg Host.Outcome.next ?_
  simp only [processorEvent] at h
  split at h
  · cases h
  · next hno =>
    refine if_neg fun hgo => hno ?_
    simp only [State.timeDue, Bool.and_eq_true, decide_eq_true_eq, Bool.not_eq_true', and_assoc] at hgo
    exact hgo
end Processor

/-! ### Admin commands -/

section Admin
variable {s : State} {id : Nat}

/-- A command whose record does not have the next HSEQ, or of an MP that is off, leaves the state. -/
theorem adminCommand_of_answers_none {ok refused : Bool} {t u : State} (h : answers s ok t = none) :
    s.adminCommand refused u = .next s := by
  refine congrArg Host.Outcome.next (stays_of_guard (ne_true_of_eq_false (onlyIf_eq_none.mp h)) fun hgo => ?_)
  simpa using hgo

theorem ctxOpen_idle {policy : BitVec 2} {xroot : Word} {kek : List Byte} (h : adminEvent s (.ctxOpen id policy xroot kek) = none) :
    exec (.ctxOpen id policy xroot kek) s = .next s := by
  simp only [adminEvent] at h
  change execCtxOpen id policy xroot kek s = .next s
  unfold execCtxOpen
  rcases hk : Config.oaepDecrypt s.fw.identity.enc kek with _ | k <;> rw [hk] at h <;> exact adminCommand_of_answers_none h

theorem keyLoad_idle {slot : Nat} {wrapped : List Byte} (h : adminEvent s (.keyLoad id slot wrapped) = none) :
    exec (.keyLoad id slot wrapped) s = .next s := by
  simp only [adminEvent] at h
  change execKeyLoad id slot wrapped s = .next s
  unfold execKeyLoad
  rcases hk : (s.hostCtxs.find? id).bind fun h => unwrapKey h.kek wrapped with _ | k <;> rw [hk] at h <;>
    exact adminCommand_of_answers_none h

theorem ctxClose_idle (h : adminEvent s (.ctxClose id) = none) : exec (.ctxClose id) s = .next s :=
  adminCommand_of_answers_none h
theorem upload_idle {g : GraphImage} (h : adminEvent s (.upload id g) = none) : exec (.upload id g) s = .next s :=
  adminCommand_of_answers_none h
theorem free_idle {gid : Nat} (h : adminEvent s (.free gid) = none) : exec (.free gid) s = .next s :=
  adminCommand_of_answers_none h
theorem keyClear_idle {slot : Nat} (h : adminEvent s (.keyClear id slot) = none) : exec (.keyClear id slot) s = .next s :=
  adminCommand_of_answers_none h
theorem resetDie_idle {die : Nat} (h : adminEvent s (.resetDie die) = none) : exec (.resetDie die) s = .next s :=
  adminCommand_of_answers_none h
theorem retirePage_idle {pa : Nat} (h : adminEvent s (.retirePage pa) = none) : exec (.retirePage pa) s = .next s :=
  adminCommand_of_answers_none h
theorem fwStage_idle {image : List Byte} {dies : Bool} (h : adminEvent s (.fwStage image dies) = none) :
    exec (.fwStage image dies) s = .next s :=
  adminCommand_of_answers_none h
theorem fwSwitch_idle (h : adminEvent s .fwSwitch = none) : exec .fwSwitch s = .next s :=
  adminCommand_of_answers_none h
theorem attest_idle {nonce : List Byte} {dst : Nat} (h : adminEvent s (.attest nonce dst) = none) : exec (.attest nonce dst) s = .next s :=
  adminCommand_of_answers_none h
theorem logRead_idle {a b dst : Nat} (h : adminEvent s (.logRead a b dst) = none) : exec (.logRead a b dst) s = .next s :=
  adminCommand_of_answers_none h
theorem journalClear_idle {step : Nat} (h : adminEvent s (.journalClear step) = none) : exec (.journalClear step) s = .next s :=
  adminCommand_of_answers_none h
theorem handlerLoad_idle {die : Nat} {image : List Word} (h : adminEvent s (.handlerLoad die image) = none) :
    exec (.handlerLoad die image) s = .next s :=
  adminCommand_of_answers_none h
end Admin

/-! ### The fabric -/

section Fabric
variable {s : State} {node : Nat}

theorem peerRequestApply_idle {r : PeerRequest} (h : fabricEvent s (.peerRequestApply node r) = none) :
    exec (.peerRequestApply node r) s = .next s := by
  refine congrArg Host.Outcome.next ?_
  simp only [fabricEvent] at h
  dsimp only
  split at h
  · cases h
  next hnear =>
  rw [if_neg (by exact hnear)]
  split at h
  · next hheard => exact if_pos hheard
  · split at h <;> cases h

theorem fabricFlushMarker_idle {m : PeerMarkers} (h : fabricEvent s (.fabricFlushMarker node m) = none) :
    exec (.fabricFlushMarker node m) s = .next s := by
  refine congrArg Host.Outcome.next ?_
  simp only [fabricEvent] at h
  dsimp only
  split at h
  · cases h
  next hnear =>
  rw [if_neg (by exact hnear)]
  refine if_neg fun hgo => ne_true_of_eq_false (onlyIf_eq_none.mp h) ?_
  simpa using hgo

theorem replicaPairArrival_idle {step : BitVec 32} {digest : BitVec 128} (h : fabricEvent s (.replicaPairArrival step digest) = none) :
    exec (.replicaPairArrival step digest) s = .next s := by
  refine congrArg Host.Outcome.next ?_
  simp only [fabricEvent] at h
  dsimp only
  split at h
  · next hw =>
    simp only [hw]
    exact if_pos (by simpa using h)
  · split at h <;> cases h
end Fabric

/-! ### The obligation -/

/-- Settles O49: by the constructors, each event in the table that lists it. -/
theorem idleEvents : Obligations.IdleEvents := by
  unfold Obligations.IdleEvents
  intro e s hslot haccess hboundary hcommand hcontext hlaunch hdirectory hengine hregister hlink hreset hprocessor hadmin hfabric
  cases e
  case landingDataArrival => exact landingDataArrival_idle haccess
  case deferredStoreFault => exact deferredStoreFault_idle haccess
  case homeAccessApply => exact homeAccessApply_idle haccess
  case egressBufferDrain => exact egressBufferDrain_idle haccess
  case barrierEventApply => exact barrierEventApply_idle haccess
  case routerMerge => exact routerMerge_idle haccess
  case atomicHomeApply => exact atomicHomeApply_idle haccess
  case ticketRequestArrival => exact ticketRequestArrival_idle haccess
  case retryResend => exact retryResend_idle haccess
  case gapTimerExpiry => exact gapTimerExpiry_idle haccess
  case mailboxPlace => exact mailboxPlace_idle haccess
  case hostAccessTimeout => exact hostAccessTimeout_idle haccess
  case deliveryVisible => exact deliveryVisible_idle hboundary
  case queueDeadlock => exact queueDeadlock_idle hboundary
  case joinRendezvous => exact joinRendezvous_idle hboundary
  case gateLift => exact gateLift_idle hboundary
  case asyncCauseOffer => exact asyncCauseOffer_idle hboundary
  case flushMarkerGather => exact flushMarkerGather_idle hboundary
  case flushCompletion => exact flushCompletion_idle hboundary
  case moverCommandStart => exact moverCommandStart_idle hcommand
  case copy => exact copy_idle hcommand
  case gather => exact gather_idle hcommand
  case i2c => exact i2c_idle hcommand
  case fill => exact fill_idle hcommand
  case qfenceCommand => exact qfenceCommand_idle hcommand
  case mcastCommand => exact mcastCommand_idle hcommand
  case commandComplete => exact commandComplete_idle hcommand
  case engineCredit => exact engineCredit_idle hcommand
  case taskComplete => exact taskComplete_idle hcontext
  case preemptionRequest => exact preemptionRequest_idle hcontext
  case contextSave => exact contextSave_idle hcontext
  case contextResume => exact contextResume_idle hcontext
  case schedulingStep => exact schedulingStep_idle hcontext
  case instanceStart => exact instanceStart_idle hcontext
  case instanceEnd => exact instanceEnd_idle hcontext
  case gangResume => exact gangResume_idle hcontext
  case turnChange => exact turnChange_idle hcontext
  case powerThrottle => cases hcontext
  case doorbell => exact doorbell_idle hlaunch
  case launchAdmit => exact launchAdmit_idle hlaunch
  case twinRunEnd => exact twinRunEnd_idle hlaunch
  case containmentOffer => exact containmentOffer_idle hlaunch
  case kvopRegister => exact kvopRegister_idle hdirectory
  case kvopOpen => exact kvopOpen_idle hdirectory
  case kvopSeal => exact kvopSeal_idle hdirectory
  case kvopFork => exact kvopFork_idle hdirectory
  case kvopRelease => exact kvopRelease_idle hdirectory
  case kvopResolve => exact kvopResolve_idle hdirectory
  case kvopTrunc => exact kvopTrunc_idle hdirectory
  case kvopTagrd => exact kvopTagrd_idle hdirectory
  case kvopDone => exact kvopDone_idle hdirectory
  case kvopRebuild => exact kvopRebuild_idle hdirectory
  case kvFaultReport => exact kvFaultReport_idle hdirectory
  case rebuildInject => exact rebuildInject_idle hdirectory
  case lauter => exact lauter_idle hengine
  case lauterMaskPoll => exact lauterMaskPoll_idle hengine
  case lauterForward => exact lauterForward_idle hengine
  case coll => exact coll_idle hengine
  case xinvWrite => exact xinvWrite_idle hregister
  case escWrite => exact escWrite_idle hregister
  case decodeRegionEnable => exact decodeRegionEnable_idle hregister
  case decodeRegionDisable => exact decodeRegionDisable_idle hregister
  case decodeFill => exact decodeFill_idle hregister
  case heddleWrite => exact heddleWrite_idle hregister
  case savepoolWrite => exact savepoolWrite_idle hregister
  case hsliceWrite => exact hsliceWrite_idle hregister
  case atpoolWrite => exact atpoolWrite_idle hregister
  case lnkCtlWrite => exact lnkCtlWrite_idle hregister
  case fabNodeWrite => exact fabNodeWrite_idle hregister
  case peerEntWrite => exact peerEntWrite_idle hregister
  case replCtlWrite => exact replCtlWrite_idle hregister
  case registerWrite => exact registerWrite_idle hregister
  case deskewEpoch => exact deskewEpoch_idle hlink
  case flitReplay => exact flitReplay_idle hlink
  case laneFail => exact laneFail_idle hlink
  case retrain => exact retrain_idle hlink
  case replayWindowStepDown => exact replayWindowStepDown_idle hlink
  case dieReset => cases hreset
  case quiesce => exact quiesce_idle hreset
  case dieRejoin => exact dieRejoin_idle hreset
  case memoryError => exact memoryError_idle hreset
  case llcSliceRetire => exact llcSliceRetire_idle hreset
  case completionRecord => exact completionRecord_idle hprocessor
  case cmplHeadWrite => exact cmplHeadWrite_idle hprocessor
  case flushReadComplete => exact flushReadComplete_idle hprocessor
  case packagePowerUp => cases hprocessor
  case errorLogAppend => exact errorLogAppend_idle hprocessor
  case timeLogEntry => exact timeLogEntry_idle hprocessor
  case ctxOpen => exact ctxOpen_idle hadmin
  case ctxClose => exact ctxClose_idle hadmin
  case upload => exact upload_idle hadmin
  case free => exact free_idle hadmin
  case keyLoad => exact keyLoad_idle hadmin
  case keyClear => exact keyClear_idle hadmin
  case resetDie => exact resetDie_idle hadmin
  case retirePage => exact retirePage_idle hadmin
  case fwStage => exact fwStage_idle hadmin
  case fwSwitch => exact fwSwitch_idle hadmin
  case attest => exact attest_idle hadmin
  case logRead => exact logRead_idle hadmin
  case journalClear => exact journalClear_idle hadmin
  case handlerLoad => exact handlerLoad_idle hadmin
  case peerRequestApply => exact peerRequestApply_idle hfabric
  case fabricFlushMarker => exact fabricFlushMarker_idle hfabric
  case nodeUnreachable => cases hfabric
  case replicaPairArrival => exact replicaPairArrival_idle hfabric
  all_goals cases hslot

end Sys2Proof.Effects
end

section
/-! Encoding and decoding are inverse (O7, O8), by formats. A format lays the fields of a word's payload out from bit 0 upward, the
must-be-zero ranges of R47 among them; a payload decodes to the fields that lay out to it, and to no others. The opcode tables of
R57 to R61 then name the format of each OP. -/

namespace Sys2Proof.Codec

open Sys2Proof.Laws.Encoding

/-! ### Fields laid out from bit 0 upward -/

/-- A bit field with its width. -/
abbrev Field := (n : Nat) × BitVec n

/-- A must-be-zero range of some width (R47). -/
abbrev zero (n : Nat) : Field := ⟨n, 0#n⟩

/-- The bits that a list of fields takes. -/
def width : List Field → Nat
  | [] => 0
  | x :: l => x.1 + width l

/-- The number whose bits are the fields, the first one lowest. -/
def layout : List Field → Nat
  | [] => 0
  | x :: l => x.2.toNat + 2 ^ x.1 * layout l

/-- The bits of a word from bit `lo` upward are the fields. -/
def Fields (w : Word) (lo : Nat) : List Field → Prop
  | [] => True
  | x :: l => fld w lo x.1 = x.2 ∧ Fields w (lo + x.1) l

@[simp] theorem zeros_iff_fld {w : Word} {lo n : Nat} : zeros w lo n = true ↔ fld w lo n = 0#n := by
  rw [← BitVec.toNat_inj, fld, BitVec.toNat_ofNat]
  exact beq_iff_eq

/-- The bits of a word are the fields exactly when the fields lay out to those bits. -/
theorem fields_iff {w : Word} {lo : Nat} {l : List Field} : Fields w lo l ↔ layout l = w.toNat / 2 ^ lo % 2 ^ width l := by
  induction l generalizing lo with
  | nil => simp [Fields, layout, width, Nat.mod_one]
  | cons x l ih =>
    have hdigits := Nat.div_mod_unique (a := w.toNat / 2 ^ lo % (2 ^ x.1 * 2 ^ width l)) (c := x.2.toNat) (d := layout l)
      (Nat.two_pow_pos x.1)
    rw [Nat.mod_mul_right_div_self, Nat.mod_mul_right_mod, Nat.div_div_eq_div_mul, ← pow_add 2 lo, and_iff_left x.2.isLt] at hdigits
    rw [Fields, ih, layout, width, pow_add 2 x.1, ← hdigits, ← BitVec.toNat_inj, fld, BitVec.toNat_ofNat, and_comm, eq_comm]

/-! ### The frame of a word (R39) -/

/-- The payload of a word: its bits 51 to 0 (R39). -/
def payload (w : Word) : Nat := w.toNat % 2 ^ 52

theorem bit_one_eq (n : Nat) : bit (BitVec.ofNat 1 n == 1) = n % 2 := by
  rcases Nat.mod_two_eq_zero_or_one n with h | h <;> simp [bit, ← BitVec.toNat_inj, h]

/-- Header, OP and payload are all of a word. -/
theorem frame_parts (w : Word) : frame (parseHdr w) (opField w) (payload w) = w := by
  refine BitVec.eq_of_toNat_eq ?_
  simp only [frame, parseHdr, opField, payload, fld, bit_one_eq, BitVec.toNat_ofNat]
  have := w.isLt
  omega

theorem payload_frame {h : Hdr} {op p : Nat} (hp : p < 2 ^ 52) : payload (frame h op p) = p := by
  simp only [payload, frame, BitVec.toNat_ofNat]
  omega

theorem opField_frame {h : Hdr} {op p : Nat} (ho : op < 2 ^ 7) (hp : p < 2 ^ 52) : opField (frame h op p) = op := by
  simp only [opField, fld, frame, BitVec.toNat_ofNat]
  omega

/-! ### Formats (R46, R50, R53, R54) -/

/-- A reader and a writer of payloads fit: a word is read as fields exactly when its payload is what is written for them. -/
structure Format {α : Type} (parse : Word → Option α) (pack : α → Nat) : Prop where
  lt : ∀ f, pack f < 2 ^ 52
  reads : ∀ {w f}, parse w = some f ↔ pack f = payload w

/-- A reader and a writer that follow one layout of 52 bits fit. -/
theorem Format.ofLayout {α : Type} {parse : Word → Option α} {pack : α → Nat} (hlt : ∀ f, pack f < 2 ^ 52) (l : α → List Field)
    (hwidth : ∀ f, width (l f) = 52) (hpack : ∀ f, pack f = layout (l f))
    (hparse : ∀ w f, parse w = some f ↔ Fields w 0 (l f)) : Format parse pack where
  lt := hlt
  reads {w f} := by rw [hparse, fields_iff, hwidth, hpack, pow_zero, Nat.div_one, payload]

/-- The payload of format Z, which has no field (R46). -/
def packZ (_ : Unit) : Nat := 0

/-! One lemma for each format, with its fields from bit 0 upward. -/

theorem formatZ : Format parseZ packZ :=
  .ofLayout (fun _ => Nat.two_pow_pos 52) (fun _ => [zero 52]) (fun _ => rfl) (fun _ => rfl) fun w f => by simp [parseZ, Fields]

theorem formatD : Format parseD packD :=
  .ofLayout packD_lt (fun f => [zero 40, ⟨_, f.d2⟩, ⟨_, f.d1⟩])
    (fun _ => rfl) (fun f => by simp only [packD, layout]; bv_omega) (by rintro w ⟨⟩; simp [parseD, Fields, and_comm])

theorem formatS1 : Format parseS1 packS1 :=
  .ofLayout packS1_lt (fun f => [zero 36, ⟨_, f.sa⟩, zero 12])
    (fun _ => rfl) (fun f => by simp only [packS1, layout]; bv_omega) (by rintro w ⟨⟩; simp [parseS1, Fields, and_comm, and_left_comm])

theorem formatS2 : Format parseS2 packS2 :=
  .ofLayout packS2_lt (fun f => [zero 32, ⟨_, f.sb⟩, ⟨_, f.sa⟩, zero 12])
    (fun _ => rfl) (fun f => by simp only [packS2, layout]; bv_omega) (by rintro w ⟨⟩; simp [parseS2, Fields, and_comm, and_left_comm, and_assoc])

theorem formatR1 : Format parseR1 packR1 :=
  .ofLayout packR1_lt (fun f => [zero 36, ⟨_, f.sa⟩, ⟨_, f.d2⟩, ⟨_, f.d1⟩])
    (fun _ => rfl) (fun f => by simp only [packR1, layout]; bv_omega) (by rintro w ⟨⟩; simp [parseR1, Fields, and_comm, and_assoc])

theorem formatRR : Format parseRR packRR :=
  .ofLayout packRR_lt (fun f => [⟨_, f.fn⟩, zero 24, ⟨_, f.sb⟩, ⟨_, f.sa⟩, ⟨_, f.d2⟩, ⟨_, f.d1⟩])
    (fun _ => rfl) (fun f => by simp only [packRR, layout]; bv_omega) (by rintro w ⟨⟩; simp [parseRR, Fields, and_comm, and_left_comm, and_assoc])

theorem formatRI : Format parseRI packRI :=
  .ofLayout packRI_lt (fun f => [⟨_, f.imm⟩, ⟨_, f.fn⟩, ⟨_, f.sa⟩, ⟨_, f.d2⟩, ⟨_, f.d1⟩])
    (fun _ => rfl) (fun f => by simp only [packRI, layout]; bv_omega) (by rintro w ⟨⟩; simp [parseRI, Fields, and_comm, and_assoc])

theorem formatLI : Format parseLI packLI :=
  .ofLayout packLI_lt (fun f => [⟨_, f.imm⟩, zero 8, ⟨_, f.d2⟩, ⟨_, f.d1⟩])
    (fun _ => rfl) (fun f => by simp only [packLI, layout]; bv_omega) (by rintro w ⟨⟩; simp [parseLI, Fields, and_comm, and_left_comm, and_assoc])

theorem formatQ : Format parseQ packQ :=
  .ofLayout packQ_lt (fun f => [zero 32, ⟨_, f.qs⟩, zero 4, ⟨_, f.d2⟩, ⟨_, f.d1⟩])
    (fun _ => rfl) (fun f => by simp only [packQ, layout]; bv_omega) (by rintro w ⟨⟩; simp [parseQ, Fields, and_comm, and_left_comm, and_assoc])

theorem formatCR : Format parseCR packCR :=
  .ofLayout packCR_lt (fun f => [⟨_, f.crn⟩, zero 24, ⟨_, f.sa⟩, ⟨_, f.d2⟩, ⟨_, f.d1⟩])
    (fun _ => rfl) (fun f => by simp only [packCR, layout]; bv_omega) (by rintro w ⟨⟩; simp [parseCR, Fields, and_comm, and_left_comm, and_assoc])

theorem formatBR : Format parseBR packBR :=
  .ofLayout packBR_lt (fun f => [⟨_, f.off⟩, zero 22, ⟨_, f.d1⟩])
    (fun _ => rfl) (fun f => by simp only [packBR, layout]; bv_omega) (by rintro w ⟨⟩; simp [parseBR, Fields, and_comm, and_left_comm])

theorem formatLP : Format parseLP packLP :=
  .ofLayout packLP_lt (fun f => [⟨_, f.off⟩, ⟨_, f.cnt⟩, ⟨_, f.sa⟩, zero 7, ⟨_, f.lc⟩])
    (fun _ => rfl) (fun f => by simp only [packLP, layout]; bv_omega) (by rintro w ⟨⟩; simp [parseLP, Fields, and_comm, and_left_comm, and_assoc])

theorem formatPL : Format parsePL packPL :=
  .ofLayout packPL_lt (fun f => [zero 41, ⟨_, f.nb⟩, ⟨_, f.na⟩, ⟨_, f.pb⟩, ⟨_, f.pa⟩, ⟨_, f.pd⟩])
    (fun _ => rfl) (fun f => by simp only [packPL, layout]; bv_omega) (by rintro w ⟨⟩; simp [parsePL, Fields, and_comm, and_assoc])

theorem formatPW : Format parsePW packPW :=
  .ofLayout packPW_lt (fun f => [⟨_, f.mask⟩, zero 29, ⟨_, f.sa⟩, zero 12])
    (fun _ => rfl) (fun f => by simp only [packPW, layout]; bv_omega) (by rintro w ⟨⟩; simp [parsePW, Fields, and_comm, and_left_comm, and_assoc])

theorem formatTR : Format parseTR packTR :=
  .ofLayout packTR_lt (fun f => [⟨_, f.code⟩, zero 36])
    (fun _ => rfl) (fun f => by simp only [packTR, layout]; bv_omega) (by rintro w ⟨⟩; simp [parseTR, Fields, and_comm])

theorem formatFK : Format parseFK packFK :=
  .ofLayout packFK_lt (fun f => [⟨_, f.offx⟩, ⟨_, f.offm⟩, ⟨_, f.offv⟩, zero 1, ⟨_, f.x⟩, ⟨_, f.m⟩, ⟨_, f.v⟩])
    (fun _ => rfl) (fun f => by simp only [packFK, layout]; bv_omega) (by rintro w ⟨⟩; simp [parseFK, Fields, and_comm, and_left_comm, and_assoc])

theorem formatV3 : Format parseV3 packV3 :=
  .ofLayout packV3_lt (fun f => [⟨_, f.sub⟩, ⟨_, f.rm⟩, ⟨_, f.ty⟩, ⟨_, f.vb⟩, ⟨_, f.va⟩, ⟨_, f.vd⟩])
    (fun _ => rfl) (fun f => by simp only [packV3, layout]; bv_omega) (by rintro w ⟨⟩; simp [parseV3, Fields, and_comm, and_assoc])

theorem formatVR : Format parseVR packVR :=
  .ofLayout packVR_lt (fun f => [⟨_, f.sub⟩, ⟨_, f.rm⟩, ⟨_, f.ty⟩, zero 11, ⟨_, f.sa⟩, ⟨_, f.va⟩, zero 3, ⟨_, f.d2⟩, ⟨_, f.d1⟩])
    (fun _ => rfl) (fun f => by simp only [packVR, layout]; bv_omega) (by rintro w ⟨⟩; simp [parseVR, Fields, and_comm, and_left_comm, and_assoc])

theorem formatVS : Format parseVS packVS :=
  .ofLayout packVS_lt (fun f => [⟨_, f.sub⟩, ⟨_, f.rm⟩, ⟨_, f.ty⟩, zero 7, ⟨_, f.sb⟩, ⟨_, f.sa⟩, ⟨_, f.va⟩, ⟨_, f.vd⟩])
    (fun _ => rfl) (fun f => by simp only [packVS, layout]; bv_omega) (by rintro w ⟨⟩; simp [parseVS, Fields, and_comm, and_left_comm, and_assoc])

theorem formatVCV : Format parseVCV packVCV :=
  .ofLayout packVCV_lt (fun f => [⟨_, f.sub⟩, ⟨_, f.rm⟩, ⟨_, f.ty⟩, zero 5, ⟨_, f.fmts⟩, ⟨_, f.fmtd⟩, ⟨_, f.va⟩, ⟨_, f.vd⟩])
    (fun _ => rfl) (fun f => by simp only [packVCV, layout]; bv_omega) (by rintro w ⟨⟩; simp [parseVCV, Fields, and_comm, and_left_comm, and_assoc])

theorem formatMB : Format parseMB packMB :=
  .ofLayout packMB_lt (fun f => [zero 11, ⟨_, f.df⟩, ⟨_, f.dt⟩, ⟨_, f.dacc⟩, ⟨_, f.dr⟩, ⟨_, f.sa⟩, ⟨_, f.h⟩,
      ⟨_, f.acc⟩, ⟨_, f.z⟩, ⟨_, f.wb⟩])
    (fun _ => rfl) (fun f => by simp only [packMB, layout]; bv_omega) (by rintro w ⟨⟩; simp [parseMB, Fields, and_comm, and_assoc])

theorem formatMD : Format parseMD packMD :=
  .ofLayout packMD_lt (fun f => [zero 11, ⟨_, f.df⟩, ⟨_, f.dt⟩, ⟨_, f.dacc⟩, zero 16])
    (fun _ => rfl) (fun f => by simp only [packMD, layout]; bv_omega) (by rintro w ⟨⟩; simp [parseMD, Fields, and_comm, and_left_comm, and_assoc])

theorem formatMW : Format parseMW packMW :=
  .ofLayout packMW_lt (fun f => [zero 37, ⟨_, f.sa⟩, zero 1, ⟨_, f.half⟩, ⟨_, f.col⟩, ⟨_, f.wb⟩])
    (fun _ => rfl) (fun f => by simp only [packMW, layout]; bv_omega) (by rintro w ⟨⟩; simp [parseMW, Fields, and_comm, and_left_comm, and_assoc])

theorem formatMC : Format parseMC packMC :=
  .ofLayout packMC_lt (fun f => [zero 43, ⟨_, f.bss⟩, ⟨_, f.dens⟩, ⟨_, f.sp⟩, ⟨_, f.bw⟩, ⟨_, f.aw⟩])
    (fun _ => rfl) (fun f => by simp only [packMC, layout]; bv_omega) (by rintro w ⟨⟩; simp [parseMC, Fields, and_comm, and_assoc])

theorem formatMA : Format parseMA packMA :=
  .ofLayout packMA_lt (fun f => [zero 34, ⟨_, f.cnt⟩, ⟨_, f.acc⟩, zero 2])
    (fun _ => rfl) (fun f => by simp only [packMA, layout]; bv_omega) (by rintro w ⟨⟩; simp [parseMA, Fields, and_comm, and_left_comm, and_assoc])

theorem formatMX : Format parseMX packMX :=
  .ofLayout packMX_lt (fun f => [⟨_, f.acc⟩, zero 28, ⟨_, f.sa⟩, ⟨_, f.d2⟩, ⟨_, f.d1⟩])
    (fun _ => rfl) (fun f => by simp only [packMX, layout]; bv_omega) (by rintro w ⟨⟩; simp [parseMX, Fields, and_comm, and_left_comm, and_assoc])

theorem formatLD : Format parseLD packLD :=
  .ofLayout packLD_lt (fun f => [zero 4, ⟨_, f.sc⟩, ⟨_, f.ord⟩, ⟨_, f.sx⟩, ⟨_, f.sz⟩, ⟨_, f.land⟩, ⟨_, f.sb⟩,
      ⟨_, f.sa⟩, ⟨_, f.d2⟩, ⟨_, f.d1⟩])
    (fun _ => rfl) (fun f => by simp only [packLD, layout]; bv_omega) (by rintro w ⟨⟩; simp [parseLD, Fields, and_comm, and_assoc])

theorem formatST : Format parseST packST :=
  .ofLayout packST_lt (fun f => [zero 4, ⟨_, f.sc⟩, ⟨_, f.ord⟩, zero 1, ⟨_, f.sz⟩, zero 20, ⟨_, f.sb⟩, ⟨_, f.sa⟩, zero 12])
    (fun _ => rfl) (fun f => by simp only [packST, layout]; bv_omega) (by rintro w ⟨⟩; simp [parseST, Fields, and_comm, and_left_comm, and_assoc])

theorem formatLDV : Format parseLDV packLDV :=
  .ofLayout packLDV_lt (fun f => [zero 4, ⟨_, f.sc⟩, ⟨_, f.ord⟩, ⟨_, f.land⟩, ⟨_, f.sb⟩, ⟨_, f.sa⟩, ⟨_, f.vd⟩])
    (fun _ => rfl) (fun f => by simp only [packLDV, layout]; bv_omega) (by rintro w ⟨⟩; simp [parseLDV, Fields, and_comm, and_assoc])

theorem formatSTV : Format parseSTV packSTV :=
  .ofLayout packSTV_lt (fun f => [zero 4, ⟨_, f.sc⟩, ⟨_, f.ord⟩, zero 24, ⟨_, f.sa⟩, ⟨_, f.vs⟩])
    (fun _ => rfl) (fun f => by simp only [packSTV, layout]; bv_omega) (by rintro w ⟨⟩; simp [parseSTV, Fields, and_comm, and_left_comm, and_assoc])

theorem formatDR : Format parseDR packDR :=
  .ofLayout packDR_lt (fun f => [⟨_, f.mask⟩, zero 46])
    (fun _ => rfl) (fun f => by simp only [packDR, layout]; bv_omega) (by rintro w ⟨⟩; simp [parseDR, Fields, and_comm])

theorem formatFN : Format parseFN packFN :=
  .ofLayout packFN_lt (fun f => [zero 37, ⟨_, f.sc⟩, ⟨_, f.suc⟩, ⟨_, f.pre⟩])
    (fun _ => rfl) (fun f => by simp only [packFN, layout]; bv_omega) (by rintro w ⟨⟩; simp [parseFN, Fields, and_comm, and_assoc])

theorem formatCP : Format parseCP packCP :=
  .ofLayout packCP_lt (fun f => [⟨_, f.off⟩, zero 8, ⟨_, f.sb⟩, ⟨_, f.sa⟩, ⟨_, f.w2⟩, ⟨_, f.p2⟩, ⟨_, f.w1⟩, ⟨_, f.p1⟩, zero 4, ⟨_, f.mq⟩])
    (fun _ => rfl) (fun f => by simp only [packCP, layout]; bv_omega) (by rintro w ⟨⟩; simp [parseCP, Fields, and_comm, and_left_comm, and_assoc])

theorem formatEC : Format parseEC packEC :=
  .ofLayout packEC_lt (fun f => [⟨_, f.off⟩, zero 8, ⟨_, f.sb⟩, ⟨_, f.sa⟩, ⟨_, f.w2⟩, ⟨_, f.p2⟩, ⟨_, f.w1⟩,
      ⟨_, f.p1⟩, ⟨_, f.eq⟩, ⟨_, f.eng⟩])
    (fun _ => rfl) (fun f => by simp only [packEC, layout]; bv_omega) (by rintro w ⟨⟩; simp [parseEC, Fields, and_comm, and_left_comm, and_assoc])

theorem formatQF : Format parseQF packQF :=
  .ofLayout packQF_lt (fun f => [zero 48, ⟨_, f.mqm⟩])
    (fun _ => rfl) (fun f => by simp only [packQF, layout]; bv_omega) (by rintro w ⟨⟩; simp [parseQF, Fields, and_comm])

theorem formatAM : Format parseAM packAM :=
  .ofLayout packAM_lt (fun f => [⟨_, f.sp⟩, ⟨_, f.w⟩, ⟨_, f.aop⟩, ⟨_, f.sc⟩, ⟨_, f.ord⟩, ⟨_, f.land⟩, ⟨_,
      f.sb⟩, ⟨_, f.sa⟩, ⟨_, f.d2⟩, ⟨_, f.d1⟩])
    (fun _ => rfl) (fun f => by simp only [packAM, layout]; bv_omega) (by rintro w ⟨⟩; simp [parseAM, Fields, and_comm, and_assoc])

/-! ### Encoding, then decoding (O7) -/

/-- Decoding the encoding of a word gives the word, wherever the word is well-formed. -/
def RoundTrips (i : Instr) : Prop := ∀ cl w, wellFormed cl i = true → encode i = some w → decode cl w = .ok i

/-- A word decodes to what its row reads from it, where that is well-formed. -/
theorem decode_eq_ok {cl : Cluster} {w : Word} {i : Instr} :
    decode cl w = .ok i ↔ decodeOp cl (opField w) (parseHdr w) w = .ok i ∧ wellFormed cl i = true := by
  unfold decode
  split
  next e he => simp [he]
  next j hj =>
    rw [hj, Except.ok.injEq]
    split
    next hwf => exact ⟨fun h => ⟨Except.ok.inj h, Except.ok.inj h ▸ hwf⟩, fun h => congrArg _ h.1⟩
    next hwf => exact ⟨nofun, fun h => absurd (h.1 ▸ h.2) hwf⟩

/-- A row of the encoder and the decoder's row of the same OP, with one format, wherever the word is well-formed. -/
theorem Format.roundTrips {α : Type} {parse : Word → Option α} {pack : α → Nat} (F : Format parse pack) {mk : α → Instr} {f : α}
    {h : Hdr} {op : Nat} (henc : encode (mk f) = some (frame h op (pack f)))
    (hdec : ∀ cl, wellFormed cl (mk f) = true → ∀ w, decodeOp cl op h w = ofPayload (parse w) mk)
    (hop : op < 2 ^ 7 := by decide) : RoundTrips (mk f) := by
  intro cl w hwf hw
  obtain rfl : frame h op (pack f) = w := Option.some.inj (henc.symm.trans hw)
  refine decode_eq_ok.mpr ⟨?_, hwf⟩
  have hread : parse (frame h op (pack f)) = some f := F.reads.mpr (payload_frame (F.lt f)).symm
  rw [opField_frame hop (F.lt f), parseHdr_frame h op _ hop (F.lt f), hdec cl hwf, hread, ofPayload]

theorem roundTrips_of_formatZ {i : Instr} {h : Hdr} {op : Nat} (henc : encode i = some (frame h op 0))
    (hdec : ∀ cl, wellFormed cl i = true → ∀ w, decodeOp cl op h w = ofPayload (parseZ w) fun _ => i)
    (hop : op < 2 ^ 7 := by decide) : RoundTrips i :=
  formatZ.roundTrips (mk := fun _ => i) (f := ()) henc hdec hop

/-- What holds in a cluster holds wherever a word is well-formed that the three others do not have (R58 to R61). -/
theorem of_only (cl₀ : Cluster) {i : Instr} {P : Cluster → Prop}
    (hno : (Machine.allClusters.erase cl₀).map (wellFormed · i) = [false, false, false]) (h : P cl₀) :
    ∀ cl, wellFormed cl i = true → P cl := by
  intro cl hwf
  by_cases hcl : cl = cl₀
  · exact hcl ▸ h
  · have hmem : cl ∈ Machine.allClusters.erase cl₀ := (List.mem_erase_of_ne hcl).mpr (by cases cl <;> decide)
    have : wellFormed cl i ∈ [false, false, false] := hno ▸ List.mem_map_of_mem hmem
    simp [hwf] at this

/-- Settles O7: by the constructors, each slot word by the format of its row in its cluster's opcode table (R57 to R61). -/
theorem encodeDecode : Obligations.EncodeDecode := by
  unfold Obligations.EncodeDecode
  intro cl i
  suffices h : RoundTrips i from h cl
  cases i
  case nop | ret | join | halt =>
    exact roundTrips_of_formatZ rfl fun _ _ _ => rfl
  case add | sub | andW | orW | xorW | andn | shl | shr | sra | rot | cmp | sel =>
    exact formatRR.roundTrips rfl fun _ _ _ => rfl
  case mov | clz | popc =>
    exact formatR1.roundTrips rfl fun _ _ _ => rfl
  case addi | andi | ori | xori | shli | shri | srai | roti | cmpi | lih | ext =>
    exact formatRI.roundTrips rfl fun _ _ _ => rfl
  case li =>
    exact formatLI.roundTrips rfl fun _ _ _ => rfl
  case pand | por | pxor =>
    exact formatPL.roundTrips rfl fun _ _ _ => rfl
  case prd =>
    exact formatD.roundTrips rfl fun _ _ _ => rfl
  case pwr =>
    exact formatPW.roundTrips rfl fun _ _ _ => rfl
  case br | jal =>
    exact formatBR.roundTrips rfl fun _ _ _ => rfl
  case jr =>
    exact formatS2.roundTrips rfl fun _ _ _ => rfl
  case loop | loopi | lend =>
    exact formatLP.roundTrips rfl fun _ _ _ => rfl
  case qcnt =>
    exact formatQ.roundTrips rfl fun _ _ _ => rfl
  case crr =>
    exact formatCR.roundTrips rfl fun _ _ _ => rfl
  case trap =>
    exact formatTR.roundTrips rfl fun _ _ _ => rfl
  case mul | mulh | mulhu | div | divu | rem | remu | launch | wchild | semRd | dgstRd | mbxRecv | mbxCnt | zlat | propPop | hznRd | lnkSt
    =>
    exact formatRR.roundTrips rfl (of_only .c rfl fun _ => rfl)
  case muli | semWait | deskew =>
    exact formatRI.roundTrips rfl (of_only .c rfl fun _ => rfl)
  case fork =>
    exact formatFK.roundTrips rfl (of_only .c rfl fun _ => rfl)
  case crw | crrp =>
    exact formatCR.roundTrips rfl (of_only .c rfl fun _ => rfl)
  case eret | yield | exit | dgstClr =>
    exact roundTrips_of_formatZ rfl (of_only .c rfl fun _ => rfl)
  case ctxsv | ctxld | semSig | semInit | mbxSend | propPush | hznWr | lnkRate =>
    exact formatS2.roundTrips rfl (of_only .c rfl fun _ => rfl)
  case vadd | vsub | vmul | vfma | vfms | vfnma | vmax | vmin | vabs | vneg | vdiv | vsqrt | vexp2 | vexp | vscale | viadd | visub | vimul
    | vimax | vimin | vand | vor | vxor | vshl | vshr | vsra | vcmp | vicmp | vsel | viota | vpack | vunpack | vperm | vmov | vclr =>
    exact formatV3.roundTrips rfl (of_only .v rfl fun _ => rfl)
  case vpopc | vext | vrmax | vrmin | vrsum | vrargmax =>
    exact formatVR.roundTrips rfl (of_only .v rfl fun _ => rfl)
  case vcvt =>
    exact formatVCV.roundTrips rfl (of_only .v rfl fun _ => rfl)
  case vrot | vbcast | vins =>
    exact formatVS.roundTrips rfl (of_only .v rfl fun _ => rfl)
  case mbeat | mshift =>
    exact formatMB.roundTrips rfl (of_only .m rfl fun _ => rfl)
  case mdrain | mdrainc =>
    exact formatMD.roundTrips rfl (of_only .m rfl fun _ => rfl)
  case mwload | mbscale =>
    exact formatMW.roundTrips rfl (of_only .m rfl fun _ => rfl)
  case mcfg =>
    exact formatMC.roundTrips rfl (of_only .m rfl fun _ => rfl)
  case mseed =>
    exact formatS1.roundTrips rfl (of_only .m rfl fun _ => rfl)
  case mclr =>
    exact formatMA.roundTrips rfl (of_only .m rfl fun _ => rfl)
  case mexp | mexpw =>
    exact formatMX.roundTrips rfl (of_only .m rfl fun _ => rfl)
  case msat | mstat =>
    exact formatD.roundTrips rfl (of_only .m rfl fun _ => rfl)
  case mwait =>
    exact roundTrips_of_formatZ rfl (of_only .m rfl fun _ => rfl)
  case ldl | ldc | ldd | ldm | ldn | ldh =>
    exact formatLD.roundTrips rfl (of_only .x rfl fun _ => rfl)
  case stl | stc | std | stm | stn | sth =>
    exact formatST.roundTrips rfl (of_only .x rfl fun _ => rfl)
  case ldlV | ldcV | lddV | ldmV | ldnV | ldhV =>
    exact formatLDV.roundTrips rfl (of_only .x rfl fun _ => rfl)
  case stlV | stcV | stdV | stmV | stnV | sthV =>
    exact formatSTV.roundTrips rfl (of_only .x rfl fun _ => rfl)
  case drain =>
    exact formatDR.roundTrips rfl (of_only .x rfl fun _ => rfl)
  case fence =>
    exact formatFN.roundTrips rfl (of_only .x rfl fun _ => rfl)
  case cpy =>
    exact formatCP.roundTrips rfl (of_only .x rfl fun _ => rfl)
  case ecmd =>
    exact formatEC.roundTrips rfl (of_only .x rfl fun _ => rfl)
  case qfence =>
    exact formatQF.roundTrips rfl (of_only .x rfl fun _ => rfl)
  case salloc | barInit | barExp | barCred | amotOpen | amotSkip =>
    exact formatS2.roundTrips rfl (of_only .x rfl fun _ => rfl)
  case pfm | barBrk | drainT | pflush =>
    exact formatS1.roundTrips rfl (of_only .x rfl fun _ => rfl)
  case mqcnt =>
    exact formatQ.roundTrips rfl (of_only .x rfl fun _ => rfl)
  case barArr | barWait | barTest | mcast | pseq | rdig | rcmp =>
    exact formatRR.roundTrips rfl (of_only .x rfl fun _ => rfl)
  case amo | amocas | ared | amof | aredf =>
    exact formatAM.roundTrips rfl (of_only .x rfl fun _ => rfl)
  all_goals
    intro _ _ _ henc
    cases henc

/-! ### Decoding, then encoding (O8) -/

theorem ofPayload_eq_ok {α : Type} {p : Option α} {mk : α → Instr} {i : Instr} :
    ofPayload p mk = .ok i ↔ ∃ f, p = some f ∧ mk f = i := by
  cases p <;> simp [ofPayload]

/-- What a row of the opcode tables reads from a word is encoded with the row's OP and the word's payload; no other OP is read. -/
theorem encode_of_decodeOp {cl : Cluster} {op : Nat} {h : Hdr} {w : Word} {i : Instr} (hdec : decodeOp cl op h w = .ok i) :
    encode i = some (frame h op (payload w)) := by
  unfold decodeOp decodeCommon decodeC decodeV decodeM decodeX at hdec
  -- One case for each row, in which its format reads the payload; an OP without a row is refused.
  (repeat' split at hdec) <;>
    simp only [ofPayload_eq_ok, reduceCtorEq, formatZ.reads, formatD.reads, formatS1.reads, formatS2.reads, formatR1.reads,
      formatRR.reads, formatRI.reads, formatLI.reads, formatQ.reads, formatCR.reads, formatBR.reads, formatLP.reads, formatPL.reads,
      formatPW.reads, formatTR.reads, formatFK.reads, formatV3.reads, formatVR.reads, formatVS.reads, formatVCV.reads, formatMB.reads,
      formatMD.reads, formatMW.reads, formatMC.reads, formatMA.reads, formatMX.reads, formatLD.reads, formatST.reads, formatLDV.reads,
      formatSTV.reads, formatDR.reads, formatFN.reads, formatCP.reads, formatEC.reads, formatQF.reads, formatAM.reads] at hdec
  all_goals
    obtain ⟨f, hread, rfl⟩ := hdec
    exact hread ▸ rfl

/-- Settles O8: the row that decodes a word encodes to its OP and payload, which with its header are all of the word. -/
theorem decodeEncode : Obligations.DecodeEncode := by
  unfold Obligations.DecodeEncode
  intro cl w i hdec
  obtain ⟨hrow, hwf⟩ := decode_eq_ok.mp hdec
  exact ⟨(encode_of_decodeOp hrow).trans (congrArg some (frame_parts w)), hwf⟩

/-! ### Words written out (O6) -/

/-- Settles O6: by evaluation of the decoder at each word. -/
theorem decodedWords : Obligations.DecodedWords := by
  unfold Obligations.DecodedWords
  refine ⟨rfl, rfl, rfl, rfl, rfl, rfl, rfl, fun cl => ?_⟩
  cases cl <;> rfl

/-! ### Conditions (O9) -/

/-- Settles O9: by the comparisons of bit vectors, and by the last check of each word's legality. -/
theorem conditions : Obligations.Conditions := by
  unfold Obligations.Conditions
  refine ⟨fun a b => ?_, fun cl h f hwf => ?_, fun cl h f hwf => ?_, fun cl h f hwf => ?_⟩
  · simp [Machine.condHolds, BitVec.slt_eq_decide, BitVec.ult_eq_decide]
  all_goals exact of_decide_eq_true (Bool.and_eq_true_iff.mp hwf).2

end Sys2Proof.Codec
end

section
/-! The PC after a word (O11), and the words that redirect or leave the handler (O16, O29). -/

namespace Sys2Proof.Branches

open Sys2Proof.Machine Sys2Proof.Safety Sys2Proof.Effects

/-! ### The next PC (R87) -/

section Advance
variable {x : ClusterState}

/-- A running loop whose end address is the PC of its cluster. -/
def EndsHere (x : ClusterState) (l : LoopState) : Prop := l.count ≠ 0 ∧ l.stop = x.pc

theorem advance_of_inner_back (h1 : EndsHere x x.lc1) (hn : x.lc1.count ≠ 1) :
    x.advance = { x with pc := x.lc1.start, lc1 := { x.lc1 with count := x.lc1.count - 1 } } := by
  grind [ClusterState.advance, EndsHere]

/-- An inner loop that runs out leaves the outer one to decide, with its own count at 0. -/
theorem advance_of_inner_out (h1 : EndsHere x x.lc1) (hn : x.lc1.count = 1) :
    x.advance = ClusterState.advance { x with lc1 := { x.lc1 with count := 0 } } := by
  grind [ClusterState.advance, EndsHere]

theorem advance_of_outer_back (h1 : ¬EndsHere x x.lc1) (h0 : EndsHere x x.lc0) (hn : x.lc0.count ≠ 1) :
    x.advance = { x with pc := x.lc0.start, lc0 := { x.lc0 with count := x.lc0.count - 1 } } := by
  grind [ClusterState.advance, EndsHere]

theorem advance_of_outer_out (h1 : ¬EndsHere x x.lc1) (h0 : EndsHere x x.lc0) (hn : x.lc0.count = 1) :
    x.advance = { x with pc := x.pc + 8, lc0 := { x.lc0 with count := 0 } } := by
  grind [ClusterState.advance, EndsHere]

theorem advance_of_no_end (h1 : ¬EndsHere x x.lc1) (h0 : ¬EndsHere x x.lc0) : x.advance = { x with pc := x.pc + 8 } := by
  grind [ClusterState.advance, EndsHere]

theorem not_endsHere_of_count_zero {l : LoopState} (h : l.count = 0) : ¬EndsHere x l := fun he => he.1 h
end Advance

theorem commit_some_cl (c : Ctx) (cl : Cluster) (a : Word) : (c.commit cl (some a)).cl cl = { c.cl cl with pc := a } :=
  Ctx.cl_setCl_self c cl _

theorem commit_none_cl (c : Ctx) (cl : Cluster) : (c.commit cl none).cl cl = (c.cl cl).advance :=
  Ctx.cl_setCl_self c cl _

theorem commit_cl_ne (c : Ctx) (cl : Cluster) (a : Option Word) (other : Cluster) (h : other ≠ cl) :
    (c.commit cl a).cl other = c.cl other :=
  Ctx.cl_setCl_ne c cl other _ h

/-- Settles O11: the inner loop decides first; one that runs out leaves a state in which it does not end, for the outer one. -/
theorem nextPc : Obligations.NextPc := by
  unfold Obligations.NextPc
  refine ⟨commit_some_cl, fun c cl => ?_, commit_cl_ne⟩
  simp only [commit_none_cl]
  refine ⟨advance_of_no_end, advance_of_inner_back, fun h1 hn h0 => ?_, advance_of_outer_back, advance_of_outer_out,
    fun h1 hn h0 hm => ?_, fun h1 hn h0 hm => ?_⟩
  · exact (advance_of_inner_out h1 hn).trans (advance_of_no_end (not_endsHere_of_count_zero rfl) h0)
  · exact (advance_of_inner_out h1 hn).trans (advance_of_outer_back (not_endsHere_of_count_zero rfl) h0 hm)
  · exact (advance_of_inner_out h1 hn).trans (advance_of_outer_out (not_endsHere_of_count_zero rfl) h0 hm)

/-! ### The state in which a word takes effect, as a body reads it -/

section Issuing
variable {s : State} {c : Ctx} {h : Hdr} {u : Uses}

@[simp] theorem pcOf_issuing : (issuing s c h u).pcOf = pcIn s c := by simp [State.pcOf, pcIn]

@[simp] theorem returns_issuing : (issuing s c h u).returns = (c.cl s.focus.2).ret := by simp [State.returns]

@[simp] theorem handling_issuing : (issuing s c h u).handling = c.inHandler := by simp [State.handling, Ctx.inHandler]

@[simp] theorem deliver_focus (t : State) (d1 d2 : BitVec 6) (v : Word) (lat : Nat) : (t.deliver d1 d2 v lat).focus = t.focus := by
  unfold State.deliver State.deliver2
  split
  · rfl
  · split <;> rfl

theorem modCl_eq_onCl {t : State} (ht : t.focus = s.focus) (f : ClusterState → ClusterState) : t.modCl f = onCl s f t := by
  simp [State.modCl, onCl, onCtx, ht]

/-- A change of the cluster in focus may read the PC and the return stack in the context before the word. -/
theorem modCl_issuing {f g : ClusterState → ClusterState}
    (hfg : ∀ x, x.pc = pcIn s c → x.ret = (c.cl s.focus.2).ret → f x = g x) :
    (issuing s c h u).modCl f = onCl s g (issuing s c h u) := by
  rw [modCl_eq_onCl (issuing_focus s c h u), onCl, onCl, onCtx, onCtx, State.modCtx_of_ctx? _ _ _ _ (issuing_ctx? s c h u),
    State.modCtx_of_ctx? _ _ _ _ (issuing_ctx? s c h u)]
  rw [hfg _ (by rw [Ctx.cl_issueOn]; rfl) (by rw [Ctx.cl_issueOn])]

/-- A loop word with count 0 and its end ahead skips the body (R86). -/
theorem loopBody_zero {lc : BitVec 1} {off : BitVec 24} (hoff : 0 < off.toInt) :
    loopBody lc 0 off (issuing s c h u) =
      .jump (onCl s (fun x => x.setLoop lc ⟨0, pcIn s c + 8, hop s c off⟩) (issuing s c h u)) (hop s c off + 8) := by
  rw [loopBody, if_pos hoff, if_pos rfl, pcOf_issuing,
    modCl_issuing (g := fun x => x.setLoop lc ⟨0, pcIn s c + 8, hop s c off⟩) fun x hpc _ => by rw [hpc]; rfl]
  rfl

/-- A word that issues, and whose body redirects, goes to the target (R85). -/
theorem exec_of_jump {i : Instr} {body : Word → Word → List Word → State → Body} {t : State} {a : Word}
    (hexec : exec i s = word i h u body s) (p : Issues s c i h u)
    (hbody : body (c.value s.focus.2 u.sa) (c.value s.focus.2 u.sb) (c.dataOf u.data) (issuing s c h u) = .jump t a) :
    exec i s = .next (redirected s t a) := by
  rw [hexec, word_of_issues s c i h u body p, hbody]
  rfl

/-- Likewise where the body ends the handler (R98). -/
theorem exec_of_finish {i : Instr} {body : Word → Word → List Word → State → Body} {t : State}
    (hexec : exec i s = word i h u body s) (p : Issues s c i h u)
    (hbody : body (c.value s.focus.2 u.sa) (c.value s.focus.2 u.sb) (c.dataOf u.data) (issuing s c h u) = .finish t) :
    exec i s = .next (t.modCtx s.focus.1 fun c => { c with verdict := .trapped }) := by
  rw [hexec, word_of_issues s c i h u body p, hbody]
  rfl
end Issuing

/-- Settles O16: by the words of `branchWord`, each body a jump to the target of its row. -/
theorem branchWords : Obligations.BranchWords := by
  unfold Obligations.BranchWords
  intro i s c d a hrow p
  cases i
  case br h f =>
    obtain ⟨rfl, rfl⟩ := Prod.mk.inj (Option.some.inj hrow)
    exact exec_of_jump rfl p (by rw [pcOf_issuing]; rfl)
  case jal h f =>
    obtain ⟨rfl, rfl⟩ := Prod.mk.inj (Option.some.inj hrow)
    exact exec_of_jump rfl p (by rw [pcOf_issuing, modCl_eq_onCl (deliver_focus _ _ _ _ _)]; rfl)
  case jr h f =>
    simp only [branchWord, Option.ite_none_right_eq_some] at hrow
    obtain ⟨hmul, hrow⟩ := hrow
    obtain ⟨rfl, rfl⟩ := Prod.mk.inj (Option.some.inj hrow)
    have hbits : bits (srcA s c .ib f.sa + srcB s c .ib f.sb) 0 3 = 0 := by simpa [bits] using hmul
    exact exec_of_jump rfl p (if_pos hbits)
  case ret h =>
    simp only [branchWord] at hrow
    split at hrow
    next => cases hrow
    next target rest hret =>
      obtain ⟨rfl, rfl⟩ := Prod.mk.inj (Option.some.inj hrow)
      refine exec_of_jump rfl p ?_
      rw [returns_issuing, hret, modCl_issuing (g := fun x => { x with ret := rest }) fun x _ hx => by rw [hx, hret]; rfl]
  case loop h f =>
    simp only [branchWord, Option.ite_none_right_eq_some] at hrow
    obtain ⟨⟨hoff, hcount⟩, hrow⟩ := hrow
    obtain ⟨rfl, rfl⟩ := Prod.mk.inj (Option.some.inj hrow)
    have hzero : (srcA s c .ib f.sa).setWidth 32 = 0 := by simpa [← BitVec.toNat_inj] using hcount
    exact exec_of_jump rfl p ((congrArg (loopBody f.lc · f.off _) hzero).trans (loopBody_zero hoff))
  case loopi h f =>
    simp only [branchWord, Option.ite_none_right_eq_some] at hrow
    obtain ⟨⟨hoff, hcount⟩, hrow⟩ := hrow
    obtain ⟨rfl, rfl⟩ := Prod.mk.inj (Option.some.inj hrow)
    have hzero : f.cnt.setWidth 32 = 0 := by rw [hcount]; rfl
    exact exec_of_jump rfl p ((congrArg (loopBody f.lc · f.off _) hzero).trans (loopBody_zero hoff))
  case lend h f =>
    obtain ⟨rfl, rfl⟩ := Prod.mk.inj (Option.some.inj hrow)
    exact exec_of_jump rfl p (by rw [pcOf_issuing, modCl_eq_onCl (issuing_focus s c _ _)]; rfl)
  all_goals cases hrow

/-- Settles O29: in a handler the body of `eret` ends it. -/
theorem handlerReturn : Obligations.HandlerReturn := by
  unfold Obligations.HandlerReturn
  intro h s c p hin
  refine exec_of_finish rfl p ?_
  rw [insideHandler, handling_issuing, if_pos hin, issuing_focus]

end Sys2Proof.Branches
end

section
/-! The common words that deliver values, write predicates, count queues and direct their cluster (O14, O15, O17). -/

namespace Sys2Proof.Common

open Sys2Proof.Machine Sys2Proof.Safety Sys2Proof.Effects Sys2Proof.Branches

/-! ### What the body of an issuing word comes to -/

section Bodies
variable {s : State} {c : Ctx} {i : Instr} {h : Hdr} {u : Uses} {body : Word → Word → List Word → State → Body}

/-- A word that issues, and whose body goes on, retires (R87); a word that reaches memory finds no acquire outstanding (R237). -/
theorem exec_of_ok {t : State} (hexec : exec i s = word i h u body s) (p : Issues s c i h u) (hclear : Clear c u)
    (hbody : body (c.value s.focus.2 u.sa) (c.value s.focus.2 u.sb) (c.dataOf u.data) (issuing s c h u) = .ok t) :
    exec i s = .next (retired s t) := by
  have hheld : (u.mem && c.acquiring) = false := by
    rcases hmem : u.mem
    · rfl
    · exact hclear hmem
  rw [hexec, word_of_issues s c i h u body p, hbody]
  simp [State.conclude, hheld, retired]

/-- A word that issues, and whose body traps, takes that trap and has no other effect (R33). -/
theorem exec_of_trap {x : TrapInfo} (hexec : exec i s = word i h u body s) (p : Issues s c i h u)
    (hbody : body (c.value s.focus.2 u.sa) (c.value s.focus.2 u.sb) (c.dataOf u.data) (issuing s c h u) = .trap x) :
    exec i s = .next (s.takeTrap s.focus.1 x) := by
  rw [hexec, word_of_issues s c i h u body p, hbody]
  rfl

/-- A word that reaches no memory is held back by no acquire. -/
theorem clear_of_no_mem (hmem : u.mem = false) : Clear c u := fun h => absurd h (by simp [hmem])
end Bodies

/-! ### Words that deliver a value (R77 to R84, R95) -/

section Values
variable {s : State} {c : Ctx} {i : Instr} {h : Hdr} {d : Doing}

theorem bits_zero (a : Word) (n : Nat) : bits a 0 n = a.toNat % 2 ^ n := by simp [bits]

theorem amount_eq_mod (a : Word) : amount a = a.toNat % 64 := bits_zero a 6

theorem toWord_leadingZeros (a : Word) : toWord (leadingZeros a) = if a = 0 then 64 else BitVec.ofNat 64 (63 - Nat.log2 a.toNat) := by
  unfold leadingZeros
  split <;> rfl

theorem toWord_div (a b : Word) : toWord (a.toNat / b.toNat) = a / b :=
  BitVec.eq_of_toNat_eq (by simp [toWord, Nat.mod_eq_of_lt (lt_of_le_of_lt (Nat.div_le_self _ _) a.isLt)])

theorem toWord_mod (a b : Word) : toWord (a.toNat % b.toNat) = a % b :=
  BitVec.eq_of_toNat_eq (by simp [toWord, Nat.mod_eq_of_lt (lt_of_le_of_lt (Nat.mod_le _ _) a.isLt)])

theorem extField_eq (a : Word) (pos len : Nat) (fn : BitVec 4) :
    extField a pos len (fn == 1) = if fn = 1 then signExtend (a.toNat / 2 ^ pos) len else toWord (a.toNat / 2 ^ pos % 2 ^ len) :=
  if_congr (beq_iff_eq ..) rfl rfl

theorem predWord_of_present (hc : s.ctx? s.focus.1 = some c) : s.predWord = ((c.cl s.focus.2).preds ||| 1).setWidth 64 := by
  simp only [State.predWord, hc]
  exact BitVec.eq_of_toNat_eq (by simp [toWord])

/-- The words of `valueWord`: the body delivers the value of its row. -/
theorem exec_of_valueWord (hrow : valueWord s c i = some d) (p : Issues s c i d.h d.u) :
    exec i s = .next (retired s (d.after (issuing s c d.h d.u))) := by
  cases i
  case add | sub | andW | orW | xorW | andn | cmp | mul | mulh | mulhu | addi | andi | ori | xori | shli | shri |
      srai | roti | cmpi | muli | mov | popc | li =>
    obtain rfl := Option.some.inj hrow
    exact exec_of_ok rfl p (clear_of_no_mem rfl) rfl
  case shl | shr | sra | rot =>
    obtain rfl := Option.some.inj hrow
    exact exec_of_ok rfl p (clear_of_no_mem rfl) (by simp only [amount_eq_mod]; rfl)
  case lih h f =>
    obtain rfl := Option.some.inj hrow
    exact exec_of_ok rfl p (clear_of_no_mem rfl) (by simp only [bits_zero]; rfl)
  case ext h f =>
    obtain rfl := Option.some.inj hrow
    exact exec_of_ok rfl p (clear_of_no_mem rfl) (by simp only [extField_eq]; rfl)
  case clz h f =>
    obtain rfl := Option.some.inj hrow
    exact exec_of_ok rfl p (clear_of_no_mem rfl) (by simp only [toWord_leadingZeros]; rfl)
  case sel h f =>
    obtain rfl := Option.some.inj hrow
    exact exec_of_ok rfl p (clear_of_no_mem rfl) (by simp only [p.present]; rfl)
  case prd h f =>
    obtain rfl := Option.some.inj hrow
    exact exec_of_ok rfl p (clear_of_no_mem rfl) (by simp only [predWord_of_present p.present])
  all_goals cases hrow

/-- The words of `divideWord`: the divisor is not 0. -/
theorem exec_of_divideWord (hrow : divideWord s c i = some d) (p : Issues s c i d.h d.u) :
    exec i s = .next (retired s (d.after (issuing s c d.h d.u))) := by
  cases i
  case div h f | rem h f =>
    obtain ⟨hzero, hrow⟩ := Option.ite_none_left_eq_some.mp hrow
    obtain rfl := Option.some.inj hrow
    exact exec_of_ok rfl p (clear_of_no_mem rfl) (if_neg hzero)
  case divu h f | remu h f =>
    obtain ⟨hzero, hrow⟩ := Option.ite_none_left_eq_some.mp hrow
    obtain rfl := Option.some.inj hrow
    exact exec_of_ok rfl p (clear_of_no_mem rfl) ((if_neg hzero).trans (by simp only [toWord_div, toWord_mod]; rfl))
  all_goals cases hrow
end Values

/-- Settles O14: the body of each word delivers the value of its row. -/
theorem valueWords : Obligations.ValueWords := by
  unfold Obligations.ValueWords
  rintro i s c d (hrow | hrow) p
  · exact exec_of_valueWord hrow p
  · exact exec_of_divideWord hrow p

/-! ### Words that write predicates and count queues (R83, R84, R88, R244) -/

section Predicates
variable {s : State} {c : Ctx} {i : Instr} {h : Hdr} {d : Doing}

theorem readPred_of_present (hc : s.ctx? s.focus.1 = some c) (j : BitVec 3) (n : BitVec 1) :
    (s.readPred j.toNat != (n == 1)) = predOperand s c j n := by
  simp only [State.readPred, hc, predOperand]

/-- The words of `predicateWord`. -/
theorem exec_of_predicateWord (hrow : predicateWord s c i = some d) (p : Issues s c i d.h d.u) :
    exec i s = .next (retired s (d.after (issuing s c d.h d.u))) := by
  cases i
  case pand | por | pxor =>
    obtain rfl := Option.some.inj hrow
    exact exec_of_ok rfl p (clear_of_no_mem rfl) (by simp only [readPred_of_present p.present])
  case pwr h f =>
    obtain rfl := Option.some.inj hrow
    exact exec_of_ok rfl p (clear_of_no_mem rfl) rfl
  all_goals cases hrow

/-- A word that pops nothing leaves the queues as they were. -/
theorem issueOn_queues_of_no_pops {k : Cluster} {u : Uses} {q : Bool} (hpops : u.pops k = []) :
    (c.issueOn k u q).queues = c.queues ∧ (c.issueOn k u q).freed = c.freed := by
  unfold Ctx.issueOn
  simp only [hpops, List.foldl_nil]
  split <;> exact ⟨rfl, rfl⟩

theorem coreTime_issueOn {k : Cluster} {u : Uses} {q : Bool} : (c.issueOn k u q).coreTime = c.coreTime :=
  Ctx.issueOn_keeps Ctx.coreTime (fun _ _ => rfl) (fun _ _ _ => rfl) (fun _ _ => rfl) (fun _ _ => rfl) c k u q

/-- What `qcnt` counts does not change by its own issue. -/
theorem queueCount_issueOn {k : Cluster} {u : Uses} {q : Bool} {qs : BitVec 4} (hpops : u.pops k = []) :
    (c.issueOn k u q).queueCount k qs = c.queueCount k qs := by
  obtain ⟨hqueues, hfreed⟩ := issueOn_queues_of_no_pops (c := c) (q := q) hpops
  have hseen : (c.issueOn k u q).seen = c.seen := by
    funext e
    rw [Ctx.seen, coreTime_issueOn, Ctx.seen]
  simp only [Ctx.queueCount, Ctx.space, Ctx.visible, Ctx.queue, hqueues, hfreed, hseen]

/-- The words of `countWord`: the queues are those before the word, which pops none. -/
theorem exec_of_countWord (hrow : countWord s c i = some d) (p : Issues s c i d.h d.u) :
    exec i s = .next (retired s (d.after (issuing s c d.h d.u))) := by
  cases i
  case qcnt h f =>
    obtain rfl := Option.some.inj hrow
    refine exec_of_ok rfl p (clear_of_no_mem rfl) ?_
    have hkept := queueCount_issueOn (c := c) (k := s.focus.2) (u := { d1 := f.d1, d2 := f.d2 }) (qs := f.qs)
      (q := Pends c s.focus.2 h { d1 := f.d1, d2 := f.d2 }) rfl
    simp only [issuing_focus, issuing_ctx?, hkept]
    rfl
  case mqcnt h f =>
    obtain rfl := Option.some.inj hrow
    refine exec_of_ok rfl p (clear_of_no_mem rfl) ?_
    simp only [withCtx, issuing_focus, issuing_ctx?, State.moverCmds, issuing_cmds, Ctx.issueOn_who]
    rfl
  all_goals cases hrow
end Predicates

/-- Settles O15: by the words of the two tables. -/
theorem predicateAndCountWords : Obligations.PredicateAndCountWords := by
  unfold Obligations.PredicateAndCountWords
  rintro i s c d (hrow | hrow) p
  · exact exec_of_predicateWord hrow p
  · exact exec_of_countWord hrow p

/-! ### Words that direct their cluster (R86, R89, R90, R96, R101, R102) -/

section Control
variable {s : State} {c : Ctx} {i : Instr} {h : Hdr} {u : Uses} {d : Doing}

/-- A loop word with a count and its end ahead sets its counter (R86). -/
theorem loopBody_pos {lc : BitVec 1} {off : BitVec 24} {n : BitVec 32} (hoff : 0 < off.toInt) (hn : n ≠ 0) :
    loopBody lc n off (issuing s c h u) = .ok (onCl s (fun x => x.setLoop lc ⟨n, pcIn s c + 8, hop s c off⟩) (issuing s c h u)) := by
  rw [loopBody, if_pos hoff, if_neg hn, pcOf_issuing,
    modCl_issuing (g := fun x => x.setLoop lc ⟨n, pcIn s c + 8, hop s c off⟩) fun x hpc _ => by rw [hpc]; rfl]

/-- Outside a handler the words that a handler may not issue go on (R97). -/
theorem outsideHandler_issuing (hout : c.inHandler = false) (b : Body) : outsideHandler (issuing s c h u) b = b := by
  rw [outsideHandler, handling_issuing, hout]
  rfl

theorem modCl_issuing_self (f : ClusterState → ClusterState) : (issuing s c h u).modCl f = onCl s f (issuing s c h u) :=
  modCl_eq_onCl (issuing_focus s c h u) f

/-- A `fork` names none but V, M and X (R96). -/
theorem ne_c_of_mem_forkNames {f : FmtFK} {cl : Cluster} (hcl : cl ∈ forkNames f) : cl ≠ .c := by
  rintro rfl
  simp [forkNames] at hcl

/-- Whether a `fork` waits is as it was before its issue, which changes no cluster that it names and no last access (R21, R23). -/
theorem forkReady_issueOn {f : FmtFK} {q : Bool} :
    (((forkNames f).all fun cl => decide (((c.issueOn .c {} q).cl cl).run = .idle)) &&
        decide (((c.issueOn .c {} q).cl .c).lastAccess ≤ (c.issueOn .c {} q).time)) =
      (((forkNames f).all fun cl => (c.cl cl).run == .idle) && decide ((c.cl .c).lastAccess ≤ c.time)) := by
  have hnames : ((forkNames f).all fun cl => decide (((c.issueOn .c {} q).cl cl).run = .idle)) =
      (forkNames f).all fun cl => (c.cl cl).run == .idle := by
    rw [Bool.eq_iff_iff, List.all_eq_true, List.all_eq_true]
    refine forall₂_congr fun cl hcl => ?_
    rw [Ctx.cl_issueOn_ne _ _ _ _ _ (ne_c_of_mem_forkNames hcl), decide_eq_true_iff, beq_iff_eq]
  rw [hnames, Ctx.cl_issueOn, Ctx.issueOn_time]

/-- The words of `controlWord`. -/
theorem exec_of_controlWord (hrow : controlWord s c i = some d) (p : Issues s c i d.h d.u) :
    exec i s = .next (retired s (d.after (issuing s c d.h d.u))) := by
  cases i
  case nop h =>
    obtain rfl := Option.some.inj hrow
    exact exec_of_ok rfl p (clear_of_no_mem rfl) rfl
  case loop h f =>
    obtain ⟨⟨hoff, hcount⟩, hrow⟩ := Option.ite_none_right_eq_some.mp hrow
    obtain rfl := Option.some.inj hrow
    exact exec_of_ok rfl p (clear_of_no_mem rfl) (loopBody_pos hoff hcount)
  case loopi h f =>
    obtain ⟨⟨hoff, hcount⟩, hrow⟩ := Option.ite_none_right_eq_some.mp hrow
    obtain rfl := Option.some.inj hrow
    have hwide : f.cnt.setWidth 32 ≠ 0 := fun hzero => hcount (by bv_omega)
    exact exec_of_ok rfl p (clear_of_no_mem rfl) (loopBody_pos hoff hwide)
  case join h | halt h =>
    obtain ⟨hout, hrow⟩ := Option.ite_none_left_eq_some.mp hrow
    obtain rfl := Option.some.inj hrow
    exact exec_of_ok rfl p (clear_of_no_mem rfl) (by
      rw [outsideHandler_issuing (eq_false_of_ne_true hout), modCl_issuing_self])
  case trap h f =>
    obtain ⟨hout, hrow⟩ := Option.ite_none_left_eq_some.mp hrow
    obtain rfl := Option.some.inj hrow
    exact exec_of_ok rfl p (clear_of_no_mem rfl) (outsideHandler_issuing (eq_false_of_ne_true hout) _)
  case exit h =>
    obtain ⟨hout, hrow⟩ := Option.ite_none_left_eq_some.mp hrow
    obtain rfl := Option.some.inj hrow
    exact exec_of_ok rfl p (clear_of_no_mem rfl) (outsideHandler_issuing (eq_false_of_ne_true hout) _)
  case yield h =>
    obtain ⟨hout, hrow⟩ := Option.ite_none_left_eq_some.mp hrow
    obtain rfl := Option.some.inj hrow
    exact exec_of_ok rfl p (clear_of_no_mem rfl) (outsideHandler_issuing (eq_false_of_ne_true hout) _)
  case fork h f =>
    obtain ⟨hno, hrow⟩ := Option.ite_none_left_eq_some.mp hrow
    obtain rfl := Option.some.inj hrow
    simp only [Bool.or_eq_true, not_or, Bool.not_eq_true, Bool.not_eq_false'] at hno
    obtain ⟨⟨hout, hidle⟩, hdone⟩ := hno
    have hfocus : s.focus.2 = .c := by
      have hlegal := p.legal
      simp only [wellFormed, Bool.and_eq_true, beq_iff_eq] at hlegal
      exact hlegal.1.1.1.1.1
    refine exec_of_ok rfl p (clear_of_no_mem rfl) ?_
    rw [outsideHandler_issuing hout]
    simp only [issuing_focus, issuing_ctx?, hfocus, forkReady_issueOn, hidle, hdone, Bool.and_self, if_true, onCtx, State.modCtx]
  all_goals cases hrow
end Control

/-- Settles O17: by the words of `controlWord`. -/
theorem controlWords : Obligations.ControlWords := by
  unfold Obligations.ControlWords
  exact fun i s c d hrow p => exec_of_controlWord hrow p

end Sys2Proof.Common
end

section
/-! Events that come about: where a table of Effects lists the outcome of an event, `exec` answers it. The life of contexts (O39) and the
register writes (O43). -/

namespace Sys2Proof.Events

open Sys2Proof.Machine Sys2Proof.Safety Sys2Proof.Effects

@[simp] theorem onlyIf_eq_some {b : Bool} {t u : State} : onlyIf b t = some u ↔ b = true ∧ t = u := by
  cases b <;> simp [onlyIf]

/-! ### Contexts (R102, R171, R172, R337, R338, R340, R344, R345, R358) -/

section Contexts
variable {s t : State} {k : Nat}

theorem preemptionRequest_takes (h : contextEvent s (.preemptionRequest k) = some t) : exec (.preemptionRequest k) s = .next t := by
  refine congrArg Host.Outcome.next ?_
  obtain ⟨c, hc, h⟩ := Option.bind_eq_some_iff.mp h
  obtain ⟨hpre, rfl⟩ := onlyIf_eq_some.mp h
  simp only [hc]
  exact if_neg (by simpa using hpre)

/-- The save itself (R171, R224), or the flushes that its gates need (R238). -/
theorem contextSave_takes (h : contextEvent s (.contextSave k) = some t) : exec (.contextSave k) s = .next t := by
  refine congrArg Host.Outcome.next ?_
  obtain ⟨c, hc, h⟩ := Option.bind_eq_some_iff.mp h
  simp only [hc]
  split at h
  · next hready =>
    obtain rfl := Option.some.inj h
    rw [if_pos (by simpa using hready)]
    rcases hd : ((s.modCtx k fun c => { c.pendFault with holds := c.holds.filter fun h => !h.transfers }).spill c).ctx? k with _ | d
    · rfl
    · rfl
  · next hready =>
    obtain ⟨hhalted, rfl⟩ := onlyIf_eq_some.mp h
    rw [if_neg (by simpa using hready), if_pos hhalted]

theorem contextResume_takes (h : contextEvent s (.contextResume k) = some t) : exec (.contextResume k) s = .next t := by
  refine congrArg Host.Outcome.next ?_
  obtain ⟨c, hc, h⟩ := Option.bind_eq_some_iff.mp h
  obtain ⟨hready, rfl⟩ := onlyIf_eq_some.mp h
  simp only [hc]
  exact if_pos hready

theorem instanceStart_takes (h : contextEvent s (.instanceStart k) = some t) : exec (.instanceStart k) s = .next t := by
  refine congrArg Host.Outcome.next ?_
  obtain ⟨c, hc, h⟩ := Option.bind_eq_some_iff.mp h
  obtain ⟨hplaced, h⟩ := Option.ite_none_right_eq_some.mp h
  obtain ⟨g, hg, rfl⟩ := Option.map_eq_some_iff.mp h
  simp only [hc, hg]
  exact if_neg (not_not.mpr hplaced)

theorem instanceEnd_takes (h : contextEvent s (.instanceEnd k) = some t) : exec (.instanceEnd k) s = .next t := by
  refine congrArg Host.Outcome.next ?_
  obtain ⟨c, hc, h⟩ := Option.bind_eq_some_iff.mp h
  obtain ⟨hgone, rfl⟩ := onlyIf_eq_some.mp h
  simp only [hc]
  exact if_pos hgone

/-- A context that has ended starts the flushes of its release, then meets a refusal that is still to be taken, or is gone (R102). -/
theorem taskComplete_takes (h : contextEvent s (.taskComplete k) = some t) : exec (.taskComplete k) s = .next t := by
  refine congrArg Host.Outcome.next ?_
  obtain ⟨c, hc, h⟩ := Option.bind_eq_some_iff.mp h
  obtain ⟨⟨hending, hquiet⟩, h⟩ := Option.ite_none_right_eq_some.mp h
  simp only [hc]
  rw [if_neg (by simp [hending, hquiet])]
  split at h
  · next hgate =>
    obtain rfl := Option.some.inj h
    exact if_pos (by simp [hgate])
  · next hgate =>
    rw [if_neg (by simpa using hgate)]
    rcases hfault : c.exitFault with _ | ⟨i, d⟩ <;> simp only [hfault] at h ⊢ <;> exact Option.some.inj h

theorem schedulingStep_takes {die : Nat} (h : contextEvent s (.schedulingStep die) = some t) : exec (.schedulingStep die) s = .next t := by
  refine congrArg Host.Outcome.next ?_
  obtain ⟨hup, rfl⟩ := onlyIf_eq_some.mp h
  exact if_neg (by simpa using hup)

theorem gangResume_takes {n : Nat} (h : contextEvent s (.gangResume n) = some t) : exec (.gangResume n) s = .next t := by
  refine congrArg Host.Outcome.next ?_
  obtain ⟨g, hg, h⟩ := Option.bind_eq_some_iff.mp h
  obtain ⟨hfirst, rfl⟩ := onlyIf_eq_some.mp h
  rw [beq_iff_eq, Option.bind_eq_some_iff] at hfirst
  obtain ⟨c, hhead, hgang⟩ := hfirst
  obtain ⟨l, hl⟩ := List.head?_eq_some_iff.mp hhead
  simp only [hg, hl, hgang, if_true]

/-- The turn of a shared core goes on when it has lasted HSLICE, another core waits, and its contexts can be saved (R340). -/
theorem turnChange_takes {die p : Nat} (h : contextEvent s (.turnChange die p) = some t) : exec (.turnChange die p) s = .next t := by
  refine congrArg Host.Outcome.next ?_
  simp only [contextEvent, Option.ite_none_left_eq_some] at h
  obtain ⟨hall, h⟩ := h
  obtain ⟨l, hl, h⟩ := Option.bind_eq_some_iff.mp h
  obtain ⟨m, hm, h⟩ := Option.bind_eq_some_iff.mp h
  obtain ⟨hturn, rfl⟩ := onlyIf_eq_some.mp h
  obtain ⟨a, all, hsharers⟩ := List.exists_cons_of_ne_nil hall
  have hnow : ((s.sharers die p).head?.bind fun _ => s.turnOf die p) = some l := by simp [hsharers, hl]
  simp only [hnow, hm]
  exact if_neg (by simpa [and_assoc] using hturn)

theorem powerThrottle_takes {n cycles : Nat} (h : contextEvent s (.powerThrottle n cycles) = some t) :
    exec (.powerThrottle n cycles) s = .next t :=
  congrArg Host.Outcome.next (Option.some.inj h)
end Contexts

/-- Settles O39: by the events of `contextEvent`. -/
theorem contextEvents : Obligations.ContextEvents := by
  unfold Obligations.ContextEvents
  intro e s t h
  cases e
  case preemptionRequest => exact preemptionRequest_takes h
  case contextSave => exact contextSave_takes h
  case contextResume => exact contextResume_takes h
  case instanceStart => exact instanceStart_takes h
  case instanceEnd => exact instanceEnd_takes h
  case taskComplete => exact taskComplete_takes h
  case schedulingStep => exact schedulingStep_takes h
  case gangResume => exact gangResume_takes h
  case turnChange => exact turnChange_takes h
  case powerThrottle => exact powerThrottle_takes h
  all_goals cases h

/-! ### Register writes (R92, R120, R121, R159, R167, R331, R339, R359, R360, R375, R442, R456) -/

section Registers
variable {s t : State} {v : Word}

/-- A write under way of a context takes effect as `State.writeReg` gives it (R92): `f` need only tell that for a state in which the context is
what it was but for the write. -/
theorem takeWrite_of_writeOf {k crn : Nat} {f : Ctx → State → State} (h : writeOf s k crn v f = some t)
    (hf : ∀ c d u, s.ctx? k = some c → u.ctx? k = some d → d.who = c.who → f c u = u.writeReg k (BitVec.ofNat 12 crn) v) :
    s.takeWrite k (BitVec.ofNat 12 crn) v = t := by
  obtain ⟨c, hc, h⟩ := Option.bind_eq_some_iff.mp h
  unfold State.takeWrite
  dsimp only at h
  simp only [hc]
  split at h
  · next hstaged =>
    obtain rfl := Option.some.inj h
    rw [if_pos hstaged]
    exact (hf c { c with staged := c.staged.erase (.reg (BitVec.ofNat 12 crn) v) } _ hc (State.ctx?_setCtx_self ..) rfl).symm
  · next hstaged =>
    obtain ⟨hheld, rfl⟩ := onlyIf_eq_some.mp h
    rw [if_neg hstaged, if_pos hheld]
    exact (hf c { c with holds := c.holds.erase (.write (BitVec.ofNat 12 crn) v) } _ hc (State.ctx?_setCtx_self ..) rfl).symm

/-- Likewise a write of a die's or of the package's register, by the first context that has it under way. -/
theorem takeDieWrite_of_sharedWrite {die : Option Nat} {crn : Nat} {f : Ctx → State → State} (h : sharedWrite s die crn v f = some t)
    (hf : ∀ k c d u, u.ctx? k = some d → d.who = c.who → f c u = u.writeReg k (BitVec.ofNat 12 crn) v) :
    s.takeDieWrite die crn v = t := by
  obtain ⟨e, he, h⟩ := Option.bind_eq_some_iff.mp h
  have hwriter : s.writer die (BitVec.ofNat 12 crn) v = some e.1 := by
    rcases die with _ | d <;> exact congrArg (Option.map fun e => e.1) he
  simp only [State.takeDieWrite, hwriter]
  exact takeWrite_of_writeOf h fun c d u _ hu hwho => hf e.1 c d u hu hwho

/-! What `State.writeReg` comes to at a number of the registers that have an event of their own. -/

section Numbers
variable {u : State} {k : Nat} {d : Ctx}

theorem writeReg_xinv (hu : u.ctx? k = some d) : u.writeReg k 0x046 v = u.modCtx k fun c => { c with tlb := .empty } := by
  rw [State.modCtx_of_ctx? _ _ _ _ hu]
  simp only [State.writeReg, hu]
  rfl

theorem writeReg_esc (hu : u.ctx? k = some d) : u.writeReg k 0x043 v = u.escalate k := by
  simp only [State.writeReg, hu]
  rfl

theorem writeReg_atpool (hu : u.ctx? k = some d) : u.writeReg k 0x060 v = u.writeAtpool d.who.die v := by
  simp only [State.writeReg, hu]
  rfl

theorem writeReg_hslice (hu : u.ctx? k = some d) : u.writeReg k 0x073 v = u.writeHslice d.who.die v := by
  simp only [State.writeReg, hu]
  rfl

theorem writeReg_savepool (hu : u.ctx? k = some d) : u.writeReg k 0x074 v = u.writeSavepool d.who.die v := by
  simp only [State.writeReg, hu]
  rfl

theorem writeReg_fabNode (hu : u.ctx? k = some d) : u.writeReg k 0x0A0 v = u.writeFabNode v := by
  simp only [State.writeReg, hu]
  rfl

theorem writeReg_peerEnt (hu : u.ctx? k = some d) : u.writeReg k 0x0A3 v = u.writePeerEnt v := by
  simp only [State.writeReg, hu]
  rfl

theorem writeReg_replCtl (hu : u.ctx? k = some d) : u.writeReg k 0x0A4 v = u.writeReplCtl v := by
  simp only [State.writeReg, hu]
  rfl

theorem writeReg_drc {n : Nat} (hu : u.ctx? k = some d) (hn : n < 16) :
    u.writeReg k (BitVec.ofNat 12 (0x103 + 4 * n)) v = u.writeDrc d.who.die n v := by
  have hcrn : (BitVec.ofNat 12 (0x103 + 4 * n)).toNat = 0x103 + 4 * n := by simp; omega
  simp only [State.writeReg, hu, hcrn]
  grind

theorem writeReg_heddle {l : Nat} (hu : u.ctx? k = some d) (hl : l < 80) :
    u.writeReg k (BitVec.ofNat 12 (0x200 + l)) v = u.writeHeddle d.who.die l v := by
  have hcrn : (BitVec.ofNat 12 (0x200 + l)).toNat = 0x200 + l := by simp; omega
  simp only [State.writeReg, hu, hcrn]
  grind

theorem writeReg_lnkCtl {l : Nat} (hu : u.ctx? k = some d) (hl : l < 3) :
    u.writeReg k (BitVec.ofNat 12 (0x084 + l)) v = u.writeLnkCtl l v := by
  have hcrn : (BitVec.ofNat 12 (0x084 + l)).toNat = 0x084 + l := by simp; omega
  simp only [State.writeReg, hu, hcrn]
  grind
end Numbers

theorem xinvWrite_takes {k : Nat} (h : registerEvent s (.xinvWrite k v) = some t) : exec (.xinvWrite k v) s = .next t := by
  simp only [registerEvent] at h
  exact congrArg Host.Outcome.next (takeWrite_of_writeOf h fun _ _ _ _ hu _ => (writeReg_xinv hu).symm)

theorem escWrite_takes {k : Nat} (h : registerEvent s (.escWrite k v) = some t) : exec (.escWrite k v) s = .next t := by
  simp only [registerEvent] at h
  exact congrArg Host.Outcome.next (takeWrite_of_writeOf h fun _ _ _ _ hu _ => (writeReg_esc hu).symm)

theorem registerWrite_takes {k : Nat} {crn : BitVec 12} (h : registerEvent s (.registerWrite k crn v) = some t) :
    exec (.registerWrite k crn v) s = .next t := by
  simp only [registerEvent] at h
  have hcrn : BitVec.ofNat 12 crn.toNat = crn := by simp
  have hw := takeWrite_of_writeOf h fun _ _ _ _ _ _ => by rw [hcrn]
  rw [hcrn] at hw
  exact congrArg Host.Outcome.next hw

theorem decodeRegionEnable_takes {die n : Nat} (h : registerEvent s (.decodeRegionEnable die n v) = some t) :
    exec (.decodeRegionEnable die n v) s = .next t := by
  obtain ⟨hok, h⟩ := Option.ite_none_right_eq_some.mp h
  refine congrArg Host.Outcome.next ((if_pos hok).trans ?_)
  exact takeDieWrite_of_sharedWrite h fun _ _ _ _ hu hwho => by rw [writeReg_drc hu hok.1, hwho]

theorem decodeRegionDisable_takes {die n : Nat} (h : registerEvent s (.decodeRegionDisable die n v) = some t) :
    exec (.decodeRegionDisable die n v) s = .next t := by
  obtain ⟨hok, h⟩ := Option.ite_none_right_eq_some.mp h
  refine congrArg Host.Outcome.next ((if_pos hok).trans ?_)
  exact takeDieWrite_of_sharedWrite h fun _ _ _ _ hu hwho => by rw [writeReg_drc hu hok.1, hwho]

theorem decodeFill_takes {die n vec seg : Nat} (h : registerEvent s (.decodeFill die n vec seg) = some t) :
    exec (.decodeFill die n vec seg) s = .next t := by
  obtain ⟨hok, rfl⟩ := onlyIf_eq_some.mp h
  exact congrArg Host.Outcome.next (if_pos hok)

theorem heddleWrite_takes {die l : Nat} (h : registerEvent s (.heddleWrite die l v) = some t) :
    exec (.heddleWrite die l v) s = .next t := by
  obtain ⟨hl, h⟩ := Option.ite_none_right_eq_some.mp h
  refine congrArg Host.Outcome.next ((if_pos hl).trans ?_)
  exact takeDieWrite_of_sharedWrite h fun _ _ _ _ hu hwho => by rw [writeReg_heddle hu hl, hwho]

theorem lnkCtlWrite_takes {l : Nat} (h : registerEvent s (.lnkCtlWrite l v) = some t) : exec (.lnkCtlWrite l v) s = .next t := by
  obtain ⟨hl, h⟩ := Option.ite_none_right_eq_some.mp h
  refine congrArg Host.Outcome.next ((if_pos hl).trans ?_)
  exact takeDieWrite_of_sharedWrite h fun _ _ _ _ hu _ => (writeReg_lnkCtl hu hl).symm

theorem savepoolWrite_takes {die : Nat} (h : registerEvent s (.savepoolWrite die v) = some t) : exec (.savepoolWrite die v) s = .next t :=
  congrArg Host.Outcome.next (takeDieWrite_of_sharedWrite h fun _ _ _ _ hu hwho => by rw [← hwho]; exact (writeReg_savepool hu).symm)

theorem hsliceWrite_takes {die : Nat} (h : registerEvent s (.hsliceWrite die v) = some t) : exec (.hsliceWrite die v) s = .next t :=
  congrArg Host.Outcome.next (takeDieWrite_of_sharedWrite h fun _ _ _ _ hu hwho => by rw [← hwho]; exact (writeReg_hslice hu).symm)

theorem atpoolWrite_takes {die : Nat} (h : registerEvent s (.atpoolWrite die v) = some t) : exec (.atpoolWrite die v) s = .next t :=
  congrArg Host.Outcome.next (takeDieWrite_of_sharedWrite h fun _ _ _ _ hu hwho => by rw [← hwho]; exact (writeReg_atpool hu).symm)

theorem fabNodeWrite_takes (h : registerEvent s (.fabNodeWrite v) = some t) : exec (.fabNodeWrite v) s = .next t :=
  congrArg Host.Outcome.next (takeDieWrite_of_sharedWrite h fun _ _ _ _ hu _ => (writeReg_fabNode hu).symm)

theorem peerEntWrite_takes (h : registerEvent s (.peerEntWrite v) = some t) : exec (.peerEntWrite v) s = .next t :=
  congrArg Host.Outcome.next (takeDieWrite_of_sharedWrite h fun _ _ _ _ hu _ => (writeReg_peerEnt hu).symm)

theorem replCtlWrite_takes (h : registerEvent s (.replCtlWrite v) = some t) : exec (.replCtlWrite v) s = .next t :=
  congrArg Host.Outcome.next (takeDieWrite_of_sharedWrite h fun _ _ _ _ hu _ => (writeReg_replCtl hu).symm)
end Registers

/-- Settles O43: by the events of `registerEvent`. -/
theorem registerEvents : Obligations.RegisterEvents := by
  unfold Obligations.RegisterEvents
  intro e s t h
  cases e
  case xinvWrite => exact xinvWrite_takes h
  case escWrite => exact escWrite_takes h
  case decodeRegionEnable => exact decodeRegionEnable_takes h
  case decodeRegionDisable => exact decodeRegionDisable_takes h
  case decodeFill => exact decodeFill_takes h
  case heddleWrite => exact heddleWrite_takes h
  case savepoolWrite => exact savepoolWrite_takes h
  case hsliceWrite => exact hsliceWrite_takes h
  case atpoolWrite => exact atpoolWrite_takes h
  case lnkCtlWrite => exact lnkCtlWrite_takes h
  case fabNodeWrite => exact fabNodeWrite_takes h
  case peerEntWrite => exact peerEntWrite_takes h
  case replCtlWrite => exact replCtlWrite_takes h
  case registerWrite => exact registerWrite_takes h
  all_goals cases h

end Sys2Proof.Events
end

section
/-! A cause that a level ignores (O58). -/

namespace Sys2Proof.Ignored

open Sys2Proof.Machine Sys2Proof.Safety Sys2Proof.Effects

section Ignoring
variable {s : State} {k : Nat} {c : Ctx} {i : TrapInfo}

/-- DIGEST_MISMATCH is non-fatal only where software raises it (R355). -/
theorem digestMismatch_of_ignores (hign : c.ignores i = true) : (i.cause == causeDigestMismatch && !i.sw) = false := by
  by_contra hmis
  rw [Bool.not_eq_false, Bool.and_eq_true, beq_iff_eq, Bool.not_eq_true'] at hmis
  obtain ⟨hcause, hsw⟩ := hmis
  simp [Ctx.ignores, TrapInfo.nonFatal, hcause, hsw, causeDigestMismatch, causeLinkDegraded, causeZoneDrift, causeTicketGap,
    causeNonfiniteKv, causeKvUe] at hign

/-- The state of a context whose ignored cause has resumed it. -/
def ignoredState (s : State) (k : Nat) (c : Ctx) (i : TrapInfo) : State :=
  (((s.setCtx k (c.saveTrap i)).faultRegs c.core i).setCtx k (c.saveTrap i).resume).report c.who.die 6 i.cause
    (containLoc c.who.num (if c.who.pol.toNat % 4 == 0 then 0 else 1) 0)

theorem ctx?_faultRegs (n j : Nat) : (s.faultRegs n i).ctx? j = s.ctx? j := by
  unfold State.faultRegs
  split <;> rfl

theorem get_faultRegs (n j o : Nat) : ((s.faultRegs n i).core j).get o = (s.core j).get o := by
  unfold State.faultRegs
  split
  · by_cases hj : j = n
    · subst hj
      rw [State.modCore, State.core_setCore_self]
      rfl
    · rw [State.modCore, State.core_setCore_ne _ _ _ _ hj]
  · rfl

/-- Step 2 of R166 for a cause that a level ignores. -/
theorem takeTrap_of_ignores (hc : s.ctx? k = some c) (hout : c.inHandler = false) (hign : c.ignores i = true) :
    s.takeTrap k i = ignoredState s k c i := by
  have hthere : ((s.setCtx k (c.saveTrap i)).faultRegs c.core i).ctx? k = some (c.saveTrap i) := by
    rw [ctx?_faultRegs, State.ctx?_setCtx_self]
  simp only [State.takeTrap, hc, hout, digestMismatch_of_ignores hign, hign, State.modCtx_of_ctx? _ _ _ _ hthere, ignoredState]
  rfl

theorem ignoredState_ctx? (j : Nat) (hj : j ≠ k) : (ignoredState s k c i).ctx? j = s.ctx? j :=
  calc (ignoredState s k c i).ctx? j = ((s.setCtx k (c.saveTrap i)).faultRegs c.core i).ctx? j := State.ctx?_setCtx_ne _ _ _ _ hj
    _ = (s.setCtx k (c.saveTrap i)).ctx? j := ctx?_faultRegs ..
    _ = s.ctx? j := State.ctx?_setCtx_ne _ _ _ _ hj

theorem ignoredState_bytesKept : BytesKept s (ignoredState s k c i) := by
  have hmem : (ignoredState s k c i).memories = s.memories := by simp [ignoredState]
  simp only [State.memories, Prod.mk.injEq] at hmem
  obtain ⟨hhbm, hhost, hpeer⟩ := hmem
  exact ⟨fun a => by rw [hhbm], fun a => by rw [hhost], fun a => by rw [hpeer], fun j o => get_faultRegs (s := s.setCtx k (c.saveTrap i)) ..⟩

theorem ignoredState_reports :
    ∃ r, (ignoredState s k c i).reports = s.reports ++ [r] ∧ r.cause = i.cause ∧ r.die = c.who.die := by
  have hreports : ((s.setCtx k (c.saveTrap i)).faultRegs c.core i).reports = s.reports := by
    unfold State.faultRegs
    split <;> rfl
  exact ⟨_, congrArg (· ++ _) hreports, rfl, rfl⟩
end Ignoring

/-- Settles O58: the trap is saved and the context resumes at once, so that only CAUSE, the EPCs and the log tell of it. -/
theorem ignoredCauses : Obligations.IgnoredCauses := by
  unfold Obligations.IgnoredCauses
  intro s k c i hc hout hign
  have hsusp : c.susp = none := by simpa [Ctx.inHandler] using hout
  rw [takeTrap_of_ignores hc hout hign]
  exact ⟨(c.saveTrap i).resume, State.ctx?_setCtx_self .., rfl, rfl, fun cl => by cases cl <;> rfl, hsusp, rfl, rfl, rfl, rfl, rfl,
    ignoredState_ctx?, ignoredState_bytesKept, ignoredState_reports⟩

end Sys2Proof.Ignored
end

section
/-! What `ctxsv` and `ctxld` leave unchanged (O53). -/

namespace Sys2Proof.Areas

open Sys2Proof.Machine Sys2Proof.Safety Sys2Proof.Effects Sys2Proof.Common Sys2Proof.Branches

/-! ### Bytes of a scratchpad beside those written (R148, R239, R271, R272) -/

section Bytes
variable (m : CoreState)

theorem mem_put {j k : Nat} {l : List Nat} : j ∈ NSet.put k l ↔ j = k ∨ j ∈ l := by
  induction l with
  | nil => simp [NSet.put]
  | cons a l ih =>
    rw [NSet.put]
    split
    · exact List.mem_cons
    · split
      · next hk => simp [hk]
      · rw [List.mem_cons, ih, List.mem_cons]
        exact or_left_comm

theorem has_add {x : NSet} {j k : Nat} : (x.add k).has j = (j == k || x.has j) := by
  rw [Bool.eq_iff_iff]
  simp [NSet.add, NSet.has, mem_put]

theorem has_delIf {x : NSet} {p : Nat → Bool} {j : Nat} : (x.delIf p).has j = (x.has j && !p j) := by
  rw [Bool.eq_iff_iff]
  simp [NSet.delIf, NSet.has]

theorem lookup_filter {α : Type} {p : Nat → Bool} {a : Nat} (l : List (Nat × α)) :
    FMap.lookup a (l.filter fun e => p e.1) = if p a then FMap.lookup a l else none := by
  induction l with
  | nil => simp [FMap.lookup]
  | cons e l ih =>
    obtain ⟨k, v⟩ := e
    rcases hk : p k <;> by_cases ha : k = a
    · subst ha
      simp [hk, ih]
    · simp [FMap.lookup, hk, ha, ih]
    · subst ha
      simp [FMap.lookup, hk]
    · simp [FMap.lookup, hk, ha, ih]

/-- Reads through a filter on addresses. -/
theorem read_filter {b : Mem} {p : Nat → Bool} {a : Nat} :
    Mem.read (FMap.filter b fun k _ => p k) a = if p a then Mem.read b a else 0 := by
  have hlookup := lookup_filter (p := p) (a := a) b.items
  simp only [Mem.read, FMap.getD, FMap.find?, FMap.filter, hlookup]
  split <;> rfl

/-- A written byte leaves every other byte, also where its line was invalid (R148). -/
theorem get_put_of_ne {o j : Nat} {b : Byte} (hj : j ≠ o) : (m.put o b).get j = m.get j := by
  by_cases hvalid : m.lines.has (o / 64) = true
  · exact m.get_put_ne o j b hvalid hj
  · rw [Bool.not_eq_true] at hvalid
    simp only [CoreState.put, hvalid, CoreState.get, has_add, Bool.false_eq_true, if_false, Mem.read_write_ne _ _ _ _ hj]
    rw [read_filter (p := fun a => a / 64 != o / 64)]
    by_cases hline : j / 64 = o / 64 <;> simp [hline, hvalid]

theorem get_puts_outside {l : List Byte} {o j : Nat} (hj : j < o ∨ o + l.length ≤ j) : (m.puts o l).get j = m.get j := by
  induction l generalizing m o with
  | nil => rfl
  | cons b l ih =>
    rw [List.length_cons] at hj
    rw [CoreState.puts, ih _ (by omega), get_put_of_ne _ (by omega)]

theorem get_putsFree_outside {l : List Byte} {o j : Nat} (hj : j < o ∨ o + l.length ≤ j) : (m.putsFree o l).get j = m.get j := by
  induction l generalizing m o with
  | nil => rfl
  | cons b l ih =>
    rw [List.length_cons] at hj
    rw [CoreState.putsFree, ih _ (by omega)]
    split
    · rfl
    · exact get_put_of_ne _ (by omega)

theorem get_putBytes_outside {l : List Byte} {o j : Nat} (hj : j < o ∨ o + l.length ≤ j) : (m.putBytes o l).get j = m.get j :=
  get_puts_outside m hj

theorem get_putFree_outside {l : List Byte} {o j : Nat} (hj : j < o ∨ o + l.length ≤ j) : (m.putFree o l).get j = m.get j := by
  unfold CoreState.putFree
  split
  · exact get_putsFree_outside m hj
  · exact get_putBytes_outside m hj

theorem get_clearLines_outside {line n j : Nat} (hj : j < 64 * line ∨ 64 * (line + n) ≤ j) : (m.clearLines line n).get j = m.get j := by
  have hkeep : (decide (line ≤ j / 64) && decide (j / 64 < line + n)) = false := by
    simp only [Bool.and_eq_false_iff, decide_eq_false_iff_not]
    omega
  simp only [CoreState.clearLines, CoreState.get, has_delIf, hkeep, Bool.not_false, Bool.and_true]
end Bytes

/-! ### Lengths of images -/

@[simp] theorem length_getBytes (m : CoreState) (o n : Nat) : (m.getBytes o n).length = n := by
  induction n generalizing o with
  | zero => rfl
  | succ n ih => rw [CoreState.getBytes, List.length_cons, ih]

@[simp] theorem length_readBytes (m : Mem) (a n : Nat) : (m.readBytes a n).length = n := by
  induction n generalizing a with
  | zero => rfl
  | succ n ih => rw [Mem.readBytes, List.length_cons, ih]

@[simp] theorem length_fit (n : Nat) (l : List Byte) : (fit n l).length = n := by simp [fit]

@[simp] theorem length_range (a n : Nat) : (range a n).length = n := by rw [range_eq_range', List.length_range']

theorem mem_range {a n x : Nat} : x ∈ range a n ↔ a ≤ x ∧ x < a + n := by rw [range_eq_range', List.mem_range'_1]

@[simp] theorem length_bitImage (n : Nat) (f : Nat → Bool) : (bitImage n f).length = n / 8 := by simp [bitImage]

theorem length_flatMap_le {α β : Type} {l : List α} {f : α → List β} {n : Nat} (hf : ∀ x ∈ l, (f x).length ≤ n) :
    (l.flatMap f).length ≤ l.length * n := by
  induction l with
  | nil => simp
  | cons a l ih =>
    have ha := hf a (List.mem_cons_self ..)
    have hl := ih fun x hx => hf x (List.mem_cons_of_mem _ hx)
    rw [List.flatMap_cons, List.length_append, List.length_cons, Nat.succ_mul]
    omega

/-! ### States that differ in the bytes of given places alone -/

/-- A step writes into scratchpads, at no place but the given ones, and changes nothing else. -/
structure WritesOnly (places : List (Nat × Nat × Nat)) (s t : State) : Prop where
  rest : t = { s with cores := t.cores }
  bytes : ∀ k o, outside places k o → (t.core k).get o = (s.core k).get o

section Writing
variable {P : List (Nat × Nat × Nat)} {s t u : State}

theorem WritesOnly.refl : WritesOnly P s s := ⟨rfl, fun _ _ _ => rfl⟩

theorem WritesOnly.trans (hst : WritesOnly P s t) (htu : WritesOnly P t u) : WritesOnly P s u :=
  ⟨by rw [htu.rest, hst.rest], fun k o ho => (htu.bytes k o ho).trans (hst.bytes k o ho)⟩

theorem WritesOnly.foldl {α : Type} {f : State → α → State} {l : List α} (hf : ∀ t, ∀ x ∈ l, WritesOnly P t (f t x)) :
    WritesOnly P s (l.foldl f s) := by
  induction l generalizing s with
  | nil => exact .refl
  | cons a l ih => exact (hf s a (List.mem_cons_self ..)).trans (ih fun t x hx => hf t x (List.mem_cons_of_mem _ hx))

/-- A change of one core that keeps every byte outside the places. -/
theorem WritesOnly.modCore {k : Nat} {f : CoreState → CoreState} (hf : ∀ m o, outside P k o → (f m).get o = m.get o) :
    WritesOnly P s (s.modCore k f) := by
  refine ⟨rfl, fun j o ho => ?_⟩
  by_cases hj : j = k
  · subst hj
    rw [State.modCore, State.core_setCore_self, hf _ o ho]
  · rw [State.modCore, State.core_setCore_ne _ _ _ _ hj]

/-- A byte outside the places lies before or behind every piece of one of them. -/
theorem not_within_of_outside {k first n off len o : Nat} (hplace : (k, first, n) ∈ P) (hlen : off + len ≤ n) (ho : outside P k o) :
    o < first + off ∨ first + off + len ≤ o := by
  rcases ho _ hplace with hk | ho | ho
  · exact absurd rfl hk
  · exact .inl (by dsimp only at ho; omega)
  · exact .inr (by dsimp only at ho; omega)

theorem WritesOnly.putArea {a off n : Nat} {b : List Byte} (hplace : ((areaHome a).1, (areaHome a).2, n) ∈ P)
    (hlen : off + b.length ≤ n) : WritesOnly P s (s.putArea a off b) :=
  .modCore fun m _ ho => get_putFree_outside m (not_within_of_outside hplace hlen ho)

/-- Every piece of the array's image lies in the spill area (R224). -/
theorem length_spill {m : MatrixArray} {e : Nat × List Byte} (he : e ∈ m.spill) : e.1 + e.2.length ≤ spillBytes := by
  have hstage : ∀ x ∈ List.zip (range 0 6) m.tree, x.1 < 6 := fun x hx => by
    have := mem_range.mp (List.of_mem_zip hx).1
    omega
  simp only [MatrixArray.spill, List.mem_append, List.mem_map, List.mem_cons, List.not_mem_nil, or_false] at he
  unfold spillBytes
  rcases he with (((((rfl | ⟨r, hr, rfl⟩) | (rfl | rfl | rfl)) | ⟨x, hx, rfl⟩) | ⟨x, hx, rfl⟩) | rfl)
  · rw [length_readBytes]
    omega
  · have hlen := length_flatMap_le (l := range 0 128) (f := fun c => toBytes ((m.row r).entries.getD c 0).toNat 8) (n := 8)
      fun _ _ => toBytes_length.le
    rw [length_range] at hlen
    have := mem_range.mp hr
    dsimp only
    omega
  · rw [length_readBytes]
    omega
  · have hlen := length_flatMap_le (l := range 0 256) (f := fun r => toBytes (m.row r).word 2) (n := 2) fun _ _ => toBytes_length.le
    rw [length_range] at hlen
    dsimp only
    omega
  · simp only [List.length_append, toBytes_length, List.length_replicate]
    omega
  · obtain ⟨n, stage⟩ := x
    have := hstage _ hx
    rcases stage with _ | p
    · rw [List.length_replicate]
      dsimp only at this ⊢
      omega
    · have hlen := length_flatMap_le (l := p.sums.take 128) (f := fun z => toBytes (wordI z).toNat 8) (n := 8)
        fun _ _ => toBytes_length.le
      rw [List.length_take] at hlen
      dsimp only at this ⊢
      omega
  · obtain ⟨n, stage⟩ := x
    have := hstage _ hx
    rcases stage with _ | p
    · rw [List.length_replicate]
      dsimp only at this ⊢
      omega
    · rw [toBytes_length]
      dsimp only at this ⊢
      omega
  · simp only [List.length_replicate]
    omega

theorem WritesOnly.spill {c : Ctx} (hplace : c.who.au = true → (c.core, c.spillAt, spillBytes) ∈ P) : WritesOnly P s (s.spill c) := by
  unfold State.spill
  split
  · next hau =>
    exact .foldl fun t e he => .modCore fun m _ ho =>
      get_putBytes_outside m (not_within_of_outside (hplace hau) (length_spill he) ho)
  · exact .refl
/-- The address of a chunk is its entry in the table. -/
theorem getD_chunks {a n : Nat} (hn : n < 10) : (s.chunks a).getD n 0 = s.chunk a n := by
  rw [State.chunks, range_eq_range']
  simp [List.getD_eq_getElem?_getD, hn]

/-- The places that a save of the parts of a mask writes, when it finds the chunk table `chunks` (R168, R170, R224). -/
structure SavesAt (P : List (Nat × Nat × Nat)) (c : Ctx) (a mask : Nat) (chunk : Nat → Nat) : Prop where
  area : ((areaHome a).1, (areaHome a).2, 0x15000) ∈ P
  rows : mask / 4 % 2 = 1 → ∀ n, n < 6 → ((areaHome (chunk n)).1, (areaHome (chunk n)).2, 0x40000) ∈ P
  lines : mask / 8 % 2 = 1 → ∀ h, h < 4 → (c.region h).2 ≠ 0 →
    ((areaHome (chunk (6 + h))).1, (areaHome (chunk (6 + h))).2, (c.region h).2) ∈ P
  array : mask / 8 % 2 = 1 → c.who.au = true → (c.core, c.spillAt, spillBytes) ∈ P

theorem WritesOnly.saveMrf {c : Ctx} {a : Nat} {chunks : List Nat} (harea : ((areaHome a).1, (areaHome a).2, 0x15000) ∈ P)
    (hrows : ∀ n, n < 6 → ((areaHome (chunks.getD n 0)).1, (areaHome (chunks.getD n 0)).2, 0x40000) ∈ P) :
    WritesOnly P s (s.saveMrf a chunks c) := by
  unfold State.saveMrf
  refine (WritesOnly.putArea harea (by simp)).trans (.foldl fun t r hr => ?_)
  have hrow : r < 6144 := by
    have := (List.mem_filter.mp hr).2
    simp only [Bool.and_eq_true, decide_eq_true_eq] at this
    exact this.1
  refine WritesOnly.putArea (hrows _ (by omega)) ?_
  have hlen := length_flatMap_le (l := range 0 128) (f := fun i => toBytes (c.mrf.get (r * 128 + i)).toNat 2) (n := 2)
    fun _ _ => toBytes_length.le
  rw [length_range] at hlen
  omega

theorem WritesOnly.saveRegions {c : Ctx} {a : Nat} {chunks : List Nat} (harea : ((areaHome a).1, (areaHome a).2, 0x15000) ∈ P)
    (hlines : ∀ h, h < 4 → (c.region h).2 ≠ 0 →
      ((areaHome (chunks.getD (6 + h) 0)).1, (areaHome (chunks.getD (6 + h) 0)).2, (c.region h).2) ∈ P) :
    WritesOnly P s (s.saveRegions a chunks c) := by
  unfold State.saveRegions
  refine .foldl fun t h hh => ?_
  have hhalf : h < 4 := by
    have := mem_range.mp hh
    omega
  refine (WritesOnly.putArea harea (by simp; omega)).trans (.foldl fun u l hl => ?_)
  have hline := mem_range.mp (List.mem_filter.mp hl).1
  refine WritesOnly.putArea (hlines h hhalf ?_) ?_
  · omega
  · rw [length_getBytes]
    omega

theorem WritesOnly.ite {p : Prop} [Decidable p] (h : p → WritesOnly P s t) : WritesOnly P s (if p then t else s) := by
  split
  · next hp => exact h hp
  · exact .refl

@[simp] theorem length_clusterImage (c : Ctx) (cl : Cluster) : (c.clusterImage cl).length = 0x400 := by simp [Ctx.clusterImage]

theorem WritesOnly.saveWith {c : Ctx} {a head mask : Nat} {recs : List (Saved × Option Nat)} (hp : SavesAt P c a mask (s.chunk a)) :
    WritesOnly P s (s.saveWith c a head mask recs) := by
  unfold State.saveWith
  extract_lets chunks s1 s2 s3 s4
  have hheader : WritesOnly P s s1 :=
    (WritesOnly.putArea hp.area (by simp [Ctx.header])).trans (.putArea hp.area (by rw [List.length_replicate]; omega))
  have hpart0 : WritesOnly P s1 s2 := .ite fun _ => .putArea hp.area (by simp [allClusters])
  have hpart1 : WritesOnly P s2 s3 := .ite fun _ =>
    ((WritesOnly.putArea hp.area (by simp)).trans (.putArea hp.area (by simp))).trans (.putArea hp.area (by simp))
  have hpart2 : WritesOnly P s3 s4 := .ite fun hm =>
    .saveMrf hp.area fun n hn => by rw [getD_chunks (by omega)]; exact hp.rows hm n hn
  have hpart3 : WritesOnly P s4 (if mask / 8 % 2 = 1 then (s4.spill c).saveRegions a chunks c else s4) := .ite fun hm =>
    (WritesOnly.spill (hp.array hm)).trans
      (.saveRegions hp.area fun h hh hn => by rw [getD_chunks (by omega)]; exact hp.lines hm h hh hn)
  exact (((hheader.trans hpart0).trans hpart1).trans hpart2).trans hpart3

theorem WritesOnly.loadLine {core line : Nat} {bytes : Option (List Byte)} {first n : Nat} (hplace : (core, first, n) ∈ P)
    (hlow : first ≤ 64 * line) (hhigh : 64 * line + 64 ≤ first + n) (hbytes : ∀ b ∈ bytes, b.length = 64) :
    WritesOnly P s (s.loadLine core line bytes) := by
  refine .modCore fun m o ho => ?_
  have hout : o < 64 * line ∨ 64 * line + 64 ≤ o := by
    have := not_within_of_outside (off := 64 * line - first) (len := 64) hplace (by omega) ho
    omega
  rcases bytes with _ | b
  · dsimp only
    split
    · exact get_putFree_outside m (by simpa using hout)
    · exact get_clearLines_outside m (by omega)
  · exact get_putFree_outside m (by rw [hbytes b rfl]; exact hout)

theorem region_first_dvd (c : Ctx) (h : Nat) : (c.region h).1 = 64 * ((c.region h).1 / 64) := by
  simp only [Ctx.region]
  omega

/-- Part 3 loads the lines of the regions alone (R168). -/
theorem WritesOnly.loadRegions {c : Ctx} {a : Nat} (hregions : ∀ h, h < 4 → (c.core, (c.region h).1, (c.region h).2) ∈ P) :
    WritesOnly P s (s.loadRegions a c) := by
  unfold State.loadRegions
  refine .foldl fun t h hh => .foldl fun u l hl => ?_
  have hhalf : h < 4 := by
    have := mem_range.mp hh
    omega
  have hline := mem_range.mp hl
  have hfirst := region_first_dvd c h
  refine .loadLine (hregions h hhalf) (by omega) (by omega) fun b hb => ?_
  split at hb
  · obtain rfl := Option.some.inj hb
    exact length_getBytes ..
  · cases hb
end Writing

/-! ### The context that a load or save is of -/

/-- Two contexts have one identity and one set of regions. -/
def SamePlace (c d : Ctx) : Prop := d.who = c.who ∧ d.rgn = c.rgn

section Places
variable {s : State} {c d e : Ctx} {a k mask : Nat}

theorem SamePlace.trans (hcd : SamePlace c d) (hde : SamePlace d e) : SamePlace c e := ⟨hde.1.trans hcd.1, hde.2.trans hcd.2⟩

theorem SamePlace.foldl {α : Type} {f : Ctx → α → Ctx} {l : List α} (hf : ∀ d x, SamePlace d (f d x)) : SamePlace c (l.foldl f c) := by
  induction l generalizing c with
  | nil => exact ⟨rfl, rfl⟩
  | cons a l ih => exact (hf c a).trans ih

theorem SamePlace.region (h : SamePlace c d) : d.region = c.region := by
  funext n
  rw [Ctx.region, Ctx.region, h.2]

theorem SamePlace.core (h : SamePlace c d) : d.core = c.core := by rw [Ctx.core, Ctx.core, h.1]

theorem SamePlace.spillAt (h : SamePlace c d) : d.spillAt = c.spillAt := by rw [Ctx.spillAt, Ctx.spillAt, h.region]

theorem SamePlace.neededChunks (h : SamePlace c d) : d.neededChunks = c.neededChunks := by
  funext m
  rw [Ctx.neededChunks, Ctx.neededChunks, h.region]

/-- The checks of an area see of the context its die and its regions. -/
theorem SamePlace.areaFault (h : SamePlace c d) {x y : Word} {load : Bool} : s.areaFault d x y load = s.areaFault c x y load := by
  simp only [State.areaFault, h.neededChunks, h.1]

theorem SamePlace.areaBad (h : SamePlace c d) : s.areaBad d a mask = s.areaBad c a mask := by
  simp only [State.areaBad, h.neededChunks]

theorem samePlace_issueOn {cl : Cluster} {u : Uses} {q : Bool} : SamePlace c (c.issueOn cl u q) :=
  ⟨Ctx.issueOn_who .., Ctx.issueOn_rgn ..⟩

theorem samePlace_own : SamePlace c c.own := by
  unfold Ctx.own
  split <;> exact ⟨rfl, rfl⟩

theorem samePlace_loadCluster {cl : Cluster} : SamePlace c (s.loadCluster a c cl) := by
  unfold State.loadCluster
  dsimp only
  split <;> exact ⟨rfl, rfl⟩

theorem samePlace_loadSaved {old : Ctx} {last : Nat → Nat} {e : Ctx × Bool} {r : Nat × Saved} :
    SamePlace e.1 (old.loadSaved s k last e r).1 := by
  unfold Ctx.loadSaved
  dsimp only
  split
  · dsimp only
    split <;> exact ⟨rfl, rfl⟩
  · split <;> exact ⟨rfl, rfl⟩
  · split <;> exact ⟨rfl, rfl⟩
  · exact ⟨rfl, rfl⟩

theorem samePlace_foldl_loadSaved {old : Ctx} {last : Nat → Nat} {l : List (Nat × Saved)} {e : Ctx × Bool} :
    SamePlace e.1 (l.foldl (old.loadSaved s k last) e).1 := by
  induction l generalizing e with
  | nil => exact ⟨rfl, rfl⟩
  | cons r l ih => exact samePlace_loadSaved.trans ih

theorem samePlace_foldl_reserveSaved {old : Ctx} {l : List (Nat × Saved)} : SamePlace c (l.foldl old.reserveSaved c) :=
  .foldl fun _ _ => ⟨rfl, rfl⟩

theorem samePlace_foldl_lastAccess {last : Cluster → Nat} {l : List Cluster} :
    SamePlace c (l.foldl (fun d cl => d.setCl cl { d.cl cl with lastAccess := last cl }) c) :=
  .foldl fun _ _ => ⟨rfl, rfl⟩

/-- Restoring the records of the landings, over any context that stands where `c` does. -/
theorem SamePlace.loadRecords {old d : Ctx} (hd : SamePlace c d) {last : Nat → Nat} {front ids : List (Nat × Saved)} {b : Bool} :
    SamePlace c (ids.foldl (old.loadSaved s k last) (front.foldl old.reserveSaved d, b)).1 :=
  hd.trans (SamePlace.trans samePlace_foldl_reserveSaved samePlace_foldl_loadSaved)

theorem SamePlace.withHolds (h : SamePlace c d) {l : List Hold} : SamePlace c { d with holds := l } := h

theorem samePlace_loadQueues : SamePlace c (s.loadQueues k a c).1 := by
  unfold State.loadQueues
  extract_lets n recs last images ids front d e
  have hd : SamePlace c d := SamePlace.trans (d := { c with queues := images, landings := [] }) ⟨rfl, rfl⟩ samePlace_foldl_lastAccess
  clear_value d ids front last
  have he : SamePlace c e.1 := hd.loadRecords
  exact he.withHolds

theorem samePlace_loadMrf : SamePlace c (s.loadMrf a c) := ⟨rfl, rfl⟩

theorem SamePlace.ite {p : Prop} [Decidable p] (h : SamePlace c d) : SamePlace c (if p then d else c) := by
  split
  · exact h
  · exact ⟨rfl, rfl⟩

/-- A load writes into the regions, if its mask names them, and replaces the context (R100). -/
theorem loadParts_eq {P : List (Nat × Nat × Nat)} (hc : s.ctx? k = some c)
    (hregions : mask / 8 % 2 = 1 → ∀ h, h < 4 → (c.core, (c.region h).1, (c.region h).2) ∈ P) :
    ∃ u d n, WritesOnly P s u ∧ s.loadParts k a mask = { u.setCtx k d with serial := n } := by
  unfold State.loadParts
  split
  · next hnone => exact absurd (hnone.symm.trans hc) (by simp)
  next h hh =>
  obtain rfl := Option.some.inj (hh.symm.trans hc)
  extract_lets c0 c1
  have h1 : SamePlace h c1 := samePlace_own.trans (.ite (.foldl fun _ _ => samePlace_loadCluster))
  have h2 : SamePlace h (if mask / 2 % 2 = 1 then s.loadQueues k a c1 else (c1, s.serial)).1 := by
    split
    · exact h1.trans samePlace_loadQueues
    · exact h1
  generalize (if mask / 2 % 2 = 1 then s.loadQueues k a c1 else (c1, s.serial)) = queued at h2 ⊢
  obtain ⟨c2, n⟩ := queued
  obtain ⟨c3, hc3⟩ : ∃ c3, c3 = if mask / 4 % 2 = 1 then s.loadMrf a c2 else c2 := ⟨_, rfl⟩
  have h3 : SamePlace h c3 := hc3 ▸ SamePlace.trans h2 (.ite samePlace_loadMrf)
  obtain ⟨u, hu⟩ : ∃ u, u = if mask / 8 % 2 = 1 then s.loadRegions a c3 else s := ⟨_, rfl⟩
  refine ⟨u, h.putOwn (if mask / 8 % 2 = 1 then { c3 with array := u.unspilled c3 } else c3), max u.serial n, ?_, ?_⟩
  · rw [hu]
    refine .ite fun hm => .loadRegions fun j hj => ?_
    rw [h3.core, h3.region]
    exact hregions hm j hj
  · rw [hu, hc3]
end Places

/-! ### `ctxsv` and `ctxld` that issue (R99, R100) -/

section AreaWords
variable {s t : State} {c d : Ctx} {h : Hdr} {u : Uses} {f : FmtS2}

theorem insideHandler_issuing (hin : c.inHandler = true) (b : Body) : insideHandler (issuing s c h u) b = b := by
  rw [insideHandler, handling_issuing, hin]
  rfl

theorem withCtx_issuing (b : Ctx → Body) : withCtx (issuing s c h u) b = b (c.issueOn s.focus.2 u (Pends c s.focus.2 h u)) := by
  rw [withCtx, issuing_focus, issuing_ctx?]

theorem areaFault_issuing {x y : Word} {load : Bool} :
    (issuing s c h u).areaFault (c.issueOn s.focus.2 u (Pends c s.focus.2 h u)) x y load = s.areaFault c x y load :=
  samePlace_issueOn.areaFault

theorem areaBad_issuing {a mask : Nat} :
    (issuing s c h u).areaBad (c.issueOn s.focus.2 u (Pends c s.focus.2 h u)) a mask = s.areaBad c a mask :=
  samePlace_issueOn.areaBad

/-- The body of `ctxsv` and `ctxld`, in a handler and on an area that passes their checks. -/
theorem areaBody_issuing {load : Bool} {go : Nat → Nat → State → State} {a b : Word} (hin : c.inHandler = true)
    (hfault : s.areaFault c a b load = none) (hbad : (load && s.areaBad c a.toNat b.toNat) = false) :
    areaBody load go a b (issuing s c h u) = .ok ((go a.toNat b.toNat (issuing s c h u)).holdTransfer) := by
  rw [areaBody, insideHandler_issuing hin, withCtx_issuing, areaFault_issuing, areaBad_issuing, hfault, hbad]
  rfl

/-- What `ctxsv` and `ctxld` read: an area and a mask, from ib. -/
def areaUses (f : FmtS2) : Uses := { sa := some (4, f.sa), sb := some (5, f.sb), priv := true }

/-- The state in which `ctxsv` or `ctxld` takes effect. -/
def areaIssuing (s : State) (c : Ctx) (h : Hdr) (f : FmtS2) : State := issuing s c h (areaUses f)

theorem exec_of_areaBody {i : Instr} {load : Bool} {go : Nat → Nat → State → State}
    (hexec : exec i s = word i h (areaUses f) (fun a b _ t => areaBody load go a b t) s) (p : Issues s c i h (areaUses f))
    (hon : s.focus.2 = .c) (hin : c.inHandler = true) (hfault : s.areaFault c (ibA c f.sa) (ibB c f.sb) load = none)
    (hbad : (load && s.areaBad c (ibA c f.sa).toNat (ibB c f.sb).toNat) = false) :
    exec i s = .next (retired s ((go (ibA c f.sa).toNat (ibB c f.sb).toNat (areaIssuing s c h f)).holdTransfer)) := by
  have hsources : c.value s.focus.2 (areaUses f).sa = ibA c f.sa ∧ c.value s.focus.2 (areaUses f).sb = ibB c f.sb := by
    rw [hon]
    exact ⟨rfl, rfl⟩
  refine exec_of_ok hexec p (clear_of_no_mem rfl) ?_
  rw [hsources.1, hsources.2]
  exact areaBody_issuing hin hfault hbad

theorem exec_of_ctxsv (hrow : (areaWord s c (.ctxsv h f)).isSome = true) (p : Issues s c (.ctxsv h f) h (areaUses f)) :
    exec (.ctxsv h f) s =
      .next (retired s (((areaIssuing s c h f).saveParts s.focus.1 (ibA c f.sa).toNat (ibB c f.sb).toNat).holdTransfer)) := by
  rw [areaWord] at hrow
  split at hrow
  · cases hrow
  next hpass =>
  obtain ⟨hin, hfault⟩ : c.inHandler = true ∧ s.areaFault c (ibA c f.sa) (ibB c f.sb) false = none := by simpa using hpass
  have hon : s.focus.2 = .c := eq_of_beq (Bool.and_eq_true_iff.mp p.legal).1
  exact exec_of_areaBody (load := false) (go := fun a b t => t.saveParts t.focus.1 a b) rfl p hon hin hfault rfl

theorem exec_of_ctxld (hrow : (areaWord s c (.ctxld h f)).isSome = true) (p : Issues s c (.ctxld h f) h (areaUses f)) :
    exec (.ctxld h f) s =
      .next (retired s (((areaIssuing s c h f).loadParts s.focus.1 (ibA c f.sa).toNat (ibB c f.sb).toNat).holdTransfer)) := by
  rw [areaWord] at hrow
  split at hrow
  · cases hrow
  next hpass =>
  obtain ⟨⟨hin, hfault⟩, hbad⟩ : (c.inHandler = true ∧ s.areaFault c (ibA c f.sa) (ibB c f.sb) true = none) ∧
      s.areaBad c (ibA c f.sa).toNat (ibB c f.sb).toNat = false := by simpa using hpass
  have hon : s.focus.2 = .c := eq_of_beq (Bool.and_eq_true_iff.mp p.legal).1
  exact exec_of_areaBody (load := true) (go := fun a b t => t.loadParts t.focus.1 a b) rfl p hon hin hfault hbad

/-! What follows the save or the load leaves memory alone. -/

theorem retired_holdTransfer_hbm : (retired s t.holdTransfer).hbm = t.hbm := by simp [retired, State.holdTransfer]
theorem retired_holdTransfer_hostMem : (retired s t.holdTransfer).hostMem = t.hostMem := by simp [retired, State.holdTransfer]
theorem retired_holdTransfer_peerMem : (retired s t.holdTransfer).peerMem = t.peerMem := by simp [retired, State.holdTransfer]
theorem retired_holdTransfer_core (k : Nat) : (retired s t.holdTransfer).core k = t.core k := by simp [retired, State.holdTransfer, State.core]

theorem ctx?_retired_holdTransfer_ne {k : Nat} (hfocus : t.focus = s.focus) (hk : k ≠ s.focus.1) :
    (retired s t.holdTransfer).ctx? k = t.ctx? k := by
  rw [retired, State.ctx?_modCtx_ne _ _ _ _ hk, State.holdTransfer]
  exact State.ctx?_modCtx_ne _ _ _ _ (hfocus ▸ hk)

/-- The context of the word is held, and retires. -/
theorem ctx?_retired_holdTransfer (hfocus : t.focus = s.focus) (hc : t.ctx? s.focus.1 = some c) :
    ∃ l, (retired s t.holdTransfer).ctx? s.focus.1 = some (({ c with holds := l } : Ctx).commit s.focus.2 none) := by
  refine ⟨c.holds ++ [.transfer ((t.die c.who.die).time + Config.transferCycles t.serial)], ?_⟩
  have hheld : t.holdTransfer.ctx? s.focus.1 =
      some { c with holds := c.holds ++ [.transfer ((t.die c.who.die).time + Config.transferCycles t.serial)] } := by
    rw [State.holdTransfer, hfocus]
    exact (State.ctx?_modCtx_self ..).trans (by rw [hc]; rfl)
  rw [retired, State.ctx?_modCtx_self, hheld]
  rfl
end AreaWords

/-! ### The registers of a context whose word retires -/

section Registers
variable {c : Ctx} {k : Cluster} {u : Uses} {q : Bool}

theorem advance_file (x : ClusterState) (n : Nat) : x.advance.file n = x.file n := by
  unfold ClusterState.advance
  grind [ClusterState.file]

theorem advance_pred (x : ClusterState) (n : Nat) : x.advance.pred n = x.pred n := by
  unfold ClusterState.advance
  grind [ClusterState.pred]

/-- The issue of a word counts in the window census alone (R160). -/
theorem ctr_issueOn : ∃ v, (c.issueOn k u q).ctr = { c.ctr with pwin := v } := by
  have hpops : ∀ (l : List Nat) (c : Ctx), (l.foldl (fun c i => c.pop (inQueue k i)) c).ctr = c.ctr := by
    intro l
    induction l with
    | nil => exact fun _ => rfl
    | cons a l ih => exact fun c => (ih _).trans rfl
  unfold Ctx.issueOn
  extract_lets x c1 c2 c3
  have hctr : c3.ctr = c.ctr := (hpops _ c1).trans rfl
  split
  · exact ⟨satInc c3.ctr.pwin, congrArg (fun r : Counters => { r with pwin := satInc c3.ctr.pwin }) hctr⟩
  · exact ⟨c.ctr.pwin, hctr⟩

/-- The clusters beside the one whose word retires stay as they were. -/
theorem cl_retires_ne {l : List Hold} {j : Cluster} (hj : j ≠ k) :
    (({ c.issueOn k u q with holds := l } : Ctx).commit k none).cl j = c.cl j :=
  (Ctx.cl_setCl_ne _ _ _ _ hj).trans (Ctx.cl_issueOn_ne _ _ _ _ _ hj)

theorem cl_retires {l : List Hold} :
    (({ c.issueOn k u q with holds := l } : Ctx).commit k none).cl k =
      ({ c.cl k with run := .run, qblk := 0, qdir := false } : ClusterState).advance := by
  rw [commit_none_cl]
  exact congrArg ClusterState.advance (Ctx.cl_issueOn ..)

theorem registersKept_of_retires {l : List Hold} :
    RegistersKept [k] c (({ c.issueOn k u q with holds := l } : Ctx).commit k none) where
  files j f e := by
    by_cases hj : j = k
    · rw [hj, cl_retires, advance_file]
      rfl
    · rw [cl_retires_ne hj]
  preds j n := by
    by_cases hj : j = k
    · rw [hj, cl_retires, advance_pred]
      rfl
    · rw [cl_retires_ne hj]
  loops j hj := by
    rw [cl_retires_ne (List.ne_of_not_mem_cons hj)]
    exact ⟨rfl, rfl, rfl⟩
  pcs j hj := by rw [cl_retires_ne (List.ne_of_not_mem_cons hj)]
  mrf := by simp
  who := by simp
  control := by simp
  traps := by simp [Ctx.inHandler]
  entries := by simp
  areas := by simp
  counts := by
    obtain ⟨v, hv⟩ := ctr_issueOn (c := c) (k := k) (u := u) (q := q)
    simp [hv]
  time := ⟨by simp, coreTime_issueOn⟩
end Registers

/-! ### The places that `ctxsv` writes (R168, R170, R224) -/

section Saving
variable {P : List (Nat × Nat × Nat)} {s t : State} {c d : Ctx} {h : Hdr} {f : FmtS2} {a k mask : Nat}

theorem mem_neededChunks_rows (hm : mask / 4 % 2 = 1) {n : Nat} (hn : n < 6) : (n, 0x40000) ∈ c.neededChunks mask := by
  simp [Ctx.neededChunks, hm, mem_range, hn]

theorem mem_neededChunks_lines (hm : mask / 8 % 2 = 1) {n : Nat} (hn : n < 4) (hlen : (c.region n).2 ≠ 0) :
    (6 + n, (c.region n).2) ∈ c.neededChunks mask := by
  simp [Ctx.neededChunks, hm, mem_range, hn, hlen]

theorem mem_areaPlaces_chunk {e : Nat × Nat} (he : e ∈ c.neededChunks mask) :
    ((areaHome (s.chunk a e.1)).1, (areaHome (s.chunk a e.1)).2, e.2) ∈ areaPlaces s c a mask :=
  List.mem_append_left _ (List.mem_map.mpr ⟨(s.chunk a e.1, e.2), List.mem_cons_of_mem _ (List.mem_map_of_mem he), rfl⟩)

theorem mem_areaPlaces_area : ((areaHome a).1, (areaHome a).2, 0x15000) ∈ areaPlaces s c a mask := by
  rw [areaPlaces]
  exact List.mem_append_left _ (List.mem_map_of_mem (a := (a, 0x15000)) List.mem_cons_self)

theorem mem_areaPlaces_spill (hm : 8 ≤ mask) (hau : c.who.au = true) : (c.core, c.spillAt, spillBytes) ∈ areaPlaces s c a mask := by
  rw [areaPlaces, hau, decide_eq_true hm]
  exact List.mem_append_right _ List.mem_cons_self

theorem savesAt_areaPlaces : SavesAt (areaPlaces s c a mask) c a mask (s.chunk a) where
  area := mem_areaPlaces_area
  rows hm n hn := mem_areaPlaces_chunk (e := (n, 0x40000)) (mem_neededChunks_rows hm hn)
  lines hm n hn hlen := mem_areaPlaces_chunk (e := (6 + n, (c.region n).2)) (mem_neededChunks_lines hm hn hlen)
  array hm := mem_areaPlaces_spill (by omega)

theorem SamePlace.savesAt {chunk : Nat → Nat} (hcd : SamePlace c d) (hc : SavesAt P c a mask chunk) : SavesAt P d a mask chunk where
  area := hc.area
  rows := hc.rows
  lines := by rw [hcd.region]; exact hc.lines
  array := by rw [hcd.core, hcd.spillAt, hcd.1]; exact hc.array

theorem WritesOnly.saveParts (hd : t.ctx? k = some d) (hp : SavesAt P d a mask (t.chunk a)) : WritesOnly P t (t.saveParts k a mask) := by
  rw [State.saveParts, hd]
  exact .saveWith (samePlace_own.savesAt hp)

theorem writesOnly_saveParts_issuing : WritesOnly (areaPlaces s c a mask) (areaIssuing s c h f)
    ((areaIssuing s c h f).saveParts s.focus.1 a mask) :=
  .saveParts (issuing_ctx? ..) (samePlace_issueOn.savesAt savesAt_areaPlaces)
end Saving

/-- `ctxsv` writes in its places and, its transfer aside, leaves the registers of its context (R99). -/
theorem ctxsv_leaves {s t : State} {c : Ctx} {h : Hdr} {f : FmtS2} (hrow : (areaWord s c (.ctxsv h f)).isSome = true)
    (p : Issues s c (.ctxsv h f) h (areaUses f)) (hexec : exec (.ctxsv h f) s = .next t) :
    (∀ a, t.hbm.read a = s.hbm.read a ∧ t.hostMem.read a = s.hostMem.read a ∧ t.peerMem.read a = s.peerMem.read a) ∧
    (∃ c', t.ctx? s.focus.1 = some c' ∧ RegistersKept [s.focus.2] c c' ∧ c'.array = c.array) ∧
    (∀ k, k ≠ s.focus.1 → t.ctx? k = s.ctx? k) ∧
    (∀ k o, outside (areaPlaces s c (ibA c f.sa).toNat (ibB c f.sb).toNat) k o → (t.core k).get o = (s.core k).get o) := by
  obtain rfl := Host.Outcome.next.inj ((exec_of_ctxsv hrow p).symm.trans hexec)
  have hwrites := writesOnly_saveParts_issuing (s := s) (c := c) (h := h) (f := f) (a := (ibA c f.sa).toNat) (mask := (ibB c f.sb).toNat)
  generalize (areaIssuing s c h f).saveParts s.focus.1 (ibA c f.sa).toNat (ibB c f.sb).toNat = u at hwrites ⊢
  have hctx : ∀ k, u.ctx? k = (areaIssuing s c h f).ctx? k := fun k => by rw [hwrites.rest]; rfl
  have hfocus : u.focus = s.focus := by rw [hwrites.rest]; rfl
  refine ⟨fun a => ?_, ?_, fun k hk => ?_, fun k o ho => ?_⟩
  · rw [retired_holdTransfer_hbm, retired_holdTransfer_hostMem, retired_holdTransfer_peerMem, hwrites.rest]
    exact ⟨rfl, rfl, rfl⟩
  · obtain ⟨l, hl⟩ := ctx?_retired_holdTransfer hfocus ((hctx s.focus.1).trans (issuing_ctx? ..))
    exact ⟨_, hl, registersKept_of_retires, by simp⟩
  · rw [ctx?_retired_holdTransfer_ne hfocus hk, hctx]
    exact State.ctx?_setCtx_ne _ _ _ _ hk
  · rw [retired_holdTransfer_core]
    exact hwrites.bytes k o ho

/-! ### The places that `ctxld` writes (R100) -/

/-- The four regions of a context, in its own scratchpad. -/
def regionPlaces (c : Ctx) : List (Nat × Nat × Nat) := (range 0 4).map fun h => (c.core, (c.region h).1, (c.region h).2)

section Loading
variable {P : List (Nat × Nat × Nat)} {s t : State} {c d : Ctx} {h : Hdr} {f : FmtS2} {a mask : Nat}

theorem mem_regionPlaces {n : Nat} (hn : n < 4) : (c.core, (c.region n).1, (c.region n).2) ∈ regionPlaces c :=
  List.mem_map_of_mem (mem_range.mpr ⟨Nat.zero_le n, by omega⟩)

theorem outside_regionPlaces_of_ne {k o : Nat} (hk : k ≠ c.core) : outside (regionPlaces c) k o := by
  intro e he
  obtain ⟨n, -, rfl⟩ := List.mem_map.mp he
  exact .inl hk

/-- A load by an issuing word, apart from the context that it replaces. -/
theorem loadParts_issuing (hregions : mask / 8 % 2 = 1 → ∀ n, n < 4 → (c.core, (c.region n).1, (c.region n).2) ∈ P) :
    ∃ u d n, WritesOnly P (areaIssuing s c h f) u ∧
      (areaIssuing s c h f).loadParts s.focus.1 a mask = { u.setCtx s.focus.1 d with serial := n } := by
  have hplace : SamePlace c (c.issueOn s.focus.2 (areaUses f) (Pends c s.focus.2 h (areaUses f))) := samePlace_issueOn
  refine loadParts_eq (issuing_ctx? ..) fun hm n hn => ?_
  rw [hplace.core, hplace.region]
  exact hregions hm n hn

/-- Only bytes of `P` change in a load, where `P` holds the regions if the mask names them. -/
theorem ctxld_writes (hregions : (ibB c f.sb).toNat / 8 % 2 = 1 → ∀ n, n < 4 → (c.core, (c.region n).1, (c.region n).2) ∈ P)
    (hrow : (areaWord s c (.ctxld h f)).isSome = true) (p : Issues s c (.ctxld h f) h (areaUses f))
    (hexec : exec (.ctxld h f) s = .next t) :
    (∀ a, t.hbm.read a = s.hbm.read a ∧ t.hostMem.read a = s.hostMem.read a ∧ t.peerMem.read a = s.peerMem.read a) ∧
    (∀ k, k ≠ s.focus.1 → t.ctx? k = s.ctx? k) ∧ (∀ k o, outside P k o → (t.core k).get o = (s.core k).get o) := by
  obtain rfl := Host.Outcome.next.inj ((exec_of_ctxld hrow p).symm.trans hexec)
  obtain ⟨u, d, n, hwrites, hload⟩ := loadParts_issuing (s := s) (h := h) (f := f) (a := (ibA c f.sa).toNat) hregions
  rw [hload]
  refine ⟨fun a => ?_, fun k hk => ?_, fun k o ho => ?_⟩
  · rw [retired_holdTransfer_hbm, retired_holdTransfer_hostMem, retired_holdTransfer_peerMem, hwrites.rest]
    exact ⟨rfl, rfl, rfl⟩
  · rw [ctx?_retired_holdTransfer_ne (by rw [hwrites.rest]; rfl) hk]
    refine (State.ctx?_setCtx_ne u s.focus.1 k d hk).trans ?_
    rw [hwrites.rest]
    exact State.ctx?_setCtx_ne _ _ _ _ hk
  · rw [retired_holdTransfer_core]
    exact hwrites.bytes k o ho
end Loading

/-- Settles O53: the places of a save or a load bound what it writes, and nothing else of the words writes memory. -/
theorem areaFrame : Obligations.AreaFrame := by
  unfold Obligations.AreaFrame
  refine ⟨fun h f s c t hrow p hexec => ctxsv_leaves hrow p hexec, fun h f s c t hrow p hexec => ?_⟩
  obtain ⟨hmem, hctx, hbytes⟩ := ctxld_writes (fun _ _ hn => mem_regionPlaces hn) hrow p hexec
  refine ⟨hmem, hctx, fun k o hko => ?_⟩
  rcases hko with hk | hmask | ho
  · exact hbytes k o (outside_regionPlaces_of_ne hk)
  · obtain ⟨-, -, hall⟩ := ctxld_writes (P := []) (fun hm => absurd hm (by omega)) hrow p hexec
    exact hall k o fun e he => absurd he (List.not_mem_nil)
  · exact hbytes k o ho
end Sys2Proof.Areas
end

section
/-! Faults at issue (O30): a list of checks and the body that makes them, the words of each family, and the traps they come to. -/

namespace Sys2Proof.Faults

open Sys2Proof.Machine Sys2Proof.Safety Sys2Proof.Effects Sys2Proof.Common Sys2Proof.Branches Sys2Proof.Areas

/-! ### A body and the checks it makes -/

section Checks
variable {s t : State} {c : Ctx} {i : Instr} {h : Hdr} {u : Uses} {cause : Cause} {taken : Option Ctx} {late : Bool}

/-- A body comes to a trap: with nothing changed, or with the core ports taken that the trap leaves taken (R151); a fault that an outstanding
acquire holds back is marked late (R237). -/
def TrapsWith (s : State) (c : Ctx) (cause : Cause) (taken : Option Ctx) (late : Bool) (b : Body) : Prop :=
  match taken with
  | none => b = .trap (.issue cause s.focus.2)
  | some d => ∃ f, f c = d ∧ (b = .trapWith f (.issue cause s.focus.2) ∨ (late = true ∧ b = .late f (.issue cause s.focus.2)))

/-- A body makes given checks in their order: it comes to the trap of the first one that fails. -/
def Makes (s : State) (c : Ctx) : Checks → Body → Prop
  | [], _ => True
  | (bad, cause, taken, late) :: l, b => (bad = true → TrapsWith s c cause taken late b) ∧ (bad = false → Makes s c l b)

/-- A word that issues, and whose body comes to a trap, takes it. -/
theorem exec_of_trapsWith {body : Word → Word → List Word → State → Body} (hexec : exec i s = word i h u body s) (p : Issues s c i h u)
    (hlate : late = true → c.acquiring = false)
    (hbody : TrapsWith s c cause taken late
      (body (c.value s.focus.2 u.sa) (c.value s.focus.2 u.sb) (c.dataOf u.data) (issuing s c h u))) :
    exec i s = .next (((⟨h, u, cause, taken, late⟩ : Trapping).on s).takeTrap s.focus.1 (.issue cause s.focus.2)) := by
  rw [hexec, word_of_issues s c i h u body p]
  cases taken with
  | none =>
    rw [show body _ _ _ _ = _ from hbody]
    rfl
  | some d =>
    obtain ⟨f, rfl, hb | ⟨hl, hb⟩⟩ := hbody
    · rw [hb]
      rfl
    · rw [hb, State.conclude, hlate hl]
      rfl

theorem makes_firstFault {d : Trapping} {l : Checks} {b : Body} (hrow : firstFault h u l = some d) (hb : Makes s c l b) :
    d = ⟨h, u, d.cause, d.taken, d.late⟩ ∧ TrapsWith s c d.cause d.taken d.late b := by
  induction l with
  | nil => cases hrow
  | cons e l ih =>
    obtain ⟨bad, cause, taken, late⟩ := e
    obtain ⟨hfails, hpasses⟩ := hb
    cases bad with
    | false => exact ih hrow (hpasses rfl)
    | true =>
      obtain rfl := Option.some.inj hrow
      exact ⟨rfl, hfails rfl⟩

/-- A word whose body makes the checks of its rule, on the values of its sources, takes the trap of the first one that fails. -/
theorem exec_of_firstFault {d : Trapping} {l : Checks} {body : Word → Word → List Word → State → Body} (a b : Word)
    (hrow : firstFault h u l = some d) (hexec : exec i s = word i h u body s) (p : Issues s c i d.h d.u)
    (hlate : d.late = true → c.acquiring = false) (ha : c.value s.focus.2 u.sa = a) (hb : c.value s.focus.2 u.sb = b)
    (hbody : Makes s c l (body a b (c.dataOf u.data) (issuing s c h u))) :
    exec i s = .next ((d.on s).takeTrap s.focus.1 (.issue d.cause s.focus.2)) := by
  obtain ⟨hd, htraps⟩ := makes_firstFault hrow hbody
  rw [hd] at p ⊢
  exact exec_of_trapsWith hexec p hlate (by rwa [ha, hb])

variable {l : Checks} {b : Body} {bad : Bool} {P : Prop} [Decidable P]

theorem makes_nil : Makes s c [] b := True.intro

/-- A body that makes more checks makes the first of them. -/
theorem Makes.first {e : Bool × Cause × Option Ctx × Bool} (hb : Makes s c (e :: l) b) : Makes s c [e] b :=
  ⟨hb.1, fun _ => makes_nil⟩

/-- A body that is a fault, and the check of it that fails. -/
theorem Makes.head (hbad : bad = true) (hfocus : t.focus = s.focus) : Makes s c (plain bad cause :: l) (t.fault cause) :=
  ⟨fun _ => by rw [State.fault, hfocus]; rfl, fun h => absurd h (by simp [hbad])⟩

/-- A body that is a fault found in what the word has read, and the check of it that fails. -/
theorem Makes.head_found {x d : Ctx} (hbad : bad = true) (hfocus : t.focus = s.focus) (hport : { c with xPort := x.xPort } = d) :
    Makes s c (found bad cause d :: l) (t.faultLate x cause) :=
  ⟨fun _ => ⟨_, hport, .inr ⟨rfl, by rw [State.faultLate, hfocus]⟩⟩, fun h => absurd h (by simp [hbad])⟩

/-- A check that cannot fail here. -/
theorem Makes.skip (hbad : bad = false) (hb : Makes s c l b) : Makes s c ((bad, cause, taken, late) :: l) b :=
  ⟨fun h => absurd h (by simp [hbad]), fun _ => hb⟩

/-- A check of what is known without a read, at the head of a body whose rest may use that it has passed. -/
theorem Makes.plain_then (hbad : bad = true ↔ P) (hfocus : t.focus = s.focus) (hb : ¬P → Makes s c l b) :
    Makes s c (plain bad cause :: l) (if P then t.fault cause else b) := by
  refine ⟨fun h => ?_, fun h => ?_⟩
  · rw [if_pos (hbad.mp h), State.fault, hfocus]
    rfl
  · have hpass : ¬P := fun hp => by simp [hbad.mpr hp] at h
    rw [if_neg hpass]
    exact hb hpass

/-- A check of what is known without a read, at the head of a body. -/
theorem Makes.plain (hbad : bad = true ↔ P) (hfocus : t.focus = s.focus) (hb : Makes s c l b) :
    Makes s c (Effects.plain bad cause :: l) (if P then t.fault cause else b) := .plain_then hbad hfocus fun _ => hb

/-- A check of what the word has read, with the port it has taken. -/
theorem Makes.found {x d : Ctx} (hbad : bad = true ↔ P) (hfocus : t.focus = s.focus) (hport : { c with xPort := x.xPort } = d)
    (hb : Makes s c l b) : Makes s c (found bad cause d :: l) (if P then t.faultLate x cause else b) := by
  refine ⟨fun h => ?_, fun h => ?_⟩
  · rw [if_pos (hbad.mp h), State.faultLate, hfocus]
    exact ⟨_, hport, .inr ⟨rfl, rfl⟩⟩
  · rwa [if_neg fun hp => by simp [hbad.mpr hp] at h]

/-- A check of what the word has read, which has taken no port. -/
theorem Makes.held (hbad : bad = true ↔ P) (hb : Makes s c l b) :
    Makes s c (Effects.found bad cause c :: l) (if P then .late id (.issue cause s.focus.2) else b) := by
  refine ⟨fun h => ?_, fun h => ?_⟩
  · rw [if_pos (hbad.mp h)]
    exact ⟨id, rfl, .inr ⟨rfl, rfl⟩⟩
  · rwa [if_neg fun hp => by simp [hbad.mpr hp] at h]
end Checks

/-! ### What the checks read, in the state in which a word takes effect -/

section Reads
variable {s : State} {c : Ctx} {h : Hdr} {u : Uses} {cl : Cluster} {q : Bool}

@[simp] theorem owns_issueOn {o n : Nat} : (c.issueOn cl u q).owns o n = c.owns o n := by
  simp only [Ctx.owns, Ctx.reach, Ctx.region, Ctx.issueOn_rgn, Ctx.issueOn_who]
  rfl

@[simp] theorem core_issueOn : (c.issueOn cl u q).core = c.core := by simp only [Ctx.core, Ctx.issueOn_who]

@[simp] theorem umode_issueOn : (c.issueOn cl u q).umode = c.umode := by simp only [Ctx.umode, Ctx.issueOn_coreCtl]

@[simp] theorem umode_usePort {o : Nat} : (c.usePort o).umode = c.umode := rfl

@[simp] theorem lndcnt_issueOn : (c.issueOn cl u q).lndcnt = c.lndcnt := by
  simp only [Ctx.lndcnt, Ctx.issueOn_claims, Ctx.issueOn_landings, Ctx.issueOn_susp]

@[simp] theorem mayAllot_issueOn {sp : Space} : (c.issueOn cl u q).mayAllot sp = c.mayAllot sp := by
  simp only [Ctx.mayAllot, lndcnt_issueOn, Ctx.issueOn_landings]

@[simp] theorem uninitElem_issueOn {es : List Nat} : (c.issueOn cl u q).uninitElem es = c.uninitElem es := by
  simp only [Ctx.uninitElem, Ctx.issueOn_mrf]

@[simp] theorem holdsRecord_issueOn {o : Nat} : (c.issueOn cl u q).holdsRecord o = (c.owns o 32 && populated c.who.die o) := by
  simp only [Ctx.holdsRecord, owns_issueOn, Ctx.issueOn_who]

@[simp] theorem badAddress_issuing {sp : Space} {a : Word} :
    (issuing s c h u).badAddress (c.issueOn cl u q) sp a = s.badAddress c sp a := by
  cases sp <;> simp [State.badAddress, State.peerOk]

@[simp] theorem checkAccess_issuing {sp : Space} {a : Word} {n align : Nat} :
    (issuing s c h u).checkAccess (c.issueOn cl u q) sp a n align = s.checkAccess c sp a n align := by
  simp only [State.checkAccess, badAddress_issuing, owns_issueOn, Ctx.issueOn_who]

@[simp] theorem clobbers_issuing {sp : Space} {a : Word} {n : Nat} :
    (issuing s c h u).clobbers (c.issueOn cl u q) sp a n = s.clobbers c sp a n := by
  simp only [State.clobbers, core_issueOn, issuing_core]

@[simp] theorem replicated_issuing {g : Nat} : (issuing s c h u).replicated g = s.replicated g := rfl

@[simp] theorem semNumber_issuing {a : Word} : (issuing s c h u).semNumber (c.issueOn cl u q) a = s.semNumber c a := by
  simp only [State.semNumber, Ctx.issueOn_who]
  rfl

/-- A word that takes no port leaves the ports as they were. -/
theorem port_issueOn : { c with xPort := (c.issueOn cl u q).xPort } = c := by rw [Ctx.issueOn_xPort]

theorem port_usePort_issueOn {o : Nat} : { c with xPort := ((c.issueOn cl u q).usePort o).xPort } = c.usePort o := by
  rw [Ctx.usePort, Ctx.issueOn_xPort]
  rfl
end Reads

/-! ### Barriers and `mcast` (R275, R285) -/

section Barriers
variable {s : State} {c : Ctx} {i : Instr} {h : Hdr} {u : Uses} {d : Trapping}

theorem makes_barBody {act : Action} {bad bad' lands : Bool} {land : Option (BitVec 6 × BitVec 6 × Nat)} {a : Word}
    (hbad : bad = true ↔ bad' = true) (hlands : lands = true ↔ land.isSome = true) :
    Makes s c (barChecks c a bad lands) (barBody act bad' land a (issuing s c h u)) := by
  rw [barBody, withCtx_issuing, barChecks]
  exact .plain hbad rfl (.plain bne_iff_ne rfl (.plain bne_iff_ne rfl (.plain (by simp [hlands]) rfl makes_nil)))

/-- A barrier word lands if it names a delivery (R277, R280). -/
theorem lands_iff {d1 d2 : BitVec 6} {lat : Nat} :
    (d1 != 63 || d2 != 63) = true ↔ (if d1 = 63 && d2 = 63 then none else some (d1, d2, lat)).isSome = true := by
  simp [imp_iff_not_or]

/-- `mcast` reads its source through the core port, which it has taken by then (R285). -/
theorem exec_of_mcast {f : FmtRR} (hrow : barrierFault s c (.mcast h f) = some d) (p : Issues s c (.mcast h f) d.h d.u)
    (hlate : d.late = true → c.acquiring = false) :
    exec (.mcast h f) s = .next ((d.on s).takeTrap s.focus.1 (.issue d.cause s.focus.2)) := by
  refine exec_of_firstFault (srcA s c .ia f.sa) (srcB s c .ia f.sb) hrow rfl p hlate rfl rfl ?_
  rw [withCtx_issuing]
  refine .plain Iff.rfl rfl (.plain bne_iff_ne rfl (.plain (by simp) rfl (.plain (by simp [mcastSize]) rfl
    (.found (by simp [mcastSize]) rfl port_usePort_issueOn ?_))))
  rw [core_issueOn, issuing_core, mcastSize]
  cases (s.core c.core).invalidLine (srcA s c .ia f.sa).toNat (64 * 2 ^ f.fn.toNat) with
  | none => exact .skip rfl makes_nil
  | some l => exact .found (by simp) rfl port_usePort_issueOn makes_nil

theorem exec_of_barrierFault (hrow : barrierFault s c i = some d) (p : Issues s c i d.h d.u) (hlate : d.late = true → c.acquiring = false) :
    exec i s = .next ((d.on s).takeTrap s.focus.1 (.issue d.cause s.focus.2)) := by
  cases i
  case barInit h f =>
    exact exec_of_firstFault (srcA s c .ia f.sa) (srcB s c .ia f.sb) hrow rfl p hlate rfl rfl (makes_barBody (by simp) (by simp))
  case barArr h f =>
    exact exec_of_firstFault (srcA s c .ia f.sa) (srcB s c .ia f.sb) hrow rfl p hlate rfl rfl (makes_barBody (by simp) lands_iff)
  case barExp h f | barCred h f =>
    exact exec_of_firstFault (srcA s c .ia f.sa) (srcB s c .ia f.sb) hrow rfl p hlate rfl rfl (makes_barBody (by simp) (by simp))
  case barWait h f =>
    exact exec_of_firstFault (srcA s c .ia f.sa) (srcB s c .ia f.sb) hrow rfl p hlate rfl rfl (makes_barBody (by simp) (by simp))
  case barTest h f => exact exec_of_firstFault (srcA s c .ia f.sa) 0 hrow rfl p hlate rfl rfl (makes_barBody Iff.rfl lands_iff)
  case barBrk h f => exact exec_of_firstFault (srcA s c .ia f.sa) 0 hrow rfl p hlate rfl rfl (makes_barBody Iff.rfl (by simp))
  case mcast h f =>
    exact exec_of_mcast hrow p hlate
  all_goals cases hrow
end Barriers

/-! ### Commands and clearings (R239, R241, R242) -/

section Exchange
variable {s : State} {c : Ctx} {i : Instr} {h : Hdr} {u : Uses} {d : Trapping}

theorem foldl_usePort {l : List Nat} : l.foldl Ctx.usePort c = { c with xPort := l.foldl (fun x o => halfOf o :: x) c.xPort } := by
  induction l generalizing c with
  | nil => rfl
  | cons o l ih => exact ih

@[simp] theorem umode_foldl_usePort {l : List Nat} : (l.foldl Ctx.usePort c).umode = c.umode := by
  rw [foldl_usePort]
  rfl

theorem port_foldl_issueOn {l : List Nat} {cl : Cluster} {q : Bool} :
    { c with xPort := (l.foldl Ctx.usePort (c.issueOn cl u q)).xPort } = l.foldl Ctx.usePort c := by
  rw [foldl_usePort, foldl_usePort, Ctx.issueOn_xPort]

theorem not_all_pair {f : Nat → Bool} {a b : Nat} (ha : f a = true) : (!List.all [a, b] f) = !f b := by simp [ha]

theorem quadOf_zeros : quadOf (List.replicate 32 0) = .all 0 := by decide

/-- The checks of a push, of a command with its record or without one (R241). -/
theorem makes_pushBody {off : BitVec 24} {w : Quad Word} {patch : Quad Word → Quad Word} {rec : Quad Word → Option Nat} {shaped : Bool}
    {bad : Quad Word → Quad Word → Bool} {go : Quad Word → Quad Word → State → State} (hw : patch (recordAt s c off.toNat) = w)
    (hrec : rec w = if shaped then some (shpOf w) else none) :
    Makes s c (pushChecks s c off w shaped bad) (pushBody off patch rec bad go (issuing s c h u)) := by
  rw [pushBody, withCtx_issuing]
  refine .plain bne_iff_ne rfl (.plain_then (by simp) rfl fun hfits => ?_)
  simp only [holdsRecord_issueOn, Bool.not_eq_true', Bool.not_eq_false] at hfits
  simp only [State.recordAt, core_issueOn, issuing_core]
  rw [show patch (quadOf ((s.core c.core).getBytes off.toNat 32)) = w from hw, hrec]
  cases shaped
  · simp only [Bool.false_eq_true, if_false, ← quadOf_zeros]
    have hport := port_foldl_issueOn (c := c) (u := u) (cl := s.focus.2) (q := Pends c s.focus.2 h u) (l := [off.toNat])
    exact .skip (by simp [hfits]) (.found (by simp) rfl hport (.found (by simp) rfl hport
      (.found Iff.rfl rfl hport makes_nil)))
  · simp only [if_true, recordAt]
    generalize shpOf w = o
    have hport := port_foldl_issueOn (c := c) (u := u) (cl := s.focus.2) (q := Pends c s.focus.2 h u) (l := [off.toNat, o])
    have hinside : (!List.all [off.toNat, o] fun o => c.owns o 32 && populated c.who.die o) = true ↔
        (some o).any (fun o => !(c.issueOn s.focus.2 u (Pends c s.focus.2 h u)).holdsRecord o) = true := by
      rw [not_all_pair (f := fun o => c.owns o 32 && populated c.who.die o) hfits, Option.any_some, holdsRecord_issueOn]
    exact .held hinside (.found (by simp) rfl hport (.found (by simp) rfl hport (.found Iff.rfl rfl hport makes_nil)))

theorem exec_of_salloc {f : FmtS2} (hrow : exchangeFault s c (.salloc h f) = some d) (p : Issues s c (.salloc h f) d.h d.u)
    (hlate : d.late = true → c.acquiring = false) :
    exec (.salloc h f) s = .next ((d.on s).takeTrap s.focus.1 (.issue d.cause s.focus.2)) := by
  refine exec_of_firstFault (srcA s c .ia f.sa) (srcB s c .ia f.sb) hrow rfl p hlate rfl rfl ?_
  rw [withCtx_issuing]
  refine .plain (by simp) rfl (.plain bne_iff_ne rfl ?_)
  by_cases hb : srcB s c .ia f.sb = 0#64
  · exact .skip (by simp [hb]) (.skip (by simp [hb]) makes_nil)
  rw [if_neg (show ¬srcB s c .ia f.sb = 0 from hb)]
  refine .plain_then (by simp [hb]) rfl fun howns => .held ?_ makes_nil
  simp_all
/-- A command is patched with the values of the sources that its word names (R54). -/
theorem patched_values {w : Quad Word} {p1 p2 : BitVec 1} {w1 w2 : BitVec 2} {sa sb : BitVec 4} :
    patched w p1 p2 w1 w2 (c.value s.focus.2 (usesPatch p1 p2 sa sb s).sa) (c.value s.focus.2 (usesPatch p1 p2 sa sb s).sb) =
      patched w p1 p2 w1 w2 (srcA s c .ia sa) (srcB s c .ia sb) := by
  unfold patched usesPatch
  by_cases h1 : p1 = 1 <;> by_cases h2 : p2 = 1 <;> simp only [h1, h2, if_true, if_false] <;> rfl

theorem dieOf_of_present (hc : s.ctx? s.focus.1 = some c) : s.dieOf = c.who.die := by rw [State.dieOf, hc]

theorem exec_of_exchangeFault (hrow : exchangeFault s c i = some d) (p : Issues s c i d.h d.u) (hlate : d.late = true → c.acquiring = false) :
    exec i s = .next ((d.on s).takeTrap s.focus.1 (.issue d.cause s.focus.2)) := by
  cases i
  case salloc h f => exact exec_of_salloc hrow p hlate
  case cpy h f => exact exec_of_firstFault _ _ hrow rfl p hlate rfl rfl (makes_pushBody patched_values rfl)
  case ecmd h f =>
    simp only [exchangeFault, ← dieOf_of_present p.present] at hrow
    exact exec_of_firstFault _ _ hrow rfl p hlate rfl rfl (makes_pushBody patched_values rfl)
  all_goals cases hrow
end Exchange

/-! ### Atomics and windows (R316, R327) -/

section Atomics
variable {s : State} {c : Ctx} {i : Instr} {h : Hdr} {u : Uses} {d : Trapping}

theorem makes_atomicBody {f : FmtAM} {n n' : Nat} {deliver : Bool} {act : Action} {a b : Word} (hn : n' = n) :
    Makes s c
      [plain (s.badAddress c (amSpace f.sp.toNat) (a + b)) causeSpaceFault, plain ((a + b).toNat % n != 0) causeMisalign,
       plain (deliver && !c.mayAllot (amSpace f.sp.toNat)) causeLandingLimit]
      (atomicBody f n' deliver act a b (issuing s c h u)) := by
  rw [atomicBody, withCtx_issuing, hn]
  exact .plain (by simp) rfl (.plain bne_iff_ne rfl (.plain (by simp) rfl makes_nil))

theorem wBytes_beq {w : BitVec 1} : wBytes (w == 1) = if w = 1 then 8 else 4 := by simp [wBytes]

/-- No atomic goes to LSP, whose latency is the core's. -/
theorem loadLat_amSpace {n : Nat} {land : BitVec 20} : loadLat s (amSpace n) land = if land = 0 then ldef (amSpace n) else land.toNat := by
  unfold amSpace
  split <;> rfl

/-- An atomic word takes the trap of its first check that fails. -/
theorem exec_of_atomicChecks {f : FmtAM} {pops n n' : Nat} {deliver : Bool} {act : List Word → Action}
    (hexec : exec i s = word i h (usesAM f pops s) (fun a b e t => atomicBody f n' deliver (act e) a b t) s) (hn : n' = n)
    (hrow : atomicChecks s c h f pops n deliver = some d) (p : Issues s c i d.h d.u) (hlate : d.late = true → c.acquiring = false) :
    exec i s = .next ((d.on s).takeTrap s.focus.1 (.issue d.cause s.focus.2)) := by
  simp only [atomicChecks, ← loadLat_amSpace (s := s)] at hrow
  exact exec_of_firstFault (srcA s c .ia f.sa) (srcB s c .ia f.sb) hrow hexec p hlate rfl rfl (makes_atomicBody hn)

theorem makes_windowBody {a : Word} {go : Ctx → Space → Nat → State → Body} :
    Makes s c
      [plain (bits a 62 2 == 3 || s.badAddress c (amSpace (bits a 62 2)) (toWord (bits a 0 62))) causeSpaceFault,
       plain (bits a 0 2 != 0) causeMisalign]
      (windowBody a go (issuing s c h u)) := by
  rw [windowBody, withCtx_issuing]
  exact .plain (by simp) rfl (.plain bne_iff_ne rfl makes_nil)

theorem exec_of_atomicFault (hrow : atomicFault s c i = some d) (p : Issues s c i d.h d.u) (hlate : d.late = true → c.acquiring = false) :
    exec i s = .next ((d.on s).takeTrap s.focus.1 (.issue d.cause s.focus.2)) := by
  cases i
  case amo h f | ared h f | amocas h f => exact exec_of_atomicChecks rfl wBytes_beq hrow p hlate
  case amof h f | aredf h f => exact exec_of_atomicChecks rfl rfl hrow p hlate
  case amotOpen h f =>
    exact exec_of_firstFault (srcA s c .ia f.sa) (srcB s c .ia f.sb) hrow rfl p hlate rfl rfl (.plain (by simp) rfl makes_windowBody)
  case amotSkip h f =>
    exact exec_of_firstFault (srcA s c .ia f.sa) (srcB s c .ia f.sb) hrow rfl p hlate rfl rfl (.plain (by simp) rfl makes_windowBody)
  case drainT h f =>
    exact exec_of_firstFault (srcA s c .ia f.sa) 0 hrow rfl p hlate rfl rfl (.skip rfl makes_windowBody)
  all_goals cases hrow
end Atomics

/-! ### The fabric and registers (R92, R97, R99, R100, R448, R449, R458, R459) -/

section Fabric
variable {s : State} {c : Ctx} {i : Instr} {h : Hdr} {u : Uses} {d : Trapping} {l : Checks}

theorem makes_landingBody {go : Ctx → Body} :
    Makes s c [plain (decide (64 ≤ c.lndcnt)) causeLandingLimit] (landingBody (issuing s c h u) go) := by
  rw [landingBody, withCtx_issuing]
  exact .plain (by simp) rfl makes_nil

theorem exec_of_fabricFault (hrow : fabricFault s c i = some d) (p : Issues s c i d.h d.u) (hlate : d.late = true → c.acquiring = false) :
    exec i s = .next ((d.on s).takeTrap s.focus.1 (.issue d.cause s.focus.2)) := by
  cases i
  case pseq h f => exact exec_of_firstFault (srcA s c .ia f.sa) 0 hrow rfl p hlate rfl rfl (.plain bne_iff_ne rfl makes_nil)
  case pflush h f => exact exec_of_firstFault (srcA s c .ia f.sa) 0 hrow rfl p hlate rfl rfl (.plain (by simp) rfl makes_nil)
  case rdig h f =>
    refine exec_of_firstFault (srcA s c .ia f.sa) 0 hrow rfl p hlate rfl rfl (.plain bne_iff_ne rfl ?_)
    rw [replicaBody, withCtx_issuing]
    exact .plain (by simp) rfl makes_nil
  case rcmp h f =>
    refine exec_of_firstFault (srcA s c .ia f.sa) 0 hrow rfl p hlate rfl rfl (.plain bne_iff_ne rfl ?_)
    rw [withCtx_issuing]
    exact .plain (by simp) rfl makes_landingBody
  all_goals cases hrow

/-- `ctxsv` and `ctxld` check their area in a handler alone; outside one they trap before (R97). -/
theorem makes_areaBody {load : Bool} {go : Nat → Nat → State → State} {a b : Word} :
    Makes s c [plain (c.inHandler && (s.areaFault c a b load).isSome) ((s.areaFault c a b load).getD 0),
      plain (c.inHandler && (load && s.areaBad c a.toNat b.toNat)) causeEccUe] (areaBody load go a b (issuing s c h u)) := by
  cases hin : c.inHandler with
  | false => exact .skip rfl (.skip rfl makes_nil)
  | true =>
    rw [areaBody, insideHandler_issuing hin, withCtx_issuing, areaFault_issuing, areaBad_issuing]
    cases s.areaFault c a b load with
    | some e => exact ⟨fun _ => rfl, fun h => by cases h⟩
    | none => exact .skip rfl (.plain (by simp) rfl makes_nil)

theorem inHandler_issueOn {cl : Cluster} {q : Bool} : (c.issueOn cl u q).inHandler = c.inHandler := by
  rw [Ctx.inHandler, Ctx.issueOn_susp, Ctx.inHandler]

theorem exec_of_registerFault (hrow : registerFault s c i = some d) (p : Issues s c i d.h d.u) (hlate : d.late = true → c.acquiring = false) :
    exec i s = .next ((d.on s).takeTrap s.focus.1 (.issue d.cause s.focus.2)) := by
  cases i
  case crw h f =>
    simp only [registerFault, ← dieOf_of_present p.present] at hrow
    refine exec_of_firstFault _ 0 hrow rfl p hlate rfl rfl ?_
    rw [regBody, withCtx_issuing]
    exact .plain (by simp [inHandler_issueOn]) (deliver_focus ..) makes_nil
  case ctxsv h f =>
    have hon : s.focus.2 = .c := eq_of_beq (Bool.and_eq_true_iff.mp p.legal).1
    exact exec_of_firstFault (ibA c f.sa) (ibB c f.sb) hrow rfl p hlate (by rw [hon]; rfl) (by rw [hon]; rfl)
      (makes_areaBody (load := false)).first
  case ctxld h f =>
    have hon : s.focus.2 = .c := eq_of_beq (Bool.and_eq_true_iff.mp p.legal).1
    exact exec_of_firstFault (ibA c f.sa) (ibB c f.sb) hrow rfl p hlate (by rw [hon]; rfl) (by rw [hon]; rfl)
      (makes_areaBody (load := true))
  all_goals cases hrow
end Fabric

/-! ### The scheduler and the package (R346 to R351, R376, R377, R404 to R412) -/

section OnC
variable {s : State} {c : Ctx} {i : Instr} {h : Hdr} {u : Uses} {d : Trapping} {l : Checks}

theorem onC_of_schedulerFault (hrow : schedulerFault s c i = some d) (hlegal : wellFormed s.focus.2 i = true) : s.focus.2 = .c := by
  cases i
  case launch | wchild | semSig | semWait | semInit | semRd | dgstRd =>
    simp only [wellFormed, Bool.and_eq_true, beq_iff_eq] at hlegal
    tauto
  all_goals cases hrow

theorem onC_of_packageFault (hrow : packageFault s c i = some d) (hlegal : wellFormed s.focus.2 i = true) : s.focus.2 = .c := by
  cases i
  case mbxSend | mbxRecv | mbxCnt | zlat | propPush | propPop | hznRd | hznWr | lnkSt | lnkRate =>
    simp only [wellFormed, Bool.and_eq_true, beq_iff_eq] at hlegal
    tauto
  all_goals cases hrow

/-- A word that names a semaphore checks its number before what its rule lists next (R350). -/
theorem makes_semBody {a : Word} {go : Ctx → Nat → Body}
    (hgo : ∀ n, Makes s c l (go (c.issueOn s.focus.2 u (Pends c s.focus.2 h u)) n)) :
    Makes s c (plain (s.semNumber c a).isNone causeSpaceFault :: l) (semBody (issuing s c h u) a go) := by
  rw [semBody, withCtx_issuing, semNumber_issuing]
  cases s.semNumber c a with
  | none => exact ⟨fun _ => rfl, fun h => by cases h⟩
  | some n => exact .skip rfl (hgo n)

theorem exec_of_schedulerFault (hrow : schedulerFault s c i = some d) (p : Issues s c i d.h d.u)
    (hlate : d.late = true → c.acquiring = false) : exec i s = .next ((d.on s).takeTrap s.focus.1 (.issue d.cause s.focus.2)) := by
  have hon := onC_of_schedulerFault hrow p.legal
  cases i
  case launch h f =>
    exact exec_of_firstFault (ibA c f.sa) (ibB c f.sb) hrow rfl p hlate (by rw [hon]; rfl) (by rw [hon]; rfl)
      (.plain bne_iff_ne rfl makes_landingBody)
  case wchild h f =>
    exact exec_of_firstFault (ibA c f.sa) (ibB c f.sb) hrow rfl p hlate (by rw [hon]; rfl) (by rw [hon]; rfl)
      (.plain bne_iff_ne rfl makes_landingBody)
  case semSig h f =>
    exact exec_of_firstFault (ibA c f.sa) (ibB c f.sb) hrow rfl p hlate (by rw [hon]; rfl) (by rw [hon]; rfl)
      (.plain bne_iff_ne rfl (makes_semBody fun _ => makes_nil))
  case semWait h f | semRd h f =>
    exact exec_of_firstFault (ibA c f.sa) 0 hrow rfl p hlate (by rw [hon]; rfl) rfl (makes_semBody fun _ => makes_landingBody)
  case semInit h f =>
    exact exec_of_firstFault (ibA c f.sa) (ibB c f.sb) hrow rfl p hlate (by rw [hon]; rfl) (by rw [hon]; rfl)
      (.plain (by simp) rfl makes_nil)
  case dgstRd h f => exact exec_of_firstFault (ibA c f.sa) 0 hrow rfl p hlate (by rw [hon]; rfl) rfl (.plain bne_iff_ne rfl makes_nil)
  all_goals cases hrow

/-- The 64 bytes of a package word are checked before what its rule lists next (R404). -/
theorem makes_blockBody {a : Word} {go : Ctx → Body} (hgo : Makes s c l (go (c.issueOn s.focus.2 u (Pends c s.focus.2 h u)))) :
    Makes s c (blockChecks c a ++ l) (blockBody a go (issuing s c h u)) := by
  rw [blockBody, withCtx_issuing, Ctx.blockFault, owns_issueOn, Ctx.issueOn_who]
  by_cases hspace : bits a 24 40 = 0
  · rw [if_neg (not_not.mpr hspace)]
    refine .skip (by simp [hspace]) ?_
    by_cases halign : bits a 0 6 = 0
    · rw [if_neg (not_not.mpr halign)]
      refine .skip (by simp [halign]) ?_
      cases hown : c.owns a.toNat 64 && populated c.who.die a.toNat with
      | true => exact .skip (by simpa using hown) hgo
      | false => exact .head (by simpa [imp_iff_not_or] using hown) rfl
    · rw [if_pos halign]
      exact .head (by simp [halign]) rfl
  · rw [if_pos hspace]
    exact .head (by simp [hspace]) rfl

/-- What a package word reads is checked before what its rule lists next (R404). -/
theorem makes_readBlock {a : Word} {go : List Byte → State → Body} (hgo : ∀ t, t.focus = s.focus → Makes s c l (go (blockAt s c a) t)) :
    Makes s c (readChecks s c a ++ l) (readBlock a go (issuing s c h u)) := by
  rw [readBlock, withCtx_issuing, core_issueOn, issuing_core]
  refine .found Iff.rfl rfl port_issueOn ?_
  unfold uninitBody
  rw [withCtx_issuing]
  cases (s.core c.core).invalidLine a.toNat 64 with
  | none => exact .skip rfl (hgo _ rfl)
  | some l => exact .found (by simp) rfl port_issueOn (hgo _ rfl)

theorem exec_of_packageFault (hrow : packageFault s c i = some d) (p : Issues s c i d.h d.u)
    (hlate : d.late = true → c.acquiring = false) : exec i s = .next ((d.on s).takeTrap s.focus.1 (.issue d.cause s.focus.2)) := by
  have hon := onC_of_packageFault hrow p.legal
  cases i
  case mbxCnt h f => exact exec_of_firstFault (ibA c f.sa) 0 hrow rfl p hlate (by rw [hon]; rfl) rfl (.plain bne_iff_ne rfl makes_nil)
  case zlat h f | lnkSt h f =>
    exact exec_of_firstFault (ibA c f.sa) 0 hrow rfl p hlate (by rw [hon]; rfl) rfl (.plain (by simp) rfl makes_nil)
  case hznRd h f =>
    exact exec_of_firstFault (ibA c f.sa) 0 hrow rfl p hlate (by rw [hon]; rfl) rfl (.plain bne_iff_ne rfl makes_landingBody)
  case hznWr h f | lnkRate h f =>
    exact exec_of_firstFault (ibA c f.sa) (ibB c f.sb) hrow rfl p hlate (by rw [hon]; rfl) (by rw [hon]; rfl)
      (.plain (by simp) rfl makes_nil)
  case mbxSend h f =>
    exact exec_of_firstFault (ibA c f.sa) (ibB c f.sb) hrow rfl p hlate (by rw [hon]; rfl) (by rw [hon]; rfl)
      (.plain bne_iff_ne rfl (makes_blockBody (.plain (by simp) rfl (makes_readBlock (l := []) fun _ _ => makes_nil))))
  case mbxRecv h f =>
    exact exec_of_firstFault (ibA c f.sa) (ibB c f.sb) hrow rfl p hlate (by rw [hon]; rfl) (by rw [hon]; rfl)
      (.plain bne_iff_ne rfl (makes_blockBody (l := []) makes_nil))
  case propPush h f =>
    refine exec_of_firstFault (ibA c f.sa) 0 hrow rfl p hlate (by rw [hon]; rfl) rfl ?_
    rw [List.append_assoc]
    refine makes_blockBody (makes_readBlock fun t ht => ?_)
    rw [ht]
    exact .held Iff.rfl makes_nil
  case propPop h f =>
    simp only [packageFault, ← dieOf_of_present p.present] at hrow
    exact exec_of_firstFault (ibA c f.sa) 0 hrow rfl p hlate (by rw [hon]; rfl) rfl (makes_blockBody makes_landingBody)
  all_goals cases hrow
end OnC

/-! ### Words with one fault of their own (R86, R90, R95 to R98, R200) -/

section Single
variable {s : State} {c : Ctx} {i : Instr} {h : Hdr} {u : Uses} {d : Trapping} {cause : Cause} {P : Prop} [Decidable P]
  {body : Word → Word → List Word → State → Body}

/-- A word with one fault, which it meets where a condition holds. -/
theorem exec_of_trap_if (hrow : (if P then some (⟨h, u, cause, none, false⟩ : Trapping) else none) = some d)
    (hexec : exec i s = word i h u body s) (p : Issues s c i d.h d.u)
    (hbody : P → body (c.value s.focus.2 u.sa) (c.value s.focus.2 u.sb) (c.dataOf u.data) (issuing s c h u) = .trap (.issue cause s.focus.2)) :
    exec i s = .next ((d.on s).takeTrap s.focus.1 (.issue d.cause s.focus.2)) := by
  obtain ⟨hP, hd⟩ := Option.ite_none_right_eq_some.mp hrow
  obtain rfl := Option.some.inj hd
  exact exec_of_trap hexec p (hbody hP)

/-- A word with one fault, which it meets unless a condition holds. -/
theorem exec_of_trap_unless (hrow : (if P then none else some (⟨h, u, cause, none, false⟩ : Trapping)) = some d)
    (hexec : exec i s = word i h u body s) (p : Issues s c i d.h d.u)
    (hbody : ¬P → body (c.value s.focus.2 u.sa) (c.value s.focus.2 u.sb) (c.dataOf u.data) (issuing s c h u) = .trap (.issue cause s.focus.2)) :
    exec i s = .next ((d.on s).takeTrap s.focus.1 (.issue d.cause s.focus.2)) := by
  obtain ⟨hP, hd⟩ := Option.ite_none_left_eq_some.mp hrow
  obtain rfl := Option.some.inj hd
  exact exec_of_trap hexec p (hbody hP)

theorem outsideHandler_traps (hin : c.inHandler = true) {b : Body} :
    outsideHandler (issuing s c h u) b = .trap (.issue causeIllegalOp s.focus.2) := by
  rw [outsideHandler, handling_issuing, hin]
  rfl

theorem insideHandler_traps (hout : ¬c.inHandler = true) {b : Body} :
    insideHandler (issuing s c h u) b = .trap (.issue causeIllegalOp s.focus.2) := by
  rw [insideHandler, handling_issuing, if_neg hout]
  rfl

theorem loopBody_traps {lc : BitVec 1} {n : BitVec 32} {off : BitVec 24} (hoff : ¬0 < off.toInt) :
    loopBody lc n off (issuing s c h u) = .trap (.issue causeIllegalOp s.focus.2) := by
  rw [loopBody, if_neg hoff]
  rfl

theorem arrayBody_traps {go : Ctx → State → Body} (hau : ¬c.who.au = true) :
    arrayBody go (issuing s c h u) = .trap (.issue causeSpaceFault s.focus.2) := by
  rw [arrayBody, withCtx_issuing, Ctx.issueOn_who, if_neg hau]
  rfl

theorem drainElems_of_present (hc : s.ctx? s.focus.1 = some c) : s.drainElems = pendingDrains c := by
  rw [State.drainElems, hc]
  rfl
end Single

/-! ### Loads and stores (R141, R144, R229, R272) -/

section Accesses
variable {s : State} {c : Ctx} {i : Instr} {h : Hdr} {u : Uses} {d : Trapping} {sp : Space} {a : Word} {n align : Nat}

theorem firstFault_nil : firstFault h u [] = none := rfl

theorem firstFault_cons {bad : Bool} {cause : Cause} {taken : Option Ctx} {late : Bool} {l : Checks} :
    firstFault h u ((bad, cause, taken, late) :: l) = if bad then some ⟨h, u, cause, taken, late⟩ else firstFault h u l := by
  cases bad <;> rfl

/-- The checks of a load. -/
def loadChecks (s : State) (c : Ctx) (sp : Space) (a : Word) (n align : Nat) : Checks :=
  [plain (s.checkAccess c sp a n align).isSome ((s.checkAccess c sp a n align).getD 0),
   plain (sp != .lsp && !c.mayAllot sp) causeLandingLimit]

theorem loadTrap_eq_firstFault : loadTrap s c sp h u a n align = firstFault h u (loadChecks s c sp a n align) := by
  unfold loadTrap loadChecks
  cases s.checkAccess c sp a n align <;> simp only [plain, firstFault_cons, firstFault_nil] <;> rfl

theorem makes_loadBody {lat ord sc : Nat} {set : List Byte → Landing → Landing} {base : Landing → Landing} {x y : Word} :
    Makes s c (loadChecks s c sp (loadAddr sp x y) n align) (loadBody sp n align lat ord sc set base x y (issuing s c h u)) := by
  unfold loadBody loadChecks
  rw [withCtx_issuing]
  dsimp only
  rw [checkAccess_issuing]
  cases s.checkAccess c sp (loadAddr sp x y) n align with
  | some e => exact .head rfl rfl
  | none =>
    refine .skip rfl ?_
    cases sp
    case lsp => exact .skip rfl makes_nil
    all_goals exact .plain (by simp) rfl makes_nil

theorem loadLat_of_present (hc : s.ctx? s.focus.1 = some c) {land : BitVec 20} : loadLat s sp land = landIn c sp land := by
  cases sp
  case lsp =>
    show s.lspLat = _
    rw [State.lspLat, hc]
    rfl
  all_goals rfl

theorem exec_of_loadTrapS {f : FmtLD} (hexec : exec i s = execLoad i sp h f s) (hrow : loadTrapS s c sp h f = some d)
    (p : Issues s c i d.h d.u) (hlate : d.late = true → c.acquiring = false) :
    exec i s = .next ((d.on s).takeTrap s.focus.1 (.issue d.cause s.focus.2)) := by
  rw [loadTrapS, loadTrap_eq_firstFault, ← loadLat_of_present p.present] at hrow
  exact exec_of_firstFault (srcA s c .ia f.sa) (srcB s c .ia f.sb) hrow hexec p hlate rfl rfl makes_loadBody

theorem exec_of_loadTrapV {f : FmtLDV} (hexec : exec i s = execLoadV i sp h f s) (hrow : loadTrapV s c sp h f = some d)
    (p : Issues s c i d.h d.u) (hlate : d.late = true → c.acquiring = false) :
    exec i s = .next ((d.on s).takeTrap s.focus.1 (.issue d.cause s.focus.2)) := by
  rw [loadTrapV, loadTrap_eq_firstFault] at hrow
  exact exec_of_firstFault (srcA s c .ia f.sa) (srcB s c .ia f.sb) hrow hexec p hlate rfl rfl makes_loadBody
/-- The checks of a store. -/
def storeChecks (s : State) (c : Ctx) (sp : Space) (a : Word) (n align : Nat) (es : List Nat) : Checks :=
  [plain (s.checkAccess c sp a n align).isSome ((s.checkAccess c sp a n align).getD 0), found (s.clobbers c sp a n) causeBarrierClobber c,
   ((c.uninitElem es).isSome && c.umode == 0, causeUninitRead, some (if sp == .lsp then c.usePort a.toNat else c), false)]

theorem storeTrap_eq_firstFault {es : List Nat} :
    storeTrap s c sp h u a n align es = firstFault h u (storeChecks s c sp a n align es) := by
  unfold storeTrap storeChecks
  cases s.checkAccess c sp a n align <;> simp only [plain, found, firstFault_cons, firstFault_nil] <;> rfl

/-- The context of a store that has taken its core port, if it goes to LSP (R151). -/
def storing (c : Ctx) (sp : Space) (a : Word) : Ctx := if sp == .lsp then c.usePort a.toNat else c

theorem clobbers_storing {cl : Cluster} {q : Bool} :
    (issuing s c h u).clobbers (storing (c.issueOn cl u q) sp a) sp a n = s.clobbers c sp a n := by
  unfold storing
  split
  · exact clobbers_issuing
  · exact clobbers_issuing

theorem umode_storing {cl : Cluster} {q : Bool} : (storing (c.issueOn cl u q) sp a).umode = c.umode := by
  unfold storing
  split <;> simp

theorem port_storing {cl : Cluster} {q : Bool} : { c with xPort := (storing (c.issueOn cl u q) sp a).xPort } = storing c sp a := by
  unfold storing
  split
  · exact port_usePort_issueOn
  · exact port_issueOn

theorem makes_storeBody {bytes : List Byte} {ord sc : Nat} {es : List Nat} {uninit : Option Word} (hn : bytes.length = n)
    (hu : uninit = c.uninitElem es) : Makes s c (storeChecks s c sp a n align es) (storeBody sp a align bytes ord sc uninit (issuing s c h u)) := by
  unfold storeBody storeChecks
  rw [withCtx_issuing, hn, hu, checkAccess_issuing]
  cases s.checkAccess c sp a n align with
  | some e => exact .head rfl rfl
  | none =>
    refine .skip rfl (.held (by rw [← clobbers_storing]; rfl) ⟨fun hbad => ?_, fun _ => makes_nil⟩)
    have huninit : ((c.uninitElem es).isSome &&
        decide ((storing (c.issueOn s.focus.2 u (Pends c s.focus.2 h u)) sp a).umode = 0)) = true := by
      rw [umode_storing]
      simpa using hbad
    exact ⟨fun d => { d with xPort := (storing (c.issueOn s.focus.2 u (Pends c s.focus.2 h u)) sp a).xPort }, port_storing,
      .inl (if_pos huninit)⟩

theorem exec_of_storeTrapS {f : FmtST} (hexec : exec i s = execStore i sp h f s) (hrow : storeTrapS s c sp h f = some d)
    (p : Issues s c i d.h d.u) (hlate : d.late = true → c.acquiring = false) :
    exec i s = .next ((d.on s).takeTrap s.focus.1 (.issue d.cause s.focus.2)) := by
  rw [storeTrapS, storeTrap_eq_firstFault] at hrow
  exact exec_of_firstFault (srcA s c .ia f.sa) (srcB s c .ia f.sb) hrow hexec p hlate rfl rfl (makes_storeBody (toBytes_length ..) rfl)

theorem length_operandBytes {f : BitVec 15} : (c.operandBytes f).length = 256 := by
  simp [Ctx.operandBytes, Ctx.lanes, List.length_flatMap, toBytes_length, Function.comp_def]

theorem exec_of_storeTrapV {f : FmtSTV} (hexec : exec i s = execStoreV i sp h f s) (hrow : storeTrapV s c sp h f = some d)
    (p : Issues s c i d.h d.u) (hlate : d.late = true → c.acquiring = false) :
    exec i s = .next ((d.on s).takeTrap s.focus.1 (.issue d.cause s.focus.2)) := by
  rw [storeTrapV, storeTrap_eq_firstFault] at hrow
  refine exec_of_firstFault (srcA s c .ia f.sa) 0 hrow hexec p hlate rfl rfl ?_
  rw [withCtx_issuing, uninitElem_issueOn]
  exact makes_storeBody length_operandBytes rfl
end Accesses

/-! ### M's reads of scratchpad, and MRF rows (R144, R211) -/

section Lanes
variable {s : State} {c : Ctx} {i : Instr} {h : Hdr} {u : Uses} {d : Trapping}

/-- The checks of a word of M that reads a half. -/
def halfChecks (s : State) (c : Ctx) (half n : Nat) (a : Word) : Checks :=
  let o := half * 2 ^ 22 + bits a 0 22
  [plain (!c.who.au || bits a 22 42 != 0) causeSpaceFault, plain (bits a 0 5 != 0) causeMisalign,
   plain (!(c.owns o n && populated c.who.die o)) causeSpaceFault, plain (c.xPort.contains half) causeBankConflict,
   found ((s.core c.core).badByte o n).isSome causeEccUe c,
   found (((s.core c.core).invalidLine o n).isSome && c.umode == 0) causeUninitRead c]

theorem halfTrap_eq_firstFault {half n : Nat} {sa : BitVec 4} :
    halfTrap s c h half n sa = firstFault h (usesH sa s) (halfChecks s c half n (srcA s c .ia sa)) := by
  unfold halfTrap halfChecks
  simp only [plain, found, firstFault_cons, firstFault_nil, bne_iff_ne, Bool.or_eq_true, decide_eq_true_eq]

theorem makes_halfBody {half n : Nat} {a : Word} {go : List Byte → State → Body} :
    Makes s c (halfChecks s c half n a) (halfBody half n a go (issuing s c h u)) := by
  unfold halfBody halfChecks
  cases hau : c.who.au with
  | false =>
    rw [arrayBody_traps (by simp [hau])]
    exact ⟨fun _ => rfl, fun h => by cases h⟩
  | true =>
    rw [arrayBody, withCtx_issuing, Ctx.issueOn_who, if_pos hau]
    refine .plain (by simp) rfl (.plain bne_iff_ne rfl (.plain (by simp) rfl (.plain (by simp) rfl ?_)))
    rw [core_issueOn, issuing_core]
    dsimp only
    cases (s.core c.core).badByte (half * 2 ^ 22 + bits a 0 22) n with
    | some x => exact .head_found rfl rfl port_issueOn
    | none =>
      refine .skip rfl ?_
      cases (s.core c.core).invalidLine (half * 2 ^ 22 + bits a 0 22) n with
      | none => exact .skip rfl makes_nil
      | some l => exact .found (by simp) rfl port_issueOn makes_nil

/-- A word whose body first looks for an invalid row among the elements that it reads. -/
theorem exec_of_rowTrap {es es' : List Nat} {go : Word → Word → List Word → Ctx → State → Body} (hrow : rowTrap c h u es = some d)
    (hexec : exec i s = word i h u (fun a b e t => elemsBody es' (go a b e) t) s) (hes : es' = es) (p : Issues s c i d.h d.u) :
    exec i s = .next ((d.on s).takeTrap s.focus.1 (.issue d.cause s.focus.2)) := by
  subst hes
  refine exec_of_trap_if hrow hexec p fun hinvalid => ?_
  obtain ⟨hrow, humode⟩ := Bool.and_eq_true_iff.mp hinvalid
  obtain ⟨w, hw⟩ := Option.isSome_iff_exists.mp hrow
  rw [elemsBody, withCtx_issuing, uninitElem_issueOn, hw, umode_issueOn]
  exact if_pos (eq_of_beq humode)

theorem elems_usesLanes_single {e : Bool × BitVec 15} : (usesLanes [e]).elems = readElems e.1 e.2 := by simp [usesLanes]

theorem permElems_of_present (hc : s.ctx? s.focus.1 = some c) {f : FmtV3} :
    permElems f s = readElems (wide f.ty) f.vb ++ laneElems (wide f.ty) f.va (c.picks (wide f.ty) f.vb) := by rw [permElems, hc]

/-- The words that write lanes. -/
theorem exec_of_laneTrap {w : LaneWord} (hlane : laneWord s c i = some w) (hrow : rowTrap c w.h w.u w.u.elems = some d)
    (p : Issues s c i d.h d.u) : exec i s = .next ((d.on s).takeTrap s.focus.1 (.issue d.cause s.focus.2)) := by
  cases i
  case vadd h f | vsub h f | vmul h f | vfma h f | vfms h f | vfnma h f | vmax h f | vmin h f | vabs h f | vneg h f | vdiv h f |
      vsqrt h f | vexp2 h f | vexp h f | vscale h f | viadd h f | visub h f | vimul h f | vimax h f | vimin h f | vand h f | vor h f |
      vxor h f | vshl h f | vshr h f | vsra h f | viota h f | vcmp h f | vicmp h f | vsel h f | vcvt h f | vunpack h f | vmov h f |
      vclr h f | vbcast h f =>
    obtain rfl := Option.some.inj hlane
    exact exec_of_rowTrap hrow rfl rfl p
  case vrot h f =>
    obtain rfl := Option.some.inj hlane
    exact exec_of_rowTrap hrow rfl (elems_usesLanes_single (e := (wide f.ty, f.va))).symm p
  case vperm h f =>
    rw [laneWord, ← permElems_of_present p.present] at hlane
    obtain rfl := Option.some.inj hlane
    exact exec_of_rowTrap hrow rfl rfl p
  case vins h f =>
    obtain rfl := Option.some.inj hlane
    cases hrow
  all_goals cases hlane

/-- The words that form a scalar from lanes, and `vpack`. -/
theorem exec_of_scalarTrap {e : Doing × List Nat} (hscalar : ((scalarWord s c i).orElse fun _ => packWord c i) = some e)
    (hrow : rowTrap c e.1.h e.1.u e.2 = some d) (p : Issues s c i d.h d.u) :
    exec i s = .next ((d.on s).takeTrap s.focus.1 (.issue d.cause s.focus.2)) := by
  cases i
  case vpopc h f | vrmax h f | vrmin h f | vrsum h f | vrargmax h f | vext h f | vpack h f =>
    obtain rfl := Option.some.inj hscalar
    exact exec_of_rowTrap hrow rfl rfl p
  all_goals cases hscalar

end Lanes

/-! ### The words of `trapWord` and `unitFault` -/

section All
variable {s : State} {c : Ctx} {i : Instr} {h : Hdr} {u : Uses} {d : Trapping}

theorem exec_of_jrTrap {f : FmtS2} (hrow : trapWord s c (.jr h f) = some d) (p : Issues s c (.jr h f) d.h d.u) :
    exec (.jr h f) s = .next ((d.on s).takeTrap s.focus.1 (.issue d.cause s.focus.2)) := by
  refine exec_of_trap_unless hrow rfl p fun halign => if_neg ?_
  rw [bits_zero]
  exact halign

theorem exec_of_retTrap (hrow : trapWord s c (.ret h) = some d) (p : Issues s c (.ret h) d.h d.u) :
    exec (.ret h) s = .next ((d.on s).takeTrap s.focus.1 (.issue d.cause s.focus.2)) := by
  refine exec_of_trap_if hrow rfl p fun hempty => ?_
  rw [returns_issuing, hempty]

theorem exec_of_crrTrap {f : FmtCR} (hrow : trapWord s c (.crr h f) = some d) (p : Issues s c (.crr h f) d.h d.u) :
    exec (.crr h f) s = .next ((d.on s).takeTrap s.focus.1 (.issue d.cause s.focus.2)) := by
  simp only [trapWord, ← dieOf_of_present p.present] at hrow
  exact exec_of_trap_unless hrow rfl p fun hread => if_neg hread

theorem exec_of_mwaitTrap (hrow : trapWord s c (.mwait h) = some d) (p : Issues s c (.mwait h) d.h d.u) :
    exec (.mwait h) s = .next ((d.on s).takeTrap s.focus.1 (.issue d.cause s.focus.2)) := by
  rw [trapWord, ← drainElems_of_present p.present] at hrow
  exact exec_of_trap_unless hrow rfl p fun hau => arrayBody_traps hau

theorem recordBytes_issuing : recordBytes (issuing s c h u) = if c.array.sp = 1 then 832 else 416 := by
  rw [recordBytes, issuing_focus, issuing_ctx?]
  exact congrArg (fun m : MatrixArray => if m.sp = 1 then 832 else 416) (Ctx.issueOn_array ..)

/-- A word of M that reads a half takes the trap of its first check that fails. -/
theorem exec_of_halfTrap {half n : Nat} {sa : BitVec 4} {go : List Byte → State → Body} {size : State → Nat}
    (hrow : halfTrap s c h half n sa = some d)
    (hexec : exec i s = word i h (usesH sa s) (fun a _ _ t => halfBody half (size t) a go t) s)
    (hsize : size (issuing s c h (usesH sa s)) = n) (p : Issues s c i d.h d.u) (hlate : d.late = true → c.acquiring = false) :
    exec i s = .next ((d.on s).takeTrap s.focus.1 (.issue d.cause s.focus.2)) := by
  rw [halfTrap_eq_firstFault] at hrow
  refine exec_of_firstFault (srcA s c .ia sa) 0 hrow hexec p hlate rfl rfl ?_
  rw [hsize]
  exact makes_halfBody

theorem exec_of_trapWord (hrow : trapWord s c i = some d) (p : Issues s c i d.h d.u) (hlate : d.late = true → c.acquiring = false) :
    exec i s = .next ((d.on s).takeTrap s.focus.1 (.issue d.cause s.focus.2)) := by
  cases i
  case div h f | divu h f | rem h f | remu h f => exact exec_of_trap_if hrow rfl p fun hzero => if_pos hzero
  case jr h f => exact exec_of_jrTrap hrow p
  case ret h => exact exec_of_retTrap hrow p
  case loop h f | loopi h f => exact exec_of_trap_unless hrow rfl p loopBody_traps
  case join h | halt h | trap h f | fork h f | yield h | exit h => exact exec_of_trap_if hrow rfl p fun hin => outsideHandler_traps hin
  case eret h | ctxsv h f | ctxld h f => exact exec_of_trap_unless hrow rfl p fun hout => insideHandler_traps hout
  case crr h f => exact exec_of_crrTrap hrow p
  case ldl h f | ldc h f | ldd h f | ldm h f | ldn h f | ldh h f => exact exec_of_loadTrapS rfl hrow p hlate
  case ldlV h f | ldcV h f | lddV h f | ldmV h f | ldnV h f | ldhV h f => exact exec_of_loadTrapV rfl hrow p hlate
  case stl h f | stc h f | std h f | stm h f | stn h f | sth h f => exact exec_of_storeTrapS rfl hrow p hlate
  case stlV h f | stcV h f | stdV h f | stmV h f | stnV h f | sthV h f => exact exec_of_storeTrapV rfl hrow p hlate
  case mdrain h f | mdrainc h f | mshift h f | mcfg h f | mclr h f | mexp h f | msat h f | mstat h f | mseed h f | mexpw h f =>
    exact exec_of_trap_unless hrow rfl p fun hau => arrayBody_traps hau
  case mwait h => exact exec_of_mwaitTrap hrow p
  case mbeat h f => exact exec_of_halfTrap hrow rfl recordBytes_issuing p hlate
  case mwload h f => exact exec_of_halfTrap (size := fun _ => 384) hrow rfl rfl p hlate
  case mbscale h f => exact exec_of_halfTrap (size := fun _ => 128) hrow rfl rfl p hlate
  case vadd h f | vsub h f | vmul h f | vfma h f | vfms h f | vfnma h f | vmax h f | vmin h f | vabs h f | vneg h f | vdiv h f |
      vsqrt h f | vexp2 h f | vexp h f | vscale h f | viadd h f | visub h f | vimul h f | vimax h f | vimin h f | vand h f | vor h f |
      vxor h f | vshl h f | vshr h f | vsra h f | viota h f | vcmp h f | vicmp h f | vsel h f | vcvt h f | vunpack h f | vmov h f |
      vclr h f | vperm h f | vrot h f | vbcast h f | vins h f => exact exec_of_laneTrap rfl hrow p
  case vpopc h f | vrmax h f | vrmin h f | vrsum h f | vrargmax h f | vext h f | vpack h f => exact exec_of_scalarTrap rfl hrow p
  all_goals cases hrow

/-- A fault of a unit's word is one of its family's. -/
theorem exec_of_unitFault (hrow : unitFault s c i = some d) (p : Issues s c i d.h d.u) (hlate : d.late = true → c.acquiring = false) :
    exec i s = .next ((d.on s).takeTrap s.focus.1 (.issue d.cause s.focus.2)) := by
  obtain ⟨o, ho, hd⟩ := List.exists_of_findSome?_eq_some hrow
  rw [show o = some d from hd] at ho
  simp only [List.mem_cons, List.not_mem_nil, or_false] at ho
  rcases ho with hf | hf | hf | hf | hf | hf | hf
  · exact exec_of_exchangeFault hf.symm p hlate
  · exact exec_of_barrierFault hf.symm p hlate
  · exact exec_of_atomicFault hf.symm p hlate
  · exact exec_of_fabricFault hf.symm p hlate
  · exact exec_of_registerFault hf.symm p hlate
  · exact exec_of_schedulerFault hf.symm p hlate
  · exact exec_of_packageFault hf.symm p hlate
end All

/-- Settles O30: the body of each word makes the checks of its rule in their order, so the first that fails is its trap. -/
theorem issueTraps : Obligations.IssueTraps := by
  unfold Obligations.IssueTraps
  rintro i s c d (hrow | hrow) p hlate
  · exact exec_of_trapWord hrow p hlate
  · exact exec_of_unitFault hrow p hlate
end Sys2Proof.Faults
end

section
/-! Memory at reset and under a step, stores, and faults inside a handler (O1, O2, O54, O59). -/

namespace Sys2Proof.Core

open Sys2Proof.Machine Sys2Proof.Safety Sys2Proof.Effects Sys2Proof.Areas Sys2Proof.Ignored

/-! ### Reset (R148, R166, R331, R360, R382, R428) -/

/-- After reset no core is listed, so each one is blank. -/
theorem core_reset (k : Nat) : State.reset.core k = .blank := rfl

/-- After reset every die, listed or not, is one that has been reset. -/
theorem die_reset (d : Nat) : State.reset.die d = .reset := by
  show ((FMap.lookup d State.reset.dies.items).getD .reset) = Die.reset
  simp only [State.reset, FMap.lookup]
  split_ifs <;> rfl

/-- Settles O1: no core is listed, and every die is a reset one. -/
theorem resetValues : Obligations.ResetValues := by
  unfold Obligations.ResetValues
  refine ⟨rfl, rfl, rfl, rfl, rfl, rfl, rfl, fun k o => ?_, fun d => ?_⟩
  · rw [core_reset]
    exact ⟨rfl, rfl⟩
  · rw [die_reset]
    exact ⟨rfl, rfl, fun _ => rfl, rfl, rfl⟩

/-- Settles O2: the three memories list no byte. -/
theorem memoryWfAtReset : Obligations.MemoryWfAtReset := by
  unfold Obligations.MemoryWfAtReset
  exact ⟨⟨Mem.wf_empty, Mem.wf_empty, Mem.wf_empty⟩, fun a => ⟨Mem.read_empty a, Mem.read_empty a, Mem.read_empty a⟩⟩

/-! ### Stores and clearings in a scratchpad (R148, R152, R239, R272) -/

section Stores
variable {m : CoreState} {o a : Nat} {b : Byte} {l : List Byte}

/-- A byte reads as written, also where its line was invalid (R148). -/
theorem get_put_self : (m.put o b).get o = b := by
  by_cases hvalid : m.lines.has (o / 64) = true
  · exact m.get_put_self o b hvalid
  · rw [Bool.not_eq_true] at hvalid
    simp [CoreState.put, CoreState.get, hvalid, has_add]

@[simp] theorem tags_put : (m.put o b).tags = m.tags := by
  unfold CoreState.put
  split <;> rfl

theorem get_puts_inside (ho : o ≤ a) (ha : a < o + l.length) : (m.puts o l).get a = l.getD (a - o) 0 := by
  induction l generalizing m o with
  | nil =>
    rw [List.length_nil] at ha
    omega
  | cons b l ih =>
    rw [List.length_cons] at ha
    rw [CoreState.puts]
    by_cases hfirst : a = o
    · subst hfirst
      rw [get_puts_outside _ (.inl (by omega)), get_put_self, Nat.sub_self]
      rfl
    · rw [ih (by omega) (by omega), show a - o = a - (o + 1) + 1 by omega, List.getD_cons_succ]

/-- Writing past the tagged granules writes the bytes of the others (R272). -/
theorem get_putsFree_inside (ho : o ≤ a) (ha : a < o + l.length) :
    (m.putsFree o l).get a = if m.tags.has (a / 16) = false then l.getD (a - o) 0 else m.get a := by
  induction l generalizing m o with
  | nil =>
    rw [List.length_nil] at ha
    omega
  | cons b l ih =>
    rw [List.length_cons] at ha
    rw [CoreState.putsFree]
    by_cases hfirst : a = o
    · subst hfirst
      rw [get_putsFree_outside _ (.inl (by omega)), Nat.sub_self, List.getD_cons_zero]
      cases m.tags.has (a / 16)
      · exact get_put_self
      · rfl
    · rw [ih (by omega) (by omega), show a - o = a - (o + 1) + 1 by omega, List.getD_cons_succ]
      split
      · rfl
      · rw [tags_put, get_put_of_ne _ hfirst]

/-- A granule of a byte that is written is not tagged where the write meets no tag. -/
theorem untagged_of_inside {n : Nat} (hfree : m.tagged o n = false) (ho : o ≤ a) (ha : a < o + n) : m.tags.has (a / 16) = false := by
  rw [CoreState.tagged, List.any_eq_false] at hfree
  simpa using hfree (a / 16) (mem_range.mpr (by omega))

/-- What a store from an offset upward leaves at each byte. -/
theorem get_putFree : (m.putFree o l).get a =
    if o ≤ a ∧ a < o + l.length ∧ m.tags.has (a / 16) = false then l.getD (a - o) 0 else m.get a := by
  by_cases hin : o ≤ a ∧ a < o + l.length
  · obtain ⟨ho, ha⟩ := hin
    simp only [ho, ha, true_and]
    unfold CoreState.putFree
    split
    · exact get_putsFree_inside ho ha
    · next hfree =>
      rw [if_pos (untagged_of_inside (eq_false_of_ne_true hfree) ho ha)]
      exact get_puts_inside ho ha
  · rw [get_putFree_outside m (by omega), if_neg fun h => hin ⟨h.1, h.2.1⟩]

theorem get_clearLines {line n : Nat} :
    (m.clearLines line n).get a = if line ≤ a / 64 ∧ a / 64 < line + n then 0 else m.get a := by
  by_cases hin : line ≤ a / 64 ∧ a / 64 < line + n
  · simp [CoreState.clearLines, CoreState.get, has_delIf, hin]
  · rw [if_neg hin, get_clearLines_outside m (by omega)]
end Stores

/-- Settles O54: by what `putFree` and `clearLines` leave at each byte. -/
theorem scratchpadStores : Obligations.ScratchpadStores := by
  unfold Obligations.ScratchpadStores
  exact ⟨fun _ _ _ _ => get_putFree, fun _ _ _ _ => get_clearLines, fun _ _ _ => rfl, fun _ _ _ _ => rfl⟩

/-! ### A fault inside the handler (R167, R356, R357) -/

section Handler
variable {s : State} {k : Nat} {c : Ctx} {i : TrapInfo}

/-- A delivery reaches the clusters and the queues alone (R24). -/
theorem land1_eq (c : Ctx) (cl : Cluster) (d : BitVec 6) (v : Word) (q n : Nat) :
    ∃ cls qs, c.land1 cl d v q n = { c with cls := cls, queues := qs } := by
  unfold Ctx.land1
  dsimp only
  split_ifs <;> exact ⟨_, _, rfl⟩

/-- A landing reaches the clusters, the queues and the MRF alone (R24). -/
theorem land_eq (c : Ctx) (l : Landing) : ∃ cls qs m, c.land l = { c with cls := cls, queues := qs, mrf := m } := by
  unfold Ctx.land
  dsimp only
  generalize (if c.inHandler then 0 else max l.due l.access + 1) = n
  obtain ⟨_, _, h1⟩ := land1_eq c l.cl l.d1 l.v1 l.q1 n
  obtain ⟨_, _, h2⟩ := land1_eq (c.land1 l.cl l.d1 l.v1 l.q1 n) l.cl l.d2 l.v2 l.q2 n
  rw [h2, h1]
  split <;> exact ⟨_, _, _, rfl⟩

/-- Landings keep the identity and CAUSE of their context. -/
theorem foldl_land_keeps (l : List Landing) (c : Ctx) : (l.foldl Ctx.land c).who = c.who ∧ (l.foldl Ctx.land c).cause = c.cause := by
  induction l generalizing c with
  | nil => exact ⟨rfl, rfl⟩
  | cons a l ih =>
    obtain ⟨_, _, _, ha⟩ := land_eq c a
    obtain ⟨hwho, hcause⟩ := ih (c.land a)
    exact ⟨by rw [List.foldl_cons, hwho, ha], by rw [List.foldl_cons, hcause, ha]⟩

/-- The end of a handler reaches its context and the bank of its die alone. -/
theorem leaveHandler_eq (hc : s.ctx? k = some c) (hin : c.inHandler = true) :
    ∃ d n v, s.leaveHandler k true = (s.setCtx k d).setDie n v ∧ d.inHandler = false ∧ d.who = c.who ∧ d.cause = c.cause := by
  obtain ⟨u, hu⟩ := Option.isSome_iff_exists.mp hin
  simp only [State.leaveHandler, hc, hu, if_true]
  exact ⟨_, _, _, rfl, rfl, foldl_land_keeps ..⟩

theorem offerTask_of_ctx? (hc : s.ctx? k = some c) : s.offerTask k i =
    { s.setCtx k { c with status := .stopped, phase := .rest } with
      offers := s.offers ++ [⟨k, c.who.run, c.who.launch, i.cause, i.sw, i.nonFatal⟩] } := by
  simp only [State.offerTask, hc]

theorem ctx?_report (die kind loc j : Nat) (cause : Cause) : (s.report die kind cause loc).ctx? j = s.ctx? j := rfl

theorem faultRegs_eq (n : Nat) : ∃ cores, s.faultRegs n i = { s with cores := cores } := by
  unfold State.faultRegs
  split <;> exact ⟨_, rfl⟩

/-- A fault inside a handler ends it, reports both causes and stops the context until containment acts (R167). -/
theorem takeTrap_in_handler (hc : s.ctx? k = some c) (hin : c.inHandler = true) :
    ∃ ctxs dies d q r, s.takeTrap k i = { s.faultRegs c.core i with
        ctxs := ctxs, dies := dies, offers := s.offers ++ [⟨k, c.who.run, c.who.launch, i.cause, i.sw, i.nonFatal⟩], reports := s.reports ++ [q, r] } ∧
      ctxs.find? k = some d ∧ d.inHandler = false ∧ d.status = .stopped ∧ d.cause = c.cause ∧
      (∀ j, j ≠ k → ctxs.find? j = s.ctx? j) ∧ q.cause = BitVec.ofNat 8 (reportable (bits c.cause 0 8)) ∧ r.cause = i.cause := by
  obtain ⟨cores, hregs⟩ := faultRegs_eq (s := s) (i := i) c.core
  have hthere : (s.faultRegs c.core i).ctx? k = some c := (ctx?_faultRegs ..).trans hc
  obtain ⟨d, n, v, hleft, hout, hwho, hcause⟩ := leaveHandler_eq hthere hin
  simp only [State.takeTrap, hc, hin, if_true, hleft]
  rw [State.modCtx_of_ctx? ((State.setCtx _ k d).setDie n v) k _ d (State.ctx?_setCtx_self ..), 
    offerTask_of_ctx? (c := { d with verdict := .trapped }) (by simp only [ctx?_report, State.ctx?_setCtx_self]), hregs]
  simp only [State.report, State.setCtx, hwho, List.append_assoc, List.cons_append, List.nil_append]
  refine ⟨_, _, _, _, _, rfl, FMap.find?_insert_self .., hout, rfl, hcause, fun j hj => ?_, rfl, rfl⟩
  rw [FMap.find?_insert_ne _ _ _ _ hj]
  exact (FMap.find?_insert_ne _ _ _ _ hj).trans (FMap.find?_insert_ne _ _ _ _ hj)
end Handler

/-- Settles O59: by the state in which a fault inside a handler leaves the machine. -/
theorem handlerFaults : Obligations.HandlerFaults := by
  unfold Obligations.HandlerFaults
  intro s k c i hc hin
  obtain ⟨ctxs, dies, d, q, r, htrap, hd, hout, hstopped, hcause, hothers, hq, hr⟩ := takeTrap_in_handler (i := i) hc hin
  obtain ⟨hhbm, hhost, hpeer⟩ : (s.takeTrap k i).hbm = s.hbm ∧ (s.takeTrap k i).hostMem = s.hostMem ∧ (s.takeTrap k i).peerMem = s.peerMem := by
    simpa [State.memories] using s.memories_takeTrap k i
  have hscratch : ∀ j o, ((s.takeTrap k i).core j).get o = (s.core j).get o := fun j o => by
    rw [htrap]
    exact get_faultRegs ..
  refine ⟨⟨d, by rw [htrap]; exact hd, hout, hstopped, hcause⟩, ⟨_, by rw [htrap], rfl, rfl, rfl, rfl⟩, ⟨q, r, by rw [htrap], hq, hr⟩,
    fun j hj => ?_, ⟨fun a => by rw [hhbm], fun a => by rw [hhost], fun a => by rw [hpeer], hscratch⟩⟩
  rw [htrap]
  exact hothers j hj

end Sys2Proof.Core
end

section
/-! Every step keeps memory canonical (O3). -/

namespace Sys2Proof.Safety

open Sys2Proof.Machine

/-! ### States, outcomes and bodies whose memories are canonical -/

variable {s : State}

/-- A state with the memories of another one. -/
theorem MemoryWf.of_memories (w : MemoryWf s) {t : State} (h : t.memories = s.memories) : MemoryWf t := by
  show memoriesWf t.memories
  rw [h]
  exact w

/-- An update of any fields but the memories. -/
@[simp] theorem MemoryWf.same (w : MemoryWf s) {agenda slots focus serial ctxs cores dies net cmds sealed dirty poison retired errors runs gangs
      launches childWaits offers reports links zone zoneCopy calib resetSince deskewing hostCtxs keys log logFull logLost journal fw admin adminSeq
      boots seqs pq depthTab qzero kvGeom kv rings kvReports fab} :
    MemoryWf ⟨agenda, slots, focus, serial, ctxs, cores, dies, net, cmds, s.hbm, sealed, dirty, s.hostMem, s.peerMem, poison, retired, errors,
      runs, gangs, launches, childWaits, offers, reports, links, zone, zoneCopy, calib, resetSince, deskewing, hostCtxs, keys, log, logFull,
      logLost, journal, fw, admin, adminSeq, boots, seqs, pq, depthTab, qzero, kvGeom, kv, rings, kvReports, fab⟩ := w

theorem MemoryWf.of_fst {α : Type} {p : State × α} {t : State} {a : α} (w : MemoryWf p.1) (h : p = (t, a)) : MemoryWf t := by
  rw [h] at w
  exact w

theorem MemoryWf.getD (w : MemoryWf s) {o : Option State} (ho : ∀ t, o = some t → MemoryWf t) : MemoryWf (o.getD s) := by
  cases o with
  | none => exact w
  | some t => exact ho t rfl

@[simp] theorem MemoryWf.ite {p : Prop} [Decidable p] {t u : State} (wt : MemoryWf t) (wu : MemoryWf u) : MemoryWf (if p then t else u) := by
  split
  · exact wt
  · exact wu

@[simp] theorem MemoryWf.foldl {α : Type} {f : State → α → State} {l : List α} (w : MemoryWf s)
    (hf : ∀ t a, MemoryWf t → MemoryWf (f t a)) : MemoryWf (l.foldl f s) := by
  induction l generalizing s with
  | nil => exact w
  | cons a l ih => exact ih (hf s a w)

theorem MemoryWf.foldl_fst {α β : Type} {f : State × β → α → State × β} {l : List α} {p : State × β} (w : MemoryWf p.1)
    (hf : ∀ q a, MemoryWf q.1 → MemoryWf (f q a).1) : MemoryWf (l.foldl f p).1 := by
  induction l generalizing p with
  | nil => exact w
  | cons a l ih => exact ih (hf p a w)

/-- The next state of an outcome, if there is one, has canonical memories. -/
def NextWf : Host.Outcome State Fault Refusal → Prop
  | .next t => MemoryWf t
  | _ => True

@[simp] theorem nextWf_next : NextWf (.next s) ↔ MemoryWf s := Iff.rfl

/-- The state that a body goes on with, if there is one, has canonical memories. -/
def BodyWf : Body → Prop
  | .ok t | .jump t _ | .finish t => MemoryWf t
  | _ => True

/-! ### Machine/Ops -/

@[simp] theorem MemoryWf.setCtx (w : MemoryWf s) {k c} : MemoryWf (State.setCtx s k c) := w

@[simp] theorem MemoryWf.modCtx (w : MemoryWf s) {k f} : MemoryWf (State.modCtx s k f) := by
  unfold State.modCtx
  split <;> simp [w]

@[simp] theorem MemoryWf.setCore (w : MemoryWf s) {k c} : MemoryWf (State.setCore s k c) := w

@[simp] theorem MemoryWf.modCore (w : MemoryWf s) {k f} : MemoryWf (State.modCore s k f) := w

@[simp] theorem MemoryWf.setDie (w : MemoryWf s) {d v} : MemoryWf (State.setDie s d v) := w

@[simp] theorem MemoryWf.modDie (w : MemoryWf s) {d f} : MemoryWf (State.modDie s d f) := w

@[simp] theorem MemoryWf.deliver2 (w : MemoryWf s) {d1 d2 v1 v2 lat} : MemoryWf (State.deliver2 s d1 d2 v1 v2 lat) := by
  unfold State.deliver2
  split <;> simp [w]

@[simp] theorem MemoryWf.deliver (w : MemoryWf s) {d1 d2 v lat} : MemoryWf (State.deliver s d1 d2 v lat) := by simp [State.deliver, w]

@[simp] theorem MemoryWf.deliverPreds (w : MemoryWf s) {mask v} : MemoryWf (State.deliverPreds s mask v) := by
  unfold State.deliverPreds
  split <;> simp [w]

@[simp] theorem MemoryWf.deliverElems (w : MemoryWf s) {operand elems vals lat} : MemoryWf (State.deliverElems s operand elems vals lat) := by
  unfold State.deliverElems
  split <;> simp [w]

@[simp] theorem MemoryWf.report (w : MemoryWf s) {die kind cause loc} : MemoryWf (State.report s die kind cause loc) := w

@[simp] theorem MemoryWf.offerTask (w : MemoryWf s) {k i} : MemoryWf (State.offerTask s k i) := by
  unfold State.offerTask
  split <;> simp [w]

@[simp] theorem MemoryWf.leaveHandler (w : MemoryWf s) {k keep} : MemoryWf (State.leaveHandler s k keep) := by
  unfold State.leaveHandler
  repeat' split
  all_goals simp [w]

@[simp] theorem MemoryWf.eret (w : MemoryWf s) {k} : MemoryWf (State.eret s k) := by simp [State.eret, w]

@[simp] theorem MemoryWf.enterHandler (w : MemoryWf s) {k} : MemoryWf (State.enterHandler s k) := by
  unfold State.enterHandler
  split <;> simp [w]

@[simp] theorem MemoryWf.faultRegs (w : MemoryWf s) {core i} : MemoryWf (State.faultRegs s core i) := by simp [State.faultRegs, w]

@[simp] theorem MemoryWf.takeTrap (w : MemoryWf s) {k i} : MemoryWf (s.takeTrap k i) := w.of_memories (s.memories_takeTrap k i)

/-! ### Machine/Issue -/

theorem MemoryWf.conclude (w : MemoryWf s) {k cl c mem} {b : Body} (hb : BodyWf b) : MemoryWf (s.conclude k cl c mem b) := by
  cases b with
  | trap | wait | trapWith | gated => simp [State.conclude, w]
  | late => exact .ite w.setCtx w.setCtx.takeTrap
  | ok => exact .ite w.setCtx (MemoryWf.modCtx hb)
  | jump | finish => exact MemoryWf.modCtx hb

theorem MemoryWf.run (w : MemoryWf s) {k cl c u pend body} (hb : ∀ a b l t, MemoryWf t → BodyWf (body a b l t)) :
    MemoryWf (s.run k cl c u pend body) :=
  w.conclude (hb _ _ _ _ w.setCtx)

theorem MemoryWf.examine (w : MemoryWf s) {i h u body} (hb : ∀ a b l t, MemoryWf t → BodyWf (body a b l t)) :
    MemoryWf (s.examine i h u body) := by
  unfold State.examine
  dsimp only
  repeat' split
  all_goals simp [w, w.run hb]

/-! ### Machine/Control -/

@[simp] theorem MemoryWf.modCl (w : MemoryWf s) {f} : MemoryWf (State.modCl s f) := by simp [State.modCl, w]

/-! ### Machine/View -/

@[simp] theorem MemoryWf.fill (w : MemoryWf s) {d n seg} : MemoryWf (State.fill s d n seg) := by
  unfold State.fill
  dsimp only
  repeat' split
  all_goals simp [w]

@[simp] theorem MemoryWf.dropDecoded (w : MemoryWf s) {pa} : MemoryWf (s.dropDecoded pa) := w.of_memories (s.memories_dropDecoded pa)

@[simp] theorem MemoryWf.fillFor (w : MemoryWf s) {d pa n} : MemoryWf (s.fillFor d pa n) :=
  w.foldl fun _ _ wt => .ite wt wt.fill

/-! ### Machine/Home -/

@[simp] theorem MemoryWf.cacheLeaf (w : MemoryWf s) {k va} : MemoryWf (State.cacheLeaf s k va) := by
  unfold State.cacheLeaf
  split <;> simp [w]

@[simp] theorem MemoryWf.cacheFor (w : MemoryWf s) {k sp addr n} : MemoryWf (State.cacheFor s k sp addr n) := by
  unfold State.cacheFor
  repeat' split
  all_goals simp [w]

@[simp] theorem MemoryWf.poke (w : MemoryWf s) {h b} : MemoryWf (s.poke h b) := s.poke_wf h b w

@[simp] theorem MemoryWf.pokes (w : MemoryWf s) {hs bs} : MemoryWf (s.pokes hs bs) := State.pokes_wf hs s bs w

@[simp] theorem MemoryWf.sealUnder (w : MemoryWf s) {slot l} : MemoryWf (State.sealUnder s slot l) := w

@[simp] theorem MemoryWf.cleanse (w : MemoryWf s) {l} : MemoryWf (State.cleanse s l) := by
  unfold State.cleanse
  split <;> simp [w]

@[simp] theorem MemoryWf.fold (w : MemoryWf s) {k records} : MemoryWf (State.fold s k records) := by
  unfold State.fold
  split <;> simp [w]

@[simp] theorem MemoryWf.foldWrite (w : MemoryWf s) {k c sp addr bytes} : MemoryWf (State.foldWrite s k c sp addr bytes) := by
  unfold State.foldWrite
  split <;> simp [w]

@[simp] theorem MemoryWf.fillHomes (w : MemoryWf s) {l} : MemoryWf (s.fillHomes l) :=
  w.foldl fun _ _ wt => by
    split
    · exact wt.fillFor
    · exact wt

@[simp] theorem MemoryWf.prefill (w : MemoryWf s) {c sp addr n} : MemoryWf (State.prefill s c sp addr n) := by
  unfold State.prefill
  split <;> simp [w]

@[simp] theorem MemoryWf.setBytes (w : MemoryWf s) {c addr l bytes} : MemoryWf (s.setBytes c addr l bytes) := s.setBytes_wf c addr l bytes w

@[simp] theorem MemoryWf.writeAt (w : MemoryWf s) {c sp addr bytes} : MemoryWf (State.writeAt s c sp addr bytes).1 := by
  unfold State.writeAt
  split <;> simp [w]

@[simp] theorem MemoryWf.setPacket (w : MemoryWf s) {id p} : MemoryWf (State.setPacket s id p) := w

@[simp] theorem MemoryWf.dropPacket (w : MemoryWf s) {id} : MemoryWf (State.dropPacket s id) := w

@[simp] theorem MemoryWf.send (w : MemoryWf s) {k cl sp addr act ord sc land chunk after} :
    MemoryWf (s.send k cl sp addr act ord sc land chunk after) := by
  unfold State.send
  dsimp only
  split
  · exact w.cacheFor
  · exact w.cacheFor.setCtx.setPacket.same

@[simp] theorem MemoryWf.deferFault (w : MemoryWf s) {k seq kind i} : MemoryWf (State.deferFault s k seq kind i) := by simp [State.deferFault, w]

@[simp] theorem MemoryWf.failPacket (w : MemoryWf s) {id p cause addr} : MemoryWf (State.failPacket s id p cause addr) := by
  unfold State.failPacket
  split <;> simp [w]

@[simp] theorem MemoryWf.hear (w : MemoryWf s) {p} : MemoryWf (State.hear s p) := by simp [State.hear, w]

@[simp] theorem MemoryWf.applyLoad (w : MemoryWf s) {id p c n} : MemoryWf (s.applyLoad id p c n) := by
  unfold State.applyLoad
  dsimp only
  split
  · exact w.prefill.failPacket
  · split
    · exact w.prefill.failPacket
    · exact w.prefill.hear.modCtx.setPacket

@[simp] theorem MemoryWf.applyStore (w : MemoryWf s) {id p c bytes} : MemoryWf (State.applyStore s id p c bytes) := by
  unfold State.applyStore
  dsimp only
  split <;> simp [w]

@[simp] theorem MemoryWf.uncredit (w : MemoryWf s) {id n} : MemoryWf (State.uncredit s id n) := w

@[simp] theorem MemoryWf.applyLine (w : MemoryWf s) {id p c bytes} : MemoryWf (State.applyLine s id p c bytes) := by
  unfold State.applyLine
  repeat' split
  all_goals simp [w]

/-! ### Machine/Records -/

@[simp] theorem MemoryWf.putArea (w : MemoryWf s) {a off bytes} : MemoryWf (State.putArea s a off bytes) := w

@[simp] theorem MemoryWf.putRecord (w : MemoryWf s) {a n e} : MemoryWf (State.putRecord s a n e) := by
  unfold State.putRecord
  split <;> simp [w]

@[simp] theorem MemoryWf.answerSaved (w : MemoryWf s) {k id} : MemoryWf (s.answerSaved k id) := by
  unfold State.answerSaved
  split
  · exact w
  · exact .ite w (w.foldl fun _ _ wt => .ite wt wt.putRecord).modCtx

@[simp] theorem MemoryWf.answer (w : MemoryWf s) {k id f} : MemoryWf (State.answer s k id f) := by simp [State.answer, w]

/-! ### Machine/Memory -/

@[simp] theorem MemoryWf.addLanding (w : MemoryWf s) {f lat} : MemoryWf (State.addLanding s f lat) := by
  unfold State.addLanding
  split <;> simp [w]

@[simp] theorem MemoryWf.sendLoads (w : MemoryWf s) {sp addr ord sc land l} : MemoryWf (s.sendLoads sp addr ord sc land l) := by
  induction l generalizing s with
  | nil => exact w
  | cons a l ih => exact ih w.send

@[simp] theorem MemoryWf.sendStores (w : MemoryWf s) {sp addr ord sc l} : MemoryWf (s.sendStores sp addr ord sc l) := by
  induction l generalizing s addr with
  | nil => exact w
  | cons b l ih => exact ih w.send

/-! ### Machine/Exchange -/

@[simp] theorem MemoryWf.addHold (w : MemoryWf s) {h} : MemoryWf (State.addHold s h) := by simp [State.addHold, w]

/-! ### Machine/Matrix -/

@[simp] theorem MemoryWf.modArray (w : MemoryWf s) {f} : MemoryWf (State.modArray s f) := by simp [State.modArray, w]

@[simp] theorem MemoryWf.drainRow (w : MemoryWf s) {dacc dt df} : MemoryWf (State.drainRow s dacc dt df) := by
  unfold State.drainRow
  split <;> simp [w]

@[simp] theorem MemoryWf.drainIf (w : MemoryWf s) {f} : MemoryWf (State.drainIf s f) := by simp [State.drainIf, w]

/-! ### Machine/Barrier -/

@[simp] theorem MemoryWf.wakeAll (w : MemoryWf s) {core o status} : MemoryWf (s.wakeAll core o status) :=
  (w.foldl fun _ _ wt => wt.hear : MemoryWf (List.foldl State.hear s _)).same

@[simp] theorem MemoryWf.setBar (w : MemoryWf s) {core o x} : MemoryWf (State.setBar s core o x) := w

@[simp] theorem MemoryWf.settle (w : MemoryWf s) {core o x} : MemoryWf (State.settle s core o x).1 := by
  unfold State.settle
  split <;> simp [w]

@[simp] theorem MemoryWf.breakBar (w : MemoryWf s) {core o} : MemoryWf (State.breakBar s core o) := by
  unfold State.breakBar
  dsimp only
  split <;> simp [w]

@[simp] theorem MemoryWf.creditBar (w : MemoryWf s) {core o bytes reg} : MemoryWf (State.creditBar s core o bytes reg).1 := by
  unfold State.creditBar
  dsimp only
  repeat' split
  all_goals simp [w]

@[simp] theorem MemoryWf.arriveBar (w : MemoryWf s) {core o n reg} : MemoryWf (State.arriveBar s core o n reg).1 := by
  unfold State.arriveBar
  dsimp only
  repeat' split
  all_goals simp [w]

@[simp] theorem MemoryWf.initBar (w : MemoryWf s) {core o n ctx expa ph free} : MemoryWf (State.initBar s core o n ctx expa ph free).1 := by
  unfold State.initBar
  dsimp only
  repeat' split
  all_goals simp [w]

@[simp] theorem MemoryWf.barEvent (w : MemoryWf s) {core o n ctx act} : MemoryWf (State.barEvent s core o n ctx act).1 := by
  unfold State.barEvent
  dsimp only
  repeat' split
  all_goals simp [w]

@[simp] theorem MemoryWf.applyBarrier (w : MemoryWf s) {id p c} : MemoryWf (s.applyBarrier id p c) := by
  unfold State.applyBarrier
  dsimp only
  split
  · exact w.failPacket
  · have wt := w.barEvent (core := (s.cspHome p).1) (o := (s.cspHome p).2) (n := p.lcore % 8) (ctx := p.ctx) (act := p.act)
    repeat' split
    all_goals simp [wt]

@[simp] theorem MemoryWf.atHome (w : MemoryWf s) {id p c} {t : State} (wt : MemoryWf t) : MemoryWf (s.atHome id p c t) :=
  .ite w.failPacket wt

theorem nextWf_execBarrierEventApply (w : MemoryWf s) {req} : NextWf (execBarrierEventApply req s) := by
  unfold execBarrierEventApply
  repeat' split
  all_goals simp [w]

@[simp] theorem MemoryWf.mcastLines (w : MemoryWf s) {core off l} : MemoryWf (s.mcastLines core off l) := by
  induction l generalizing s off with
  | nil => exact w
  | cons b l ih => exact ih w.send

@[simp] theorem MemoryWf.mcastSend (w : MemoryWf s) {b data} : MemoryWf (s.mcastSend b data) := by
  have lines {cores : List Nat} {off l} : MemoryWf (cores.foldl (fun s n => s.mcastLines n off l) s) := w.foldl fun _ _ wt => wt.mcastLines
  exact .ite lines (.ite (lines.foldl fun _ _ wt => wt.send) lines.send)

end Sys2Proof.Safety
end

section
/-! Every step keeps memory canonical (O3): arrivals, the mover and the save area. -/

namespace Sys2Proof.Safety

open Sys2Proof.Machine

variable {s : State}

/-! ### Machine/Atomic -/

@[simp] theorem MemoryWf.foldAtomic (w : MemoryWf s) {p} : MemoryWf (State.foldAtomic s p) := by
  unfold State.foldAtomic
  split <;> simp [w]

@[simp] theorem MemoryWf.reply (w : MemoryWf s) {id p data} : MemoryWf (State.reply s id p data) := by
  unfold State.reply
  split <;> simp [w]

@[simp] theorem MemoryWf.applyAtomic (w : MemoryWf s) {id p c} : MemoryWf (s.applyAtomic id p c) := by
  unfold State.applyAtomic
  dsimp only
  split
  · exact w.failPacket
  · refine .ite w.failPacket (.ite w.failPacket ?_)
    split
    · exact w.foldAtomic.reply
    · exact w.pokes.sealUnder.foldAtomic.reply

@[simp] theorem MemoryWf.applyCarried (w : MemoryWf s) {id} : MemoryWf (s.applyCarried id) := by
  unfold State.applyCarried
  repeat' split
  all_goals simp [w]

theorem nextWf_execAtomicHomeApply (w : MemoryWf s) {req} : NextWf (execAtomicHomeApply req s) := by
  unfold execAtomicHomeApply
  rw [nextWf_next]
  split
  · exact w
  · split
    · exact .ite ((w.atHome w.applyAtomic).foldl fun _ _ wt => wt.applyCarried) w
    · exact .ite (w.atHome w.applyAtomic) w
    · exact w

theorem nextWf_execRouterMerge (w : MemoryWf s) {req other} : NextWf (execRouterMerge req other s) := by
  unfold execRouterMerge
  repeat' split
  all_goals simp [w]

@[simp] theorem MemoryWf.modWins (w : MemoryWf s) {h f} : MemoryWf (State.modWins s h f) := by
  unfold State.modWins
  split <;> simp [w]

@[simp] theorem MemoryWf.setWin (w : MemoryWf s) {h x1} : MemoryWf (State.setWin s h x1) := by simp [State.setWin, w]

@[simp] theorem MemoryWf.discard (w : MemoryWf s) {x} : MemoryWf (s.discard x) :=
  w.foldl fun _ _ wt => by
    split
    · exact wt
    · exact wt.failPacket

@[simp] theorem MemoryWf.freeWin (w : MemoryWf s) {h} : MemoryWf (State.freeWin s h) := by
  unfold State.freeWin
  split <;> simp [w]

@[simp] theorem MemoryWf.breakWin (w : MemoryWf s) {h} : MemoryWf (State.breakWin s h) := by
  unfold State.breakWin
  split <;> simp [w]

@[simp] theorem MemoryWf.applyTicket (w : MemoryWf s) {h id p} : MemoryWf (s.applyTicket h id p) := by
  unfold State.applyTicket
  dsimp only
  split
  · refine .ite w.failPacket (.ite w.failPacket ?_)
    split
    · exact w.pokes.foldAtomic.reply
    · exact w.pokes.sealUnder.foldAtomic.reply
  · exact w.dropPacket

@[simp] theorem MemoryWf.nextTicket (w : MemoryWf s) {h} : MemoryWf (State.nextTicket s h) := by
  unfold State.nextTicket
  split <;> simp [w]

@[simp] theorem MemoryWf.takeDue (w : MemoryWf s) {h n} : MemoryWf (s.takeDue h n) := by
  induction n generalizing s with
  | zero => exact w
  | succ n ih =>
    unfold State.takeDue
    split
    · exact w
    · split
      · exact w
      · refine ih ?_
        split
        · exact w.setWin.nextTicket
        · exact .ite w.setWin.nextTicket.applyTicket w.setWin.nextTicket

@[simp] theorem MemoryWf.meetWindow (w : MemoryWf s) {h id p t} : MemoryWf (s.meetWindow h id p t) := by
  unfold State.meetWindow
  dsimp only
  split
  · exact w.failPacket
  · split_ifs <;> simp [w, w.nextTicket.applyTicket]

@[simp] theorem MemoryWf.openWindow (w : MemoryWf s) {h id p first close} : MemoryWf (s.openWindow h id p first close) := by
  unfold State.openWindow
  dsimp only
  split
  · exact w.freeWin.dropPacket
  · split
    · exact .ite w.failPacket w.setWin.dropPacket
    · exact .ite w.setWin.dropPacket w.discard.setWin.dropPacket

@[simp] theorem MemoryWf.ticketArrives (w : MemoryWf s) {id p c} : MemoryWf (State.ticketArrives s id p c) := by
  unfold State.ticketArrives
  repeat' split
  all_goals simp [w]

@[simp] theorem MemoryWf.strike (w : MemoryWf s) {id p c} : MemoryWf (s.strike id p c) := by
  have due {h : HomeOf} : MemoryWf (((s.nextTicket h).failPacket id p causeEccUe p.addr).takeDue h 64) := w.nextTicket.failPacket.takeDue
  unfold State.strike
  repeat' split
  all_goals simp [w, due]

theorem nextWf_execTicketRequestArrival (w : MemoryWf s) {req} : NextWf (execTicketRequestArrival req s) := by
  unfold execTicketRequestArrival
  rw [nextWf_next]
  repeat' split
  all_goals simp [w]

theorem nextWf_execRetryResend (w : MemoryWf s) {req} : NextWf (execRetryResend req s) := by
  unfold execRetryResend
  dsimp only
  repeat' split
  all_goals simp [w]

theorem nextWf_execGapTimerExpiry (w : MemoryWf s) {win} : NextWf (execGapTimerExpiry win s) := by
  unfold execGapTimerExpiry
  dsimp only
  repeat' split
  all_goals simp [w]

@[simp] theorem MemoryWf.trapAfter (w : MemoryWf s) {i} : MemoryWf (State.trapAfter s i) := by simp [State.trapAfter, w]

/-! ### Machine/Arrival -/

@[simp] theorem MemoryWf.acknowledge (w : MemoryWf s) {n} : MemoryWf (State.acknowledge s n) := w

@[simp] theorem MemoryWf.acked (w : MemoryWf s) {p} : MemoryWf (State.acked s p) := by simp [State.acked, w]

@[simp] theorem MemoryWf.loseSight (w : MemoryWf s) {l} : MemoryWf (State.loseSight s l) := w

@[simp] theorem MemoryWf.applyAccess (w : MemoryWf s) {id p c} : MemoryWf (s.applyAccess id p c) := by
  unfold State.applyAccess
  split
  · exact (w.atHome w.applyLoad).acked
  · exact .ite w.failPacket (w.atHome w.applyStore).acked
  · exact w.atHome w.applyLine
  · exact w

theorem nextWf_execHomeAccessApply (w : MemoryWf s) {req} : NextWf (execHomeAccessApply req s) := by
  unfold execHomeAccessApply
  repeat' split
  all_goals simp [w]

theorem nextWf_execEgressBufferDrain (w : MemoryWf s) {req} : NextWf (execEgressBufferDrain req s) := by
  unfold execEgressBufferDrain
  dsimp only
  repeat' split
  all_goals simp [w]

@[simp] theorem MemoryWf.refreshHolds (w : MemoryWf s) {k} : MemoryWf (s.refreshHolds k) := by
  unfold State.refreshHolds
  split
  · exact w
  · exact .ite w (w.foldl fun _ _ wt => .ite wt wt.putRecord).modCtx

@[simp] theorem MemoryWf.landAnswer (w : MemoryWf s) {id p data cause uninit} : MemoryWf (s.landAnswer id p data cause uninit) := by
  unfold State.landAnswer
  dsimp only
  split
  · exact w
  · split
    · exact (MemoryWf.ite w.report w).dropPacket.answer.refreshHolds.acked
    · exact w.dropPacket.answer.refreshHolds.acked

theorem nextWf_execLandingDataArrival (w : MemoryWf s) {req r} : NextWf (execLandingDataArrival req r s) := by
  unfold execLandingDataArrival
  repeat' split
  all_goals simp [w]

@[simp] theorem MemoryWf.abortDest (w : MemoryWf s) {k dest} : MemoryWf (State.abortDest s k dest) := by simp [State.abortDest, w]

@[simp] theorem MemoryWf.abortCut (w : MemoryWf s) {k} : MemoryWf (State.abortCut s k) := by
  unfold State.abortCut
  repeat' split
  all_goals simp +contextual [w]

@[simp] theorem MemoryWf.sendMarkers (w : MemoryWf s) {k c f} : MemoryWf (State.sendMarkers s k c f) := w

theorem nextWf_execFlushMarkerGather (w : MemoryWf s) {ctx die} : NextWf (execFlushMarkerGather ctx die s) := by
  unfold execFlushMarkerGather
  repeat' split
  all_goals simp [w]

theorem nextWf_execFlushCompletion (w : MemoryWf s) {ctx} : NextWf (execFlushCompletion ctx s) := by
  unfold execFlushCompletion
  repeat' split
  all_goals simp [w]

@[simp] theorem MemoryWf.boundaryTrap (w : MemoryWf s) {k i} : MemoryWf (State.boundaryTrap s k i) := by simp [State.boundaryTrap, w]

theorem nextWf_execGateLift (w : MemoryWf s) {ctx} : NextWf (execGateLift ctx s) := by
  unfold execGateLift
  repeat' split
  all_goals simp [w]

theorem nextWf_execAsyncCauseOffer (w : MemoryWf s) {ctx} : NextWf (execAsyncCauseOffer ctx s) := by
  unfold execAsyncCauseOffer
  split <;> simp [w]

theorem nextWf_execQueueDeadlock (w : MemoryWf s) {ctx} : NextWf (execQueueDeadlock ctx s) := by
  unfold execQueueDeadlock
  split <;> simp [w]

@[simp] theorem MemoryWf.landAll (w : MemoryWf s) {k c} : MemoryWf (State.landAll s k c) := by
  unfold State.landAll
  repeat' split
  all_goals simp [w]

theorem nextWf_execDeliveryVisible (w : MemoryWf s) {ctx} : NextWf (execDeliveryVisible ctx s) := by
  unfold execDeliveryVisible
  split <;> simp [w]

theorem nextWf_execJoinRendezvous (w : MemoryWf s) {ctx} : NextWf (execJoinRendezvous ctx s) := by
  unfold execJoinRendezvous
  split <;> simp [w]

/-! ### Machine/Mover -/

@[simp] theorem MemoryWf.pushCmd (w : MemoryWf s) {u die q x3 r off} : MemoryWf (State.pushCmd s u die q x3 r off) := by
  unfold State.pushCmd
  split <;> simp [w]

theorem nextWf_execMoverCommandStart (w : MemoryWf s) {ctx q} : NextWf (execMoverCommandStart ctx q s) := by
  unfold execMoverCommandStart
  dsimp only
  repeat' split
  all_goals simp [w]

@[simp] theorem MemoryWf.breakBarriers (w : MemoryWf s) {c} : MemoryWf (State.breakBarriers s c) := by simp +contextual [State.breakBarriers, w]

@[simp] theorem MemoryWf.discardCmd (w : MemoryWf s) {id} : MemoryWf (State.discardCmd s id) := by
  unfold State.discardCmd
  split <;> simp [w]

@[simp] theorem MemoryWf.offerCtx (w : MemoryWf s) {k i} : MemoryWf (State.offerCtx s k i) := by
  unfold State.offerCtx
  repeat' split
  all_goals simp [w]

@[simp] theorem MemoryWf.cmdFault (w : MemoryWf s) {id cause sp addr wr} : MemoryWf (s.cmdFault id cause sp addr wr) := by
  unfold State.cmdFault
  split
  · exact w
  · exact (w.foldl fun _ _ wt => wt.discardCmd : MemoryWf (List.foldl State.discardCmd s _)).offerCtx

@[simp] theorem MemoryWf.peerTraffic (w : MemoryWf s) {sp addr n} : MemoryWf (State.peerTraffic s sp addr n) := by
  unfold State.peerTraffic
  split <;> simp [w]

theorem MemoryWf.engineRead (w : MemoryWf s) {c sp addr n} : ∀ p, State.engineRead s c sp addr n = .ok p → MemoryWf p.1 := by
  unfold State.engineRead
  dsimp only
  repeat' split
  all_goals simp [w]

@[simp] theorem MemoryWf.noteNode (w : MemoryWf s) {k sp addr} : MemoryWf (State.noteNode s k sp addr) := by
  unfold State.noteNode
  split <;> simp [w]

theorem MemoryWf.engineStore (w : MemoryWf s) {c sp addr bytes} : ∀ t, s.engineStore c sp addr bytes = .ok t → MemoryWf t := by
  unfold State.engineStore
  split
  · simp
  · split
    · simp
    · simpa using w.setBytes.peerTraffic.noteNode
    · simp

theorem MemoryWf.engineWrite (w : MemoryWf s) {c sp addr bytes} : ∀ t, s.engineWrite c sp addr bytes = .ok t → MemoryWf t := by
  unfold State.engineWrite
  split
  · simp
  · next t ht => simpa using (w.engineStore t ht).foldWrite

theorem MemoryWf.elem (w : MemoryWf s) {c x r i} : ∀ p, s.elem c x r i = .ok p → MemoryWf p.1 := by
  unfold State.elem
  dsimp only
  split
  case h_3 =>
    split
    · simp
    · next t b ht => simpa using w.engineRead _ ht
  case h_4 => split <;> simp [w]
  all_goals simp [w]

@[simp] theorem MemoryWf.putCmd (w : MemoryWf s) {id c} : MemoryWf (State.putCmd s id c) := w

@[simp] theorem MemoryWf.orFault (w : MemoryWf s) {id} {x : Except ElemFault State} (hx : ∀ t, x = .ok t → MemoryWf t) :
    MemoryWf (s.orFault id x) := by
  cases x with
  | ok t => exact hx t rfl
  | error e => exact .ite w w.cmdFault

theorem MemoryWf.readBlockOf (w : MemoryWf s) {id cmd c k} : ∀ t, s.readBlockOf id cmd c k = .ok t → MemoryWf t := by
  unfold State.readBlockOf
  split
  · simp [w]
  · dsimp only
    split
    · simp
    · next p hp => simpa using (w.cacheFor.engineRead _ hp).putCmd

@[simp] theorem MemoryWf.foldBlock (w : MemoryWf s) {c k rest b} : MemoryWf (State.foldBlock s c k rest b) := by
  unfold State.foldBlock
  split <;> simp [w]

theorem MemoryWf.writeBlockOf (w : MemoryWf s) {id cmd c k} : ∀ t, s.writeBlockOf id cmd c k = .ok t → MemoryWf t := by
  unfold State.writeBlockOf
  split
  · simp [w]
  · split
    · simp
    · next t ht => simpa using (w.engineStore t ht).foldBlock.putCmd

theorem MemoryWf.elemStep (w : MemoryWf s) {id cmd c k} : ∀ t, s.elemStep id cmd c k = .ok t → MemoryWf t := by
  unfold State.elemStep
  dsimp only
  split
  · exact w.readBlockOf
  · split
    · split
      · simp
      · simpa using (w.foldl fun _ _ wt => wt.cacheFor).putCmd
    · split
      · exact w.writeBlockOf
      · simp [w]

theorem MemoryWf.moverStep (w : MemoryWf s) {id cmd c} : ∀ t, s.moverStep id cmd c = .ok t → MemoryWf t := by
  unfold State.moverStep
  split
  · exact w.elemStep
  · split
    · simp [w]
    · split
      · simp
      · next p hp => simpa using (w.elem _ hp).putCmd

@[simp] theorem MemoryWf.runMover (w : MemoryWf s) {id kind} : MemoryWf (s.runMover id kind) := by
  unfold State.runMover
  split
  · exact w
  · refine .ite w ?_
    split
    · exact w
    · exact w.orFault w.moverStep

@[simp] theorem MemoryWf.failOutside (w : MemoryWf s) {id cause spaces} : MemoryWf (State.failOutside s id cause spaces) := by
  unfold State.failOutside
  split <;> simp [w]

theorem nextWf_execDeferredStoreFault (w : MemoryWf s) {req cause} : NextWf (execDeferredStoreFault req cause s) := by
  unfold execDeferredStoreFault
  rw [nextWf_next]
  split
  · exact .ite w.failOutside w
  · exact .ite w.uncredit.failPacket.acked w

theorem nextWf_execHostAccessTimeout (w : MemoryWf s) {req} : NextWf (execHostAccessTimeout req s) := by
  unfold execHostAccessTimeout
  split <;> simp [w]

theorem nextWf_execCopy (w : MemoryWf s) {cmd} : NextWf (execCopy cmd s) := by simp [execCopy, w]

theorem nextWf_execGather (w : MemoryWf s) {cmd} : NextWf (execGather cmd s) := by simp [execGather, w]

theorem nextWf_execI2c (w : MemoryWf s) {cmd} : NextWf (execI2c cmd s) := by simp [execI2c, w]

theorem nextWf_execFill (w : MemoryWf s) {cmd} : NextWf (execFill cmd s) := by simp [execFill, w]

theorem nextWf_execMcastCommand (w : MemoryWf s) {cmd} : NextWf (execMcastCommand cmd s) := by simp [execMcastCommand, w]

theorem nextWf_execQfenceCommand (w : MemoryWf s) {cmd} : NextWf (execQfenceCommand cmd s) := by
  unfold execQfenceCommand
  split <;> simp [w]

theorem nextWf_execEngineCredit (w : MemoryWf s) {cmd} : NextWf (execEngineCredit cmd s) := by
  have credited {k o n r} {p : Prop} [Decidable p] : MemoryWf (if p then (s, (0 : Cause)) else s.creditBar k o n r).1 := by
    split
    · exact w
    · exact w.creditBar
  have arrived {t : State} (wt : MemoryWf t) {k o n r} {p : Prop} [Decidable p] :
      MemoryWf (if p then t.arriveBar k o n r else (t, (0 : Cause))).1 := by
    split
    · exact wt.arriveBar
    · exact wt
  unfold execEngineCredit
  rw [nextWf_next]
  split
  · exact w
  · split
    · exact w
    · dsimp only
      refine .ite w ?_
      exact .ite credited.cmdFault (.ite (arrived credited).cmdFault (arrived credited).same)

theorem nextWf_execCommandComplete (w : MemoryWf s) {cmd} : NextWf (execCommandComplete cmd s) := by
  unfold execCommandComplete
  split <;> simp [w]

end Sys2Proof.Safety
end

section
/-! Every step keeps memory canonical (O3): registers. -/

namespace Sys2Proof.Safety

open Sys2Proof.Machine

variable {s : State}

/-! ### Machine/SaveArea -/

@[simp] theorem MemoryWf.saveMrf (w : MemoryWf s) {a chunks c} : MemoryWf (State.saveMrf s a chunks c) := by simp +contextual [State.saveMrf, w]

@[simp] theorem MemoryWf.saveRegions (w : MemoryWf s) {a chunks c} : MemoryWf (s.saveRegions a chunks c) :=
  w.foldl fun _ _ wt => wt.putArea.foldl fun _ _ wu => wu.putArea

@[simp] theorem MemoryWf.spill (w : MemoryWf s) {c} : MemoryWf (State.spill s c) := by
  unfold State.spill
  repeat' split
  all_goals simp +contextual [w]

@[simp] theorem MemoryWf.saveWith (w : MemoryWf s) {c a head mask recs} : MemoryWf (s.saveWith c a head mask recs) := by
  unfold State.saveWith
  extract_lets chunks s1 s2 s3 s4
  have w2 : MemoryWf s2 := .ite w.putArea.putArea.putArea w.putArea.putArea
  have w3 : MemoryWf s3 := .ite w2.putArea.putArea.putArea w2
  have w4 : MemoryWf s4 := .ite w3.saveMrf w3
  exact .ite w4.spill.saveRegions w4

@[simp] theorem MemoryWf.saveParts (w : MemoryWf s) {k a mask} : MemoryWf (State.saveParts s k a mask) := by
  unfold State.saveParts
  split <;> simp [w]

@[simp] theorem MemoryWf.loadLine (w : MemoryWf s) {core line bytes} : MemoryWf (State.loadLine s core line bytes) := w

@[simp] theorem MemoryWf.loadRegions (w : MemoryWf s) {a c} : MemoryWf (s.loadRegions a c) :=
  w.foldl fun _ _ wt => wt.foldl fun _ _ wu => wu.loadLine

@[simp] theorem MemoryWf.loadParts (w : MemoryWf s) {k a mask} : MemoryWf (State.loadParts s k a mask) := by
  unfold State.loadParts
  repeat' split
  all_goals simp [w]

@[simp] theorem MemoryWf.holdTransfer (w : MemoryWf s) : MemoryWf (State.holdTransfer s) := by simp [State.holdTransfer, w]

@[simp] theorem MemoryWf.writeDrc (w : MemoryWf s) {die n v} : MemoryWf (State.writeDrc s die n v) := by
  unfold State.writeDrc
  dsimp only
  split <;> simp [w]

@[simp] theorem MemoryWf.endSlow (w : MemoryWf s) {k crn v} : MemoryWf (State.endSlow s k crn v) := by simp [State.endSlow, w]

@[simp] theorem MemoryWf.abandonHolds (w : MemoryWf s) {k} : MemoryWf (s.abandonHolds k) := by
  unfold State.abandonHolds
  split
  · exact w
  · refine w.setCtx.foldl fun _ _ wt => ?_
    split
    · exact wt.endSlow
    · exact wt

@[simp] theorem MemoryWf.halt (w : MemoryWf s) {k} : MemoryWf (s.halt k) := by
  unfold State.halt
  dsimp only
  split
  · exact (MemoryWf.ite w.leaveHandler.abandonHolds w.modCtx).modCtx
  · exact w.modCtx

@[simp] theorem MemoryWf.requestSave (w : MemoryWf s) {k} : MemoryWf (s.requestSave k) := by
  unfold State.requestSave
  split
  · exact w
  · refine .ite w ?_
    split
    · exact w
    · exact (w.modDie.setCtx.halt).same

theorem nextWf_execPreemptionRequest (w : MemoryWf s) {ctx} : NextWf (execPreemptionRequest ctx s) := by
  unfold execPreemptionRequest
  split <;> simp [w]

theorem nextWf_execContextSave (w : MemoryWf s) {ctx} : NextWf (execContextSave ctx s) := by
  unfold execContextSave
  rw [nextWf_next]
  split
  · exact w
  · exact .ite w.modCtx.spill.saveParts.modCtx (.ite w.setCtx w)

@[simp] theorem MemoryWf.returnArea (w : MemoryWf s) {k} : MemoryWf (State.returnArea s k) := by
  unfold State.returnArea
  repeat' split
  all_goals simp [w]

@[simp] theorem MemoryWf.loadSaved (w : MemoryWf s) {k} : MemoryWf (State.loadSaved s k) := by
  unfold State.loadSaved
  dsimp only
  repeat' split
  all_goals simp [w]

@[simp] theorem MemoryWf.resumeCtx (w : MemoryWf s) {k} : MemoryWf (s.resumeCtx k) := by
  unfold State.resumeCtx
  dsimp only
  split
  · exact w.loadSaved.returnArea
  · exact .ite w.loadSaved.returnArea.setCtx.modCtx w.loadSaved.returnArea.setCtx.modCore.enterHandler

theorem nextWf_execContextResume (w : MemoryWf s) {ctx} : NextWf (execContextResume ctx s) := by
  unfold execContextResume
  split <;> simp [w]

@[simp] theorem MemoryWf.netWrite (w : MemoryWf s) {k core seq a bytes} : MemoryWf (State.netWrite s k core seq a bytes) := by
  unfold State.netWrite
  split <;> simp [w]

@[simp] theorem MemoryWf.netWrites (w : MemoryWf s) {k core l} : MemoryWf (State.netWrites s k core l) := by simp +contextual [State.netWrites, w]

@[simp] theorem MemoryWf.finishCtx (w : MemoryWf s) {k c} : MemoryWf (s.finishCtx k c) :=
  (w.foldl fun _ _ wt => wt.report).netWrites.modCtx

/-! ### Machine/Registers -/

@[simp] theorem MemoryWf.modLink (w : MemoryWf s) {l f} : MemoryWf (State.modLink s l f) := w

@[simp] theorem MemoryWf.writeRegionBase (w : MemoryWf s) {die n field v} :
    MemoryWf (State.writeRegionBase s die n field v) := by simp [State.writeRegionBase, w]

@[simp] theorem MemoryWf.writeHeddle (w : MemoryWf s) {die l v} : MemoryWf (s.writeHeddle die l v) := by
  have moved {ks : List Nat} {p : Bool} :
      MemoryWf (ks.foldl (fun t k => (t.modCtx k fun c => { c with moves := p }).requestSave k) s) :=
    w.foldl fun _ _ wt => wt.modCtx.requestSave
  exact .ite w.modDie (.ite moved.modDie moved.modDie.report)

@[simp] theorem MemoryWf.askRetrain (w : MemoryWf s) {l r} : MemoryWf (State.askRetrain s l r) := w

@[simp] theorem MemoryWf.writeLnkCtl (w : MemoryWf s) {l v} : MemoryWf (State.writeLnkCtl s l v) := by
  unfold State.writeLnkCtl
  dsimp only
  repeat' split
  all_goals simp [w]

@[simp] theorem MemoryWf.writeFabNode (w : MemoryWf s) {v} : MemoryWf (State.writeFabNode s v) := by simp [State.writeFabNode, w]

@[simp] theorem MemoryWf.writePeerEnt (w : MemoryWf s) {v} : MemoryWf (State.writePeerEnt s v) := by simp [State.writePeerEnt, w]

@[simp] theorem MemoryWf.writeReplCtl (w : MemoryWf s) {v} : MemoryWf (State.writeReplCtl s v) := by simp [State.writeReplCtl, w]

@[simp] theorem MemoryWf.writeSavepool (w : MemoryWf s) {die v} : MemoryWf (State.writeSavepool s die v) := w

@[simp] theorem MemoryWf.writeHslice (w : MemoryWf s) {die v} : MemoryWf (State.writeHslice s die v) := w

@[simp] theorem MemoryWf.writeAtpool (w : MemoryWf s) {die v} : MemoryWf (State.writeAtpool s die v) := w

@[simp] theorem MemoryWf.escalate (w : MemoryWf s) {k} : MemoryWf (State.escalate s k) := by
  unfold State.escalate
  repeat' split
  all_goals simp [w]

@[simp] theorem MemoryWf.writeReg (w : MemoryWf s) {k crn v} : MemoryWf (s.writeReg k crn v) := by
  unfold State.writeReg
  split
  · exact w
  · exact .ite w.escalate (.ite w.modCore (.ite w.modCore (.ite w.writeAtpool (.ite w.writeHslice (.ite w.writeSavepool
      (.ite w.writeLnkCtl (.ite w.same (.ite w.same (.ite w.same (.ite w.writeFabNode (.ite w.same (.ite w.writePeerEnt
      (.ite w.writeReplCtl (.ite (.ite w.writeDrc w.writeRegionBase) (.ite w.writeHeddle w.setCtx)))))))))))))))

@[simp] theorem MemoryWf.startWrite (w : MemoryWf s) {k crn v} : MemoryWf (State.startWrite s k crn v) := by
  unfold State.startWrite
  split <;> simp [w]

@[simp] theorem MemoryWf.takeWrite (w : MemoryWf s) {k crn v} : MemoryWf (State.takeWrite s k crn v) := by
  unfold State.takeWrite
  repeat' split
  all_goals simp [w]

@[simp] theorem MemoryWf.endWrites (w : MemoryWf s) {k} : MemoryWf (State.endWrites s k) := by
  unfold State.endWrites
  repeat' split
  all_goals simp +contextual [w]

@[simp] theorem MemoryWf.takeDieWrite (w : MemoryWf s) {die crn v} : MemoryWf (State.takeDieWrite s die crn v) := by
  unfold State.takeDieWrite
  split <;> simp [w]

theorem nextWf_execXinvWrite (w : MemoryWf s) {ctx v} : NextWf (execXinvWrite ctx v s) := by simp [execXinvWrite, w]

theorem nextWf_execEscWrite (w : MemoryWf s) {ctx v} : NextWf (execEscWrite ctx v s) := by simp [execEscWrite, w]

theorem nextWf_execDecodeRegionEnable (w : MemoryWf s) {die n v} : NextWf (execDecodeRegionEnable die n v s) := by simp [execDecodeRegionEnable, w]

theorem nextWf_execDecodeRegionDisable (w : MemoryWf s) {die n v} : NextWf (execDecodeRegionDisable die n v s) := by simp [execDecodeRegionDisable, w]

theorem nextWf_execDecodeFill (w : MemoryWf s) {die n vec seg} : NextWf (execDecodeFill die n vec seg s) := by simp [execDecodeFill, w]

theorem nextWf_execHeddleWrite (w : MemoryWf s) {die l v} : NextWf (execHeddleWrite die l v s) := by simp [execHeddleWrite, w]

theorem nextWf_execSavepoolWrite (w : MemoryWf s) {die v} : NextWf (execSavepoolWrite die v s) := by simp [execSavepoolWrite, w]

theorem nextWf_execHsliceWrite (w : MemoryWf s) {die v} : NextWf (execHsliceWrite die v s) := by simp [execHsliceWrite, w]

theorem nextWf_execAtpoolWrite (w : MemoryWf s) {die v} : NextWf (execAtpoolWrite die v s) := by simp [execAtpoolWrite, w]

theorem nextWf_execLnkCtlWrite (w : MemoryWf s) {link v} : NextWf (execLnkCtlWrite link v s) := by simp [execLnkCtlWrite, w]

theorem nextWf_execFabNodeWrite (w : MemoryWf s) {v} : NextWf (execFabNodeWrite v s) := by simp [execFabNodeWrite, w]

theorem nextWf_execPeerEntWrite (w : MemoryWf s) {v} : NextWf (execPeerEntWrite v s) := by simp [execPeerEntWrite, w]

theorem nextWf_execReplCtlWrite (w : MemoryWf s) {v} : NextWf (execReplCtlWrite v s) := by simp [execReplCtlWrite, w]

theorem nextWf_execRegisterWrite (w : MemoryWf s) {ctx crn v} : NextWf (execRegisterWrite ctx crn v s) := by simp [execRegisterWrite, w]

/-! ### Machine/Cycle -/

@[simp] theorem MemoryWf.appendTrace (w : MemoryWf s) {k c} : MemoryWf (State.appendTrace s k c) := by
  unfold State.appendTrace
  dsimp only
  repeat' split
  all_goals simp [w]

@[simp] theorem MemoryWf.applyWrites (w : MemoryWf s) {k l} : MemoryWf (s.applyWrites k l) := by
  induction l generalizing s with
  | nil => exact w
  | cons a l ih =>
    cases a with
    | reg => exact ih w.startWrite
    | store | clear | message => exact ih w

@[simp] theorem MemoryWf.noteYield (w : MemoryWf s) {k} : MemoryWf (State.noteYield s k) := w

@[simp] theorem MemoryWf.takeYield (w : MemoryWf s) {k} : MemoryWf (s.takeYield k) := by
  unfold State.takeYield
  split
  · exact w
  · exact .ite w.setCtx.requestSave.noteYield w

@[simp] theorem MemoryWf.endCycle (w : MemoryWf s) {k} : MemoryWf (s.endCycle k) := by
  unfold State.endCycle
  split
  · exact w
  · split
    · exact w.setCtx
    · exact w.setCtx
    · exact (MemoryWf.ite w.modCore.netWrites w.modCore.netWrites.appendTrace).modCtx.applyWrites.takeYield

end Sys2Proof.Safety
end

section
/-! Every step keeps memory canonical (O3): cycles, launches and collectives. -/

namespace Sys2Proof.Safety

open Sys2Proof.Machine

variable {s : State}

/-! ### Machine/Launch -/

@[simp] theorem MemoryWf.landWord (w : MemoryWf s) {d1 d2 v1 v2 lat f} : MemoryWf (State.landWord s d1 d2 v1 v2 lat f) := by simp [State.landWord, w]

@[simp] theorem MemoryWf.launchChild (w : MemoryWf s) {d1 d2 task arg} : MemoryWf (State.launchChild s d1 d2 task arg) := by
  unfold State.launchChild
  dsimp only
  repeat' split
  all_goals simp [w]

@[simp] theorem MemoryWf.reap (w : MemoryWf s) {kids} : MemoryWf (State.reap s kids) := w

@[simp] theorem MemoryWf.serveChildren (w : MemoryWf s) : MemoryWf s.serveChildren :=
  w.foldl fun _ _ wt => .ite wt.answer.same.reap wt

@[simp] theorem MemoryWf.waitChild (w : MemoryWf s) {c d1 d2 lat h test} : MemoryWf (State.waitChild s c d1 d2 lat h test) := by
  unfold State.waitChild
  dsimp only
  repeat' split
  all_goals simp [w]

@[simp] theorem MemoryWf.setSem (w : MemoryWf s) {die n x} : MemoryWf (State.setSem s die n x) := w

@[simp] theorem MemoryWf.semWait_status (w : MemoryWf s) {x0 v} : MemoryWf (SemWait.status x0 v s) := by simp [SemWait.status, w]

@[simp] theorem MemoryWf.serveSem (w : MemoryWf s) {die n x} : MemoryWf (State.serveSem s die n x) := by simp +contextual [State.serveSem, w]

@[simp] theorem MemoryWf.semSignal (w : MemoryWf s) {die n b} : MemoryWf (State.semSignal s die n b).1 := by
  unfold State.semSignal
  dsimp only
  repeat' split
  all_goals simp [w]

@[simp] theorem MemoryWf.semWait (w : MemoryWf s) {die n x2} : MemoryWf (State.semWait s die n x2) := by simp [State.semWait, w]

@[simp] theorem MemoryWf.releaseWaits (w : MemoryWf s) {die n x} :
    MemoryWf (State.releaseWaits s die n x) := by simp +contextual [State.releaseWaits, w]

@[simp] theorem MemoryWf.breakSem (w : MemoryWf s) {die n} : MemoryWf (State.breakSem s die n) := by simp [State.breakSem, w]

@[simp] theorem MemoryWf.resetSem (w : MemoryWf s) {die n} : MemoryWf (State.resetSem s die n) := w

@[simp] theorem MemoryWf.landSem (w : MemoryWf s) {d1 d2 v lat f} : MemoryWf (State.landSem s d1 d2 v lat f) := by simp [State.landSem, w]

/-! ### Machine/Collective -/

@[simp] theorem MemoryWf.cmdFaultFree (w : MemoryWf s) {id cause} : MemoryWf (State.cmdFaultFree s id cause) := by simp [State.cmdFaultFree, w]

@[simp] theorem MemoryWf.breakRanks (w : MemoryWf s) {id cause} : MemoryWf (s.breakRanks id cause) := by
  unfold State.breakRanks
  split
  · exact w
  · exact .ite w (w.foldl fun _ _ wt => .ite wt.cmdFaultFree wt)

theorem MemoryWf.startColl (w : MemoryWf s) {id cmd c} : ∀ t, s.startColl id cmd c = .ok t → MemoryWf t := by
  unfold State.startColl
  dsimp only
  split
  · simp
  · split
    · simp
    · split
      · simp
      · next t b ht =>
        have wt : MemoryWf t := w.engineRead _ ht
        split <;> simp [wt]

theorem MemoryWf.rankSources (w : MemoryWf s) {l} : ∀ p, s.rankSources l = .ok p → MemoryWf p.1 := by
  induction l generalizing s with
  | nil => simp [State.rankSources, w]
  | cons a l ih =>
    unfold State.rankSources
    split
    · simp
    · split
      · simp
      · next t b ht =>
        split
        · simp
        · next p r hp => simpa using ih (w.engineRead _ ht) _ hp

@[simp] theorem MemoryWf.writeElems (w : MemoryWf s) {c cmd all l} : MemoryWf (s.writeElems c cmd all l).1 := by
  induction l generalizing s with
  | nil => exact w
  | cons n l ih =>
    unfold State.writeElems
    split
    · exact w
    · next t ht => exact ih (w.engineWrite t ht)

theorem MemoryWf.rankResults (w : MemoryWf s) {all l} : ∀ t, s.rankResults all l = some t → MemoryWf t := by
  induction l generalizing s with
  | nil => simp [State.rankResults, w]
  | cons a l ih =>
    unfold State.rankResults
    split
    · simp
    · split
      · next t x ht =>
        split
        · simp
        · exact ih (w.writeElems.of_fst ht).cmdFault
      · next t ht => exact ih (w.writeElems.of_fst ht).same

@[simp] theorem MemoryWf.setRx (w : MemoryWf s) {node rx m} : MemoryWf (State.setRx s node rx m) := w

@[simp] theorem MemoryWf.countRx (w : MemoryWf s) {node sseq} : MemoryWf (State.countRx s node sseq) := w

@[simp] theorem MemoryWf.countPackets (w : MemoryWf s) {node k} :
    MemoryWf (State.countPackets s node k) := by simp +contextual [State.countPackets, w]

@[simp] theorem MemoryWf.countNext (w : MemoryWf s) {node k} : MemoryWf (State.countNext s node k) := w

@[simp] theorem MemoryWf.collTraffic (w : MemoryWf s) {table} : MemoryWf (s.collTraffic table) :=
  w.foldl fun _ _ wt => wt.same.countPackets.acknowledge

@[simp] theorem MemoryWf.exchange (w : MemoryWf s) {cmd ranks} : MemoryWf (s.exchange cmd ranks) := by
  unfold State.exchange
  dsimp only
  split
  · exact w
  · split
    · exact w.foldl fun _ _ wt => wt.cmdFaultFree
    · split
      · exact .ite w w.cmdFault
      · next t srcs ht =>
        split
        · exact w
        · next u hu => exact ((w.rankSources _ ht).rankResults u hu).collTraffic

theorem nextWf_execColl (w : MemoryWf s) {cmd ranks} : NextWf (execColl cmd ranks s) := by
  unfold execColl
  rw [nextWf_next]
  split
  · exact w
  · split
    · exact w
    · refine .ite w (.ite w.exchange ?_)
      split
      · split
        · exact .ite w w.cmdFault
        · next t ht => exact w.startColl t ht
      · exact w

/-! ### Machine/Scheduler -/

@[simp] theorem MemoryWf.complete (w : MemoryWf s) {die hseq gid status cause task} : MemoryWf (State.complete s die hseq gid status cause task) := w

@[simp] theorem MemoryWf.parseDoorbell (w : MemoryWf s) {die r hseq} : MemoryWf (State.parseDoorbell s die r hseq) := by
  unfold State.parseDoorbell
  dsimp only
  repeat' split
  all_goals simp [w]

theorem nextWf_execDoorbell (w : MemoryWf s) {die r} : NextWf (execDoorbell die r s) := by
  unfold execDoorbell
  dsimp only
  split <;> simp [w]

@[simp] theorem MemoryWf.resetSems (w : MemoryWf s) {g} : MemoryWf (s.resetSems g) :=
  w.foldl fun _ _ wt => wt.foldl fun _ _ wu => wu.resetSem

@[simp] theorem MemoryWf.addRuns (w : MemoryWf s) {l} : MemoryWf (s.addRuns l).1 := by
  induction l generalizing s with
  | nil => exact w
  | cons r l ih => exact ih w.same

@[simp] theorem MemoryWf.modRun (w : MemoryWf s) {n f} : MemoryWf (State.modRun s n f) := w

@[simp] theorem MemoryWf.unblock (w : MemoryWf s) {l g n} : MemoryWf (State.unblock s l g n) := w

@[simp] theorem MemoryWf.endLaunch (w : MemoryWf s) {key} : MemoryWf (State.endLaunch s key) := by
  unfold State.endLaunch
  repeat' split
  all_goals simp [w]

@[simp] theorem MemoryWf.takeUp (w : MemoryWf s) {die p g} : MemoryWf (s.takeUp die p g) :=
  w.modDie.resetSems.addRuns.same.endLaunch

theorem nextWf_execLaunchAdmit (w : MemoryWf s) {launch} : NextWf (execLaunchAdmit launch s) := by
  unfold execLaunchAdmit
  dsimp only
  repeat' split
  all_goals simp [w]

@[simp] theorem MemoryWf.advance (w : MemoryWf s) {key} : MemoryWf (s.advance key) := by
  unfold State.advance
  split
  · exact w
  · split
    · exact w.endLaunch
    · exact (w.foldl fun _ _ wt => wt.foldl fun _ _ wu => wu.unblock).serveChildren.endLaunch

@[simp] theorem MemoryWf.runDone (w : MemoryWf s) {n} : MemoryWf (State.runDone s n) := by
  unfold State.runDone
  split <;> simp [w]

@[simp] theorem MemoryWf.endOne (w : MemoryWf s) {n index digest} : MemoryWf (State.endOne s n index digest) := by
  unfold State.endOne
  dsimp only
  repeat' split
  all_goals simp [w]

theorem nextWf_execTwinRunEnd (w : MemoryWf s) {run} : NextWf (execTwinRunEnd run s) := by
  unfold execTwinRunEnd
  repeat' split
  all_goals simp [w]

@[simp] theorem MemoryWf.preemptGang (w : MemoryWf s) {n} : MemoryWf (s.preemptGang n) := by
  unfold State.preemptGang
  split
  · exact w
  · exact .ite (w.foldl fun _ _ wt => wt.requestSave : MemoryWf (List.foldl State.requestSave s _)).same w

@[simp] theorem MemoryWf.reserve (w : MemoryWf s) {die c} : MemoryWf (s.reserve die c) := by
  unfold State.reserve
  dsimp only
  split
  · exact w.modDie
  · split
    · exact (w.foldl fun _ _ wt => wt.preemptGang).modDie
    · exact w.modDie

end Sys2Proof.Safety
end

section
/-! Every step keeps memory canonical (O3): scheduling and the directory. -/

namespace Sys2Proof.Safety

open Sys2Proof.Machine

variable {s : State}

/-! ### Machine/Scheduler -/

@[simp] theorem MemoryWf.placeStep (w : MemoryWf s) {n base} : MemoryWf (s.placeStep n base).1 := by
  unfold State.placeStep
  split
  · exact w
  · split
    · exact .foldl_fst w.modRun fun _ _ wq => wq.setCtx.modDie.same
    · exact w

@[simp] theorem MemoryWf.placeGang (w : MemoryWf s) {die c bases} : MemoryWf (s.placeGang die c bases) := by
  unfold State.placeGang
  dsimp only
  refine MemoryWf.same ?_
  exact .foldl_fst w fun _ _ wq => wq.placeStep

@[simp] theorem MemoryWf.eraseCtx (w : MemoryWf s) {k} : MemoryWf (State.eraseCtx s k) := w

@[simp] theorem MemoryWf.displace (w : MemoryWf s) {k c} : MemoryWf (s.displace k c) :=
  w.foldl fun _ _ wt => .ite wt.eraseCtx (.ite (MemoryWf.ite wt wt.saveRegions.putArea).setCore.setCore.modCtx wt)

@[simp] theorem MemoryWf.restore (w : MemoryWf s) {k} : MemoryWf (s.restore k) := by
  unfold State.restore
  split
  · exact w
  · exact .ite w w.displace.modCore.setCtx.same

@[simp] theorem MemoryWf.resumeGang (w : MemoryWf s) {n} : MemoryWf (s.resumeGang n) := by
  unfold State.resumeGang
  split
  · exact w
  · have restored {l} : MemoryWf (List.foldl State.restore s l) := w.foldl fun _ _ wt => wt.restore
    have resumed {l m} : MemoryWf (List.foldl State.resumeCtx (List.foldl State.restore s l) m) := restored.foldl fun _ _ wt => wt.resumeCtx
    exact resumed.same

@[simp] theorem MemoryWf.take (w : MemoryWf s) {die c bases} : MemoryWf (State.take s die c bases) := by
  unfold State.take
  split <;> simp [w]

@[simp] theorem MemoryWf.takeOther (w : MemoryWf s) {die l} : MemoryWf (s.takeOther die l) := by
  induction l with
  | nil => exact w
  | cons c l ih =>
    unfold State.takeOther
    split
    · exact w.take.modDie
    · exact ih

@[simp] theorem MemoryWf.schedule (w : MemoryWf s) {die} : MemoryWf (State.schedule s die) := by
  unfold State.schedule
  repeat' split
  all_goals simp [w]

theorem nextWf_execSchedulingStep (w : MemoryWf s) {die} : NextWf (execSchedulingStep die s) := by simp [execSchedulingStep, w]

theorem nextWf_execGangResume (w : MemoryWf s) {gang} : NextWf (execGangResume gang s) := by
  unfold execGangResume
  repeat' split
  all_goals simp [w]

@[simp] theorem MemoryWf.allocate (w : MemoryWf s) {k c} : MemoryWf (State.allocate s k c) := by simp [State.allocate, w]

@[simp] theorem MemoryWf.fillRegion (w : MemoryWf s) {c off bytes} : MemoryWf (State.fillRegion s c off bytes) := w

@[simp] theorem MemoryWf.loadRegion (w : MemoryWf s) {k c g} : MemoryWf (s.loadRegion k c g) := by
  unfold State.loadRegion
  dsimp only
  refine .ite w.allocate.fillRegion ?_
  split
  · exact w.allocate.fillRegion
  · exact w.allocate.fillRegion.fillRegion

@[simp] theorem MemoryWf.release (w : MemoryWf s) {k} : MemoryWf (State.release s k) := by
  unfold State.release
  repeat' split
  all_goals simp +contextual [w]

theorem nextWf_execInstanceStart (w : MemoryWf s) {ctx} : NextWf (execInstanceStart ctx s) := by
  unfold execInstanceStart
  rw [nextWf_next]
  split
  · exact w
  · refine .ite w ?_
    split
    · exact w
    · exact w.loadRegion.modCtx.release

theorem nextWf_execTaskComplete (w : MemoryWf s) {ctx} : NextWf (execTaskComplete ctx s) := by
  unfold execTaskComplete
  repeat' split
  all_goals simp [w]

@[simp] theorem MemoryWf.freeRegions (w : MemoryWf s) {c} : MemoryWf (s.freeRegions c) :=
  (w.foldl fun _ _ wt => wt.breakBar).modCore.foldl fun _ _ wt => wt.freeWin

@[simp] theorem MemoryWf.freeHeld (w : MemoryWf s) {k c} : MemoryWf (s.freeHeld k c) :=
  (MemoryWf.ite w w.freeRegions).returnArea.same

@[simp] theorem MemoryWf.clearLeft (w : MemoryWf s) : MemoryWf (State.clearLeft s) := by simp +contextual [State.clearLeft, w]

@[simp] theorem MemoryWf.removeCtx (w : MemoryWf s) {k} : MemoryWf (s.removeCtx k) := by
  unfold State.removeCtx
  split
  · exact w
  · exact w.freeHeld.eraseCtx.clearLeft

@[simp] theorem MemoryWf.leave (w : MemoryWf s) {k c} : MemoryWf (s.leave k c) := .ite w.freeHeld.modCtx.clearLeft w.removeCtx

theorem nextWf_execInstanceEnd (w : MemoryWf s) {ctx} : NextWf (execInstanceEnd ctx s) := by
  unfold execInstanceEnd
  repeat' split
  all_goals simp [w]

theorem nextWf_execTurnChange (w : MemoryWf s) {die pcore} : NextWf (execTurnChange die pcore s) := by
  unfold execTurnChange
  rw [nextWf_next]
  dsimp only
  split
  · exact w
  · split
    · exact w
    · exact .ite w (w.foldl fun _ _ wt => wt.requestSave).modDie

theorem nextWf_execPowerThrottle (w : MemoryWf s) {gang cycles} : NextWf (execPowerThrottle gang cycles s) := by simp [execPowerThrottle, w]

/-! ### Machine/Directory -/

@[simp] theorem MemoryWf.setSeq (w : MemoryWf s) {n x} : MemoryWf (State.setSeq s n x) := w

@[simp] theorem MemoryWf.setTail (w : MemoryWf s) {n h} : MemoryWf (State.setTail s n h) := w

theorem MemoryWf.putEntry (w : MemoryWf s) {stack e} : ∀ p, s.putEntry stack e = some p → MemoryWf p.1 := by
  simp only [State.putEntry, Option.map_eq_some_iff]
  rintro p ⟨h, -, rfl⟩
  exact w.same

@[simp] theorem MemoryWf.setEntry (w : MemoryWf s) {h e} : MemoryWf (State.setEntry s h e) := w

@[simp] theorem MemoryWf.freeEntry (w : MemoryWf s) {h} : MemoryWf (State.freeEntry s h) := w

theorem MemoryWf.dspWrite (w : MemoryWf s) {launch who a bytes} : ∀ t, State.dspWrite s launch who a bytes = .ok t → MemoryWf t := by
  unfold State.dspWrite
  dsimp only
  repeat' split
  all_goals simp [w]

theorem MemoryWf.append (w : MemoryWf s) {die x} : ∀ p, s.append die x = .ok p → MemoryWf p.1 := by
  unfold State.append
  split
  · simp [w]
  · dsimp only
    split
    · simp
    · next t ht => simpa using (w.dspWrite t ht).same

@[simp] theorem MemoryWf.signalRing (w : MemoryWf s) {die} : MemoryWf (s.signalRing die) := by
  unfold State.signalRing
  split
  · exact w
  · split
    · exact w
    · exact .ite w (.ite w.semSignal.same w.semSignal)

theorem MemoryWf.notify (w : MemoryWf s) {die x} : ∀ t, s.notify die x = some t → MemoryWf t := by
  unfold State.notify
  split
  · next t l ht => simpa using (w.append _ ht).signalRing
  · split <;> simp [w]

@[simp] theorem MemoryWf.offerRebuild (w : MemoryWf s) {h} : MemoryWf (State.offerRebuild s h) := by
  unfold State.offerRebuild
  split <;> simp [w]

@[simp] theorem MemoryWf.toQuar (w : MemoryWf s) {h e prior fault owed} : MemoryWf (State.toQuar s h e prior fault owed) := w

theorem MemoryWf.quarantine (w : MemoryWf s) {h e prior status fault place} :
    ∀ t, s.quarantine h e prior status fault place = some t → MemoryWf t := w.toQuar.notify

@[simp] theorem MemoryWf.noticeKv (w : MemoryWf s) {die cause} : MemoryWf (State.noticeKv s die cause) := by
  unfold State.noticeKv
  split <;> simp [w]

@[simp] theorem MemoryWf.kvFault (w : MemoryWf s) {x} : MemoryWf (s.kvFault x) := by
  unfold State.kvFault
  dsimp only
  split
  · exact w.same
  · split
    · exact w.same.report
    · refine .ite w.same.report ?_
      split
      · exact w
      · next t ht => exact (w.same.quarantine t ht).noticeKv.offerRebuild

theorem nextWf_execKvFaultReport (w : MemoryWf s) {die n vec seg cause} :
    NextWf (execKvFaultReport die n vec seg cause s) := by simp [execKvFaultReport, w]

theorem nextWf_execRebuildInject (w : MemoryWf s) {handle} : NextWf (execRebuildInject handle s) := by
  unfold execRebuildInject
  rw [nextWf_next]
  split
  · exact w
  · split
    · exact w.getD w.setEntry.notify
    · exact .ite w (.ite w.setEntry w.setEntry.same)
    · exact w

@[simp] theorem MemoryWf.rebuildFailed (w : MemoryWf s) {r cause} : MemoryWf (s.rebuildFailed r cause) := by
  unfold State.rebuildFailed
  split
  · exact w
  · split
    · exact w
    · exact .ite (w.toQuar.getD w.quarantine) w

theorem MemoryWf.openTail (w : MemoryWf s) {slot storage parent pos0 len tag} :
    ∀ p, s.openTail slot storage parent pos0 len tag = some p → MemoryWf p.1 := by
  simp only [State.openTail, Option.map_eq_some_iff]
  rintro p ⟨x, hx, rfl⟩
  exact (w.putEntry x hx).setTail

theorem MemoryWf.nextTail (w : MemoryWf s) {x tail h} : ∀ t, s.nextTail x tail h = some t → MemoryWf t := by
  unfold State.nextTail
  split
  · simp [w]
  · simp only [Option.map_eq_some_iff]
    rintro t ⟨p, hp, rfl⟩
    exact w.openTail p hp

theorem MemoryWf.copyStorage (w : MemoryWf s) {e spare} : ∀ t, s.copyStorage e spare = .ok t → MemoryWf t := by
  unfold State.copyStorage
  dsimp only
  split
  · simp
  · split
    · simp
    · simpa using w.same.foldl fun _ _ wt => wt.poke.sealUnder

@[simp] theorem MemoryWf.offerChildren (w : MemoryWf s) {h} : MemoryWf (State.offerChildren s h) := by simp +contextual [State.offerChildren, w]

@[simp] theorem MemoryWf.afterRecord (w : MemoryWf s) {r die} : MemoryWf (State.afterRecord s r die) := by
  unfold State.afterRecord
  split <;> simp [w]

theorem MemoryWf.kvOpen (w : MemoryWf s) {x} : ∀ p, s.kvOpen x = .ok p → MemoryWf p.1 := by
  unfold State.kvOpen
  split
  · simp
  · split
    · simp [w]
    · next t h e ht => simpa [kvDone] using w.openTail _ ht

theorem MemoryWf.kvOn (w : MemoryWf s) {x} {go : Nat → KvEntry → KvStep} (hgo : ∀ h e p, go h e = .ok p → MemoryWf p.1) :
    ∀ p, s.kvOn x go = .ok p → MemoryWf p.1 := by
  unfold State.kvOn
  split
  · simp [w]
  · exact hgo _ _

theorem MemoryWf.kvSeal (w : MemoryWf s) {x} : ∀ p, s.kvSeal x = .ok p → MemoryWf p.1 := by
  refine w.kvOn fun h e => ?_
  split_ifs
  · simp [w]
  · simp [w]
  · simp [w]
  · simp
  · dsimp only
    split
    · simp [w]
    · next t flags g y ht =>
      rw [Option.bind_eq_some_iff] at ht
      obtain ⟨x, hx, ht⟩ := ht
      rw [Option.map_eq_some_iff] at ht
      obtain ⟨u, hu, hut⟩ := ht
      have wx : MemoryWf x.1 := by
        split at hx
        · cases hx
          exact w.freeEntry.setEntry
        · split at hx
          · rw [Option.map_eq_some_iff] at hx
            obtain ⟨p, hp, rfl⟩ := hx
            exact w.freeEntry.putEntry p hp
          · cases hx
            exact w.setEntry
      obtain ⟨rfl, -⟩ := Prod.mk.inj hut
      simpa [kvDone] using wx.nextTail _ hu

/-- A copy of a page leaves the state as it was, or copies the storage and enters the page. -/
theorem forkCopy_cases {x e phase p} (h : s.forkCopy x e phase = .ok p) :
    p.1 = s ∨ ∃ t u y, s.copyStorage e x.q1 = .ok t ∧ t.putEntry t.bestStack y = some u ∧ p.1 = u.1 := by
  grind [State.forkCopy]

theorem MemoryWf.forkCopy (w : MemoryWf s) {x e phase} : ∀ p, s.forkCopy x e phase = .ok p → MemoryWf p.1 := by
  intro p hp
  rcases forkCopy_cases hp with hs | ⟨t, u, y, ht, hu, hs⟩
  · rwa [hs]
  · rw [hs]
    exact (w.copyStorage t ht).putEntry u hu

theorem MemoryWf.kvFork (w : MemoryWf s) {x} : ∀ p, s.kvFork x = .ok p → MemoryWf p.1 := by
  refine w.kvOn fun h e => ?_
  split
  · simp [w]
  · simp [w]
  · exact w.forkCopy
  · exact w.forkCopy
  · split
    · simp [kvDone, w]
    · exact w.forkCopy

theorem MemoryWf.kvRelease (w : MemoryWf s) {x} : ∀ p, s.kvRelease x = .ok p → MemoryWf p.1 := by
  refine w.kvOn fun h e => ?_
  split_ifs <;> simp [kvDone, w]

theorem MemoryWf.kvResolve (w : MemoryWf s) {x} : ∀ p, s.kvResolve x = .ok p → MemoryWf p.1 :=
  w.kvOn fun h e => by simp [kvDone, w]

theorem MemoryWf.kvTrunc (w : MemoryWf s) {x} : ∀ p, s.kvTrunc x = .ok p → MemoryWf p.1 := by
  refine w.kvOn fun h e => ?_
  split_ifs <;> simp [kvDone, w]

theorem MemoryWf.kvTagrd (w : MemoryWf s) {c x} : ∀ p, s.kvTagrd c x = .ok p → MemoryWf p.1 := by
  refine w.kvOn fun h e => ?_
  split
  · simp
  · next t ht => simpa using w.engineWrite t ht

theorem MemoryWf.kvDoneOp (w : MemoryWf s) {x} : ∀ p, s.kvDoneOp x = .ok p → MemoryWf p.1 := by
  refine w.kvOn fun h e => ?_
  split_ifs <;> simp [w]

theorem MemoryWf.kvRebuild (w : MemoryWf s) {x} : ∀ p, s.kvRebuild x = .ok p → MemoryWf p.1 := by
  refine w.kvOn fun h e => ?_
  split_ifs <;> simp [kvDone, w]

theorem MemoryWf.kvRegister (w : MemoryWf s) {c die x} : ∀ p, s.kvRegister c die x = .ok p → MemoryWf p.1 := by
  unfold State.kvRegister
  dsimp only
  split
  · simp [w]
  · split <;> simp [w]

theorem MemoryWf.runKv (w : MemoryWf s) {id op} {go : Ctx → Cmd → KvStep} (hgo : ∀ c x p, go c x = .ok p → MemoryWf p.1) :
    MemoryWf (s.runKv id op go) := by
  unfold State.runKv
  split
  · exact w
  · refine .ite w ?_
    split
    · exact w
    · dsimp only
      split
      · exact .ite w w.cmdFault
      · next t r ht =>
        split
        · exact .ite w w.cmdFault
        · next u l hu => exact (((hgo _ _ _ ht).append _ hu).foldl fun _ _ wt => wt.fold).afterRecord.same

theorem nextWf_execKvopRegister (w : MemoryWf s) {cmd} : NextWf (execKvopRegister cmd s) := w.runKv fun _ _ => w.kvRegister

theorem nextWf_execKvopOpen (w : MemoryWf s) {cmd} : NextWf (execKvopOpen cmd s) := w.runKv fun _ _ => w.kvOpen

theorem nextWf_execKvopSeal (w : MemoryWf s) {cmd} : NextWf (execKvopSeal cmd s) := w.runKv fun _ _ => w.kvSeal

theorem nextWf_execKvopFork (w : MemoryWf s) {cmd} : NextWf (execKvopFork cmd s) := w.runKv fun _ _ => w.kvFork

theorem nextWf_execKvopRelease (w : MemoryWf s) {cmd} : NextWf (execKvopRelease cmd s) := w.runKv fun _ _ => w.kvRelease

theorem nextWf_execKvopResolve (w : MemoryWf s) {cmd} : NextWf (execKvopResolve cmd s) := w.runKv fun _ _ => w.kvResolve

theorem nextWf_execKvopTrunc (w : MemoryWf s) {cmd} : NextWf (execKvopTrunc cmd s) := w.runKv fun _ _ => w.kvTrunc

theorem nextWf_execKvopTagrd (w : MemoryWf s) {cmd} : NextWf (execKvopTagrd cmd s) := w.runKv fun _ _ => w.kvTagrd

theorem nextWf_execKvopDone (w : MemoryWf s) {cmd} : NextWf (execKvopDone cmd s) := w.runKv fun _ _ => w.kvDoneOp

theorem nextWf_execKvopRebuild (w : MemoryWf s) {cmd} : NextWf (execKvopRebuild cmd s) := w.runKv fun _ _ => w.kvRebuild

end Sys2Proof.Safety
end

section
/-! Every step keeps memory canonical (O3): containment, package words and picks. -/

namespace Sys2Proof.Safety

open Sys2Proof.Machine

variable {s : State}

/-! ### Machine/Contain -/

@[simp] theorem MemoryWf.sweep (w : MemoryWf s) {c} : MemoryWf (s.sweep c) :=
  w.foldl fun _ _ wt => wt.foldl fun _ _ wu => .ite wu.breakBar wu

@[simp] theorem MemoryWf.breakWindows (w : MemoryWf s) {k} : MemoryWf (s.breakWindows k) :=
  (w.foldl fun _ _ wt => wt.foldl fun _ _ wu => .ite wu.breakWin wu).foldl fun _ _ wt => wt.foldl fun _ _ wu => .ite wu.breakWin wu

@[simp] theorem MemoryWf.settleOne (w : MemoryWf s) {id} : MemoryWf (s.settleOne id) := by
  unfold State.settleOne
  split
  · exact w
  · next p _ =>
    split
    · exact w
    · next c _ =>
      have settled {t : State} (wt : MemoryWf t) :
          MemoryWf (match t.packet? id with
            | none => t
            | some r => if r.stage == .parked && r.act.writes then t else t.dropPacket id) := by
        split
        · exact wt
        · exact .ite wt wt.dropPacket
      refine settled ?_
      split
      · exact w.setPacket.applyAccess
      · exact w

@[simp] theorem MemoryWf.kill (w : MemoryWf s) {k} : MemoryWf (s.kill k) := by
  unfold State.kill
  split
  · exact w
  · refine .ite w.removeCtx ?_
    refine MemoryWf.same (MemoryWf.removeCtx (MemoryWf.breakWindows (MemoryWf.sweep ?_)))
    refine MemoryWf.foldl (MemoryWf.loseSight (MemoryWf.endWrites ?_)) fun _ _ wt => wt.settleOne
    exact w.foldl fun _ _ wt => wt.breakRanks.discardCmd

@[simp] theorem MemoryWf.breakSems (w : MemoryWf s) {g} : MemoryWf (s.breakSems g) :=
  w.foldl fun _ _ wt => wt.foldl fun _ _ wu => wu.breakSem

@[simp] theorem MemoryWf.breakLaunch (w : MemoryWf s) {launch} : MemoryWf (State.breakLaunch s launch) := by
  unfold State.breakLaunch
  split <;> simp [w]

@[simp] theorem MemoryWf.terminate (w : MemoryWf s) {ks} : MemoryWf (s.terminate ks) := by
  have broken {l} : MemoryWf (List.foldl State.breakLaunch s l) := w.foldl fun _ _ wt => wt.breakLaunch
  have killed {l m} : MemoryWf (List.foldl State.kill (List.foldl State.breakLaunch s l) m) := broken.foldl fun _ _ wt => wt.kill
  exact killed.foldl fun _ _ wt => wt.modRun

@[simp] theorem MemoryWf.endInjected (w : MemoryWf s) {launch cause} : MemoryWf (s.endInjected launch cause) :=
  w.foldl fun _ _ wt => wt.modRun.rebuildFailed

@[simp] theorem MemoryWf.restart (w : MemoryWf s) {o x steps l} : MemoryWf (s.restart o x steps l) := by
  have again {f : State → Nat × List Nat → State} (hf : ∀ t e, MemoryWf t → MemoryWf (f t e)) {es} :
      MemoryWf (List.foldl f (s.resetSems x.image) es) := w.resetSems.foldl hf
  cases l with
  | task => exact w.resetSems.modRun
  | gang => exact .ite w.resetSems.modRun (again fun _ _ wt => wt.modRun)
  | graph | context => exact (w.resetSems.endInjected.foldl fun _ _ wt => wt.modRun).same

@[simp] theorem MemoryWf.failRun (w : MemoryWf s) {cause n} : MemoryWf (s.failRun cause n) := by
  unfold State.failRun
  split
  · exact w
  · exact .ite w w.modRun.rebuildFailed.same

@[simp] theorem MemoryWf.failLaunch (w : MemoryWf s) {cause task key} : MemoryWf (s.failLaunch cause task key) :=
  (w.same.foldl fun _ _ wt => wt.failRun).advance

@[simp] theorem MemoryWf.killed (w : MemoryWf s) {o x runs l} : MemoryWf (s.killed o x runs l) := by
  cases l with
  | task => exact w.failRun.advance
  | gang => exact (w.foldl fun _ _ wt => wt.failRun).advance
  | graph => exact w.failLaunch
  | context => exact w.foldl fun _ _ wt => wt.failLaunch

@[simp] theorem MemoryWf.resumeStopped (w : MemoryWf s) {k} : MemoryWf (State.resumeStopped s k) := by
  unfold State.resumeStopped
  repeat' split
  all_goals simp [w]

@[simp] theorem MemoryWf.act (w : MemoryWf s) {o x l v} : MemoryWf (s.act o x l v) := by
  cases v with
  | ignore => exact .ite w.resumeStopped w
  | retry => exact w.terminate.restart.advance
  | kill => exact w.terminate.killed

theorem nextWf_execContainmentOffer (w : MemoryWf s) : NextWf (execContainmentOffer s) := by
  unfold execContainmentOffer
  rw [nextWf_next]
  split
  · exact w
  · dsimp only
    split
    · exact w.same
    · exact .ite w.same.report w.same.act.report

/-! ### Machine/Words -/

@[simp] theorem MemoryWf.deferNotice (w : MemoryWf s) {k cause} : MemoryWf (State.deferNotice s k cause) := by simp [State.deferNotice, w]

theorem nextWf_execMailboxPlace (w : MemoryWf s) {req} : NextWf (execMailboxPlace req s) := by
  unfold execMailboxPlace
  dsimp only
  repeat' split
  all_goals simp [w]

@[simp] theorem MemoryWf.writeHorizon (w : MemoryWf s) {n h} : MemoryWf (State.writeHorizon s n h) := w

@[simp] theorem MemoryWf.serveDeskew (w : MemoryWf s) {old drift e} : MemoryWf (State.serveDeskew s old drift e) := by
  unfold State.serveDeskew
  split <;> simp [w]

theorem nextWf_execDeskewEpoch (w : MemoryWf s) : NextWf (execDeskewEpoch s) := by
  refine MemoryWf.ite w (MemoryWf.same (MemoryWf.foldl (MemoryWf.foldl w ?_) ?_))
  · exact fun _ _ wt => wt.modDie
  · exact fun _ _ wt => wt.serveDeskew

/-! ### Machine/Lauter -/

theorem MemoryWf.extendTail (w : MemoryWf s) {slot p x} : ∀ t, State.extendTail s slot p x = some t → MemoryWf t := by
  unfold State.extendTail
  dsimp only
  repeat' split
  all_goals simp [w]

@[simp] theorem MemoryWf.commitPick (w : MemoryWf s) {cmd p x} : MemoryWf (s.commitPick cmd p x).1 := by
  unfold State.commitPick
  dsimp only
  split
  · exact w
  · next t ht =>
    split
    · exact w
    · exact (w.extendTail t ht).writeHorizon.setSeq.same

theorem MemoryWf.endLauter {c id cmd} {r : State × List Byte} (w : MemoryWf r.1) : ∀ t, State.endLauter c id cmd r = .ok t → MemoryWf t := by
  unfold State.endLauter
  split
  · simp
  · next t ht => simpa using (w.engineWrite t ht).same

theorem MemoryWf.readQ (w : MemoryWf s) {c a} : ∀ p, s.readQ c a = .ok p → MemoryWf p.1 := by
  unfold State.readQ
  split
  · simp
  · next t b ht =>
    have wt : MemoryWf t := w.engineRead _ ht
    dsimp only
    split
    · simp [wt]
    · split
      · simp
      · next u d hu => simpa using wt.engineRead _ hu

theorem MemoryWf.readQs (w : MemoryWf s) {c q l} : ∀ p, s.readQs c q l = .ok p → MemoryWf p.1 := by
  induction l generalizing s with
  | nil => simp [State.readQs, w]
  | cons i l ih =>
    unfold State.readQs
    split
    · simp
    · next t ht => simpa using w.readQ _ ht
    · next t a ht =>
      split
      · simp
      · next u r hu => simpa using ih (w.readQ _ ht) _ hu

theorem MemoryWf.readUniforms (w : MemoryWf s) {c d} : ∀ p, s.readUniforms c d = .ok p → MemoryWf p.1 := by
  unfold State.readUniforms
  split
  · simp [w]
  · dsimp only
    split
    · simp
    · next t b ht => simpa using w.engineRead _ ht

theorem MemoryWf.readPick (w : MemoryWf s) {c x} : ∀ p, s.readPick c x = .ok p → MemoryWf p.1 := by
  unfold State.readPick
  split
  · simp
  · next t d ht =>
    have wt : MemoryWf t := w.engineRead _ ht
    split
    · simp [wt]
    · split
      · simp
      · next u hu => simpa using wt.readQs _ hu
      · next u qs hu =>
        have wu : MemoryWf u := wt.readQs _ hu
        split
        · simp [wu]
        · split
          · simp
          · next v us hv => simpa using wu.readUniforms _ hv

theorem MemoryWf.maskArrived (w : MemoryWf s) {c d} : ∀ p, s.maskArrived c d = .ok p → MemoryWf p.1 := by
  unfold State.maskArrived
  split
  · simp [w]
  · split
    · simp
    · next t b ht => simpa using w.engineRead _ ht

theorem MemoryWf.readRows (w : MemoryWf s) {c d l} : ∀ p, s.readRows c d l = .ok p → MemoryWf p.1 := by
  induction l generalizing s with
  | nil => simp [State.readRows, w]
  | cons i l ih =>
    unfold State.readRows
    dsimp only
    split
    · simp
    · next t b ht =>
      split
      · simp
      · next u b hu =>
        split
        · simp
        · next v r hv => simpa using ih ((w.engineRead _ ht).engineRead _ hu) _ hv

theorem MemoryWf.maskedRows (w : MemoryWf s) {c d} : ∀ p, s.maskedRows c d = .ok p → MemoryWf p.1 := by
  unfold State.maskedRows
  split
  · simp
  · next t rows ht =>
    have wt : MemoryWf t := w.readRows _ ht
    split
    · simp [wt]
    · split
      · simp
      · next u m hu => simpa using wt.engineRead _ hu

theorem MemoryWf.runPick (w : MemoryWf s) {c id cmd p} : ∀ t, s.runPick c id cmd p = .ok t → MemoryWf t := by
  unfold State.runPick
  split
  · simp
  · next t rows ht =>
    have wt : MemoryWf t := w.maskedRows _ ht
    split
    · exact .endLauter wt
    · split
      · exact .endLauter wt
      · exact .endLauter wt.commitPick

theorem MemoryWf.startLauter (w : MemoryWf s) {c id cmd} : ∀ t, s.startLauter c id cmd = .ok t → MemoryWf t := by
  unfold State.startLauter
  split
  · simp
  · next t ht => exact .endLauter (w.readPick _ ht)
  · next t p ht =>
    have wt : MemoryWf t := w.readPick _ ht
    split
    · simp
    · next u hu => exact (wt.maskArrived _ hu).runPick
    · next u hu =>
      have wu : MemoryWf u := wt.maskArrived _ hu
      split
      · exact .endLauter wu
      · simp [wu]

@[simp] theorem MemoryWf.lauterStep (w : MemoryWf s) {id cmd} {go : Ctx → Except ElemFault State} (hgo : ∀ c t, go c = .ok t → MemoryWf t) :
    MemoryWf (s.lauterStep id cmd go) := by
  unfold State.lauterStep
  split
  · exact w
  · split
    · exact w.cmdFault
    · split
      · exact .ite w w.cmdFault
      · next t ht => exact hgo _ t ht

theorem nextWf_execLauter (w : MemoryWf s) {cmd} : NextWf (execLauter cmd s) := by
  unfold execLauter
  rw [nextWf_next]
  split
  · exact w
  · exact .ite (w.lauterStep fun _ => w.startLauter) (.ite (w.lauterStep fun _ => w.runPick) w)

theorem nextWf_execLauterMaskPoll (w : MemoryWf s) {cmd} : NextWf (execLauterMaskPoll cmd s) := by
  unfold execLauterMaskPoll
  rw [nextWf_next]
  split
  · exact w
  · refine .ite (w.lauterStep fun c => ?_) w
    split
    · simp
    · next t _ ht => simpa using (w.maskArrived _ ht).same

theorem nextWf_execLauterForward (w : MemoryWf s) {cmd} : NextWf (execLauterForward cmd s) := by
  unfold execLauterForward
  repeat' split
  all_goals simp [w]

end Sys2Proof.Safety
end

section
/-! Every step keeps memory canonical (O3): the fabric, boot, resets and the management processor. -/

namespace Sys2Proof.Safety

open Sys2Proof.Machine

variable {s : State}

/-! ### Machine/Fabric -/

theorem nextWf_execReplicaPairArrival (w : MemoryWf s) {step digest} : NextWf (execReplicaPairArrival step digest s) := by
  unfold execReplicaPairArrival
  split <;> simp [w]

@[simp] theorem MemoryWf.peerEffect (w : MemoryWf s) {node r} : MemoryWf (s.peerEffect node r).1 := by
  unfold State.peerEffect
  dsimp only
  split
  · exact w
  · split
    · exact w
    · split
      · exact w.pokes.cleanse.sealUnder
      · split
        · exact w.fillHomes
        · exact w.fillHomes

@[simp] theorem MemoryWf.replyTo (w : MemoryWf s) {node sseq cause data} : MemoryWf (State.replyTo s node sseq cause data) := w

@[simp] theorem MemoryWf.applyPeer (w : MemoryWf s) {node r} : MemoryWf (s.applyPeer node r) := w.peerEffect.countRx.replyTo

@[simp] theorem MemoryWf.releaseHeld (w : MemoryWf s) {node n} : MemoryWf (s.releaseHeld node n) := by
  induction n generalizing s with
  | zero => exact w
  | succ n ih =>
    unfold State.releaseHeld
    split
    · exact w
    · exact ih w.same.applyPeer

theorem nextWf_execPeerRequestApply (w : MemoryWf s) {node r} : NextWf (execPeerRequestApply node r s) := by
  have wt {fab} : MemoryWf { s with fab := fab } := w
  exact .ite wt.replyTo (.ite w (.ite wt.applyPeer.releaseHeld w.same))

theorem nextWf_execFabricFlushMarker (w : MemoryWf s) {node m} : NextWf (execFabricFlushMarker node m s) := by
  have wt {fab} : MemoryWf { s with fab := fab } := w
  exact .ite wt.replyTo (.ite wt.countNext.replyTo.releaseHeld w)

@[simp] theorem MemoryWf.abortFlush (w : MemoryWf s) {node k} : MemoryWf (State.abortFlush s node k) := by
  unfold State.abortFlush
  split <;> simp [w]

@[simp] theorem MemoryWf.abortPeer (w : MemoryWf s) {node} : MemoryWf (State.abortPeer s node) := by simp +contextual [State.abortPeer, w]

@[simp] theorem MemoryWf.abortMover (w : MemoryWf s) {node} : MemoryWf (State.abortMover s node) := by simp +contextual [State.abortMover, w]

@[simp] theorem MemoryWf.abortRcmp (w : MemoryWf s) {node} : MemoryWf (State.abortRcmp s node) := by
  unfold State.abortRcmp
  repeat' split
  all_goals simp [w]

@[simp] theorem MemoryWf.abortColl (w : MemoryWf s) {waitsOn} : MemoryWf (s.abortColl waitsOn) :=
  w.foldl fun _ _ wt => .ite wt.cmdFaultFree wt

theorem nextWf_execNodeUnreachable (w : MemoryWf s) {node} : NextWf (execNodeUnreachable node s) :=
  (w.abortPeer.abortMover.foldl fun _ _ wt => wt.abortFlush).abortColl.abortRcmp

/-! ### Machine/Link -/

@[simp] theorem MemoryWf.offerLink (w : MemoryWf s) {l} : MemoryWf (State.offerLink s l) := by
  unfold State.offerLink
  split <;> simp [w]

@[simp] theorem MemoryWf.reportLink (w : MemoryWf s) {l module stepDown} : MemoryWf (State.reportLink s l module stepDown) := w

@[simp] theorem MemoryWf.degraded (w : MemoryWf s) {l module} : MemoryWf (State.degraded s l module) := by simp [State.degraded, w]

theorem nextWf_execLaneFail (w : MemoryWf s) {link module up} : NextWf (execLaneFail link module up s) :=
  .ite w w.modLink.degraded.askRetrain

@[simp] theorem MemoryWf.retireFailed (w : MemoryWf s) {l t} : MemoryWf (State.retireFailed s l t) := by simp +contextual [State.retireFailed, w]

@[simp] theorem MemoryWf.retrain (w : MemoryWf s) {l r t} : MemoryWf (s.retrain l r t) :=
  .ite w.modLink.retireFailed.same.reportLink.offerLink w.modLink.retireFailed.same

theorem nextWf_execRetrain (w : MemoryWf s) {link step t} : NextWf (execRetrain link step t s) := by
  unfold execRetrain
  dsimp only
  repeat' split
  all_goals simp [w]

theorem nextWf_execFlitReplay (w : MemoryWf s) {link} : NextWf (execFlitReplay link s) := by simp [execFlitReplay, w]

theorem nextWf_execReplayWindowStepDown (w : MemoryWf s) {link step} :
    NextWf (execReplayWindowStepDown link step s) := by simp [execReplayWindowStepDown, w]

/-! ### Machine/Boot -/

@[simp] theorem MemoryWf.endStep (w : MemoryWf s) {n ok} : MemoryWf (State.endStep s n ok) := w

@[simp] theorem MemoryWf.retireCores (w : MemoryWf s) {die alt b} : MemoryWf (s.retireCores die alt b) :=
  MemoryWf.foldl w.same fun _ _ wt => wt.modDie.report

@[simp] theorem MemoryWf.trainStacks (w : MemoryWf s) {die alt b} : MemoryWf (State.trainStacks s die alt b) := w

@[simp] theorem MemoryWf.failLanes (w : MemoryWf s) {l lanes} : MemoryWf (s.failLanes l lanes) :=
  w.foldl fun _ _ wt => .ite wt wt.modLink.degraded

@[simp] theorem MemoryWf.overdrive (w : MemoryWf s) {ok alt b l} : MemoryWf (State.overdrive s ok alt b l) := w

@[simp] theorem MemoryWf.measureZones (w : MemoryWf s) {b} : MemoryWf (s.measureZones b) :=
  MemoryWf.foldl w.same fun _ _ wt => .ite wt wt.report

@[simp] theorem MemoryWf.doStep (w : MemoryWf s) {b alt n} : MemoryWf (State.doStep s b alt n).1 := by
  unfold State.doStep
  dsimp only
  repeat' split
  all_goals simp +contextual [w]

@[simp] theorem MemoryWf.cutShort (w : MemoryWf s) {old n} : MemoryWf (State.cutShort s old n) := by simp [State.cutShort, w]

@[simp] theorem MemoryWf.bootStep (w : MemoryWf s) {old b n} : MemoryWf (s.bootStep old b n) :=
  .ite w (.ite w.cutShort.same (MemoryWf.doStep w.cutShort.same).endStep)

@[simp] theorem MemoryWf.powerUp (w : MemoryWf s) : MemoryWf s.powerUp := ⟨Mem.wf_empty, w.2⟩

theorem nextWf_execPackagePowerUp (w : MemoryWf s) {b} : NextWf (execPackagePowerUp b s) := by
  have wt : MemoryWf ((range 1 9).foldl (State.bootStep s.journal b) s.powerUp) := w.powerUp.foldl fun _ _ wt => wt.bootStep
  exact .ite (wt.foldl fun _ _ wt => wt.modDie) wt

@[simp] theorem MemoryWf.rebootDie (w : MemoryWf s) {r} : MemoryWf (s.rebootDie r) := by
  refine (MemoryWf.foldl w.retireCores.endStep.trainStacks.endStep fun t l wt => ?_).endStep.endStep
  exact .ite wt wt.modLink.failLanes.retireFailed.same

/-! ### Machine/Reset -/

@[simp] theorem MemoryWf.loseCmd (w : MemoryWf s) {die e} : MemoryWf (State.loseCmd s die e) := by
  unfold State.loseCmd
  repeat' split
  all_goals simp [w]

@[simp] theorem MemoryWf.loseContexts (w : MemoryWf s) {die} : MemoryWf (s.loseContexts die) := by
  have wt {l : List (Nat × Cmd)} : MemoryWf (l.foldl (fun s e => s.loseCmd die e) s) := w.foldl fun _ _ wt => wt.loseCmd
  exact wt.loseSight.same.clearLeft

@[simp] theorem MemoryWf.loseUnits (w : MemoryWf s) {die} : MemoryWf (State.loseUnits s die) := by
  unfold State.loseUnits
  repeat' split
  all_goals simp [w]

@[simp] theorem MemoryWf.loseLlc (w : MemoryWf s) {die} : MemoryWf (s.loseLlc die) := s.loseLlc_wf die w

@[simp] theorem MemoryWf.endTouched (w : MemoryWf s) {die runs} : MemoryWf (s.endTouched die runs) :=
  MemoryWf.foldl (w.terminate.foldl fun _ _ wt => wt.failRun).same fun _ _ wt => wt.advance

@[simp] theorem MemoryWf.resetDie (w : MemoryWf s) {die reason} : MemoryWf (s.resetDie die reason) :=
  .ite w (w.loseContexts.loseLlc.modDie.loseUnits.endTouched.foldl fun _ _ wt => wt.modDie).report

theorem nextWf_execDieReset (w : MemoryWf s) {die reason} : NextWf (execDieReset die reason s) := by simp [execDieReset, w]

@[simp] theorem MemoryWf.abortOne (w : MemoryWf s) {die other e} : MemoryWf (State.abortOne s die other e) := by
  unfold State.abortOne
  split <;> simp [w]

theorem nextWf_execQuiesce (w : MemoryWf s) {die other} : NextWf (execQuiesce die other s) := by
  refine MemoryWf.ite w (MemoryWf.modDie (MemoryWf.abortColl ?_))
  exact (w.foldl fun _ _ wt => wt.abortOne).foldl fun _ _ wt => wt.abortCut

theorem nextWf_execDieRejoin (w : MemoryWf s) {r} : NextWf (execDieRejoin r s) := by
  refine MemoryWf.ite w (MemoryWf.same (MemoryWf.foldl (MemoryWf.rebootDie ?_) fun _ _ wt => wt.complete))
  exact w.modDie.foldl fun _ _ wt => wt.modDie

/-! ### Machine/Admin -/

@[simp] theorem MemoryWf.modWindow (w : MemoryWf s) {n f} : MemoryWf (State.modWindow s n f) := by simp [State.modWindow, w]

@[simp] theorem MemoryWf.hostWrite (w : MemoryWf s) {a bytes} : MemoryWf (s.hostWrite a bytes) := s.hostWrite_wf a bytes w

theorem nextWf_execCompletionRecord (w : MemoryWf s) {die} : NextWf (execCompletionRecord die s) := by
  unfold execCompletionRecord
  dsimp only
  repeat' split
  all_goals simp [w]

theorem nextWf_execCmplHeadWrite (w : MemoryWf s) {die off v} : NextWf (execCmplHeadWrite die off v s) := by
  unfold execCmplHeadWrite
  repeat' split
  all_goals simp [w]

theorem nextWf_execFlushReadComplete (w : MemoryWf s) {die} : NextWf (execFlushReadComplete die s) := by simp [execFlushReadComplete, w]

@[simp] theorem MemoryWf.adminDone (w : MemoryWf s) {status} : MemoryWf (State.adminDone s status) := w

theorem nextWf_adminCommand (w : MemoryWf s) {refused} {t : State} (wt : MemoryWf t) : NextWf (s.adminCommand refused t) :=
  MemoryWf.ite w (.ite w.adminDone wt.adminDone)

theorem nextWf_execCtxOpen (w : MemoryWf s) {id policy xroot kek} : NextWf (execCtxOpen id policy xroot kek s) := by
  unfold execCtxOpen
  split
  · exact nextWf_adminCommand w w
  · exact nextWf_adminCommand w w.same

@[simp] theorem MemoryWf.reportKey (w : MemoryWf s) {slot clear id} : MemoryWf (State.reportKey s slot clear id) := w

/-- Writes into a memory keep its canonical form. -/
theorem Mem.wf_writes {m : Mem} (h : m.wf = true) {f : Nat → Byte} {l : List Nat} : (l.foldl (fun m a => m.write a (f a)) m).wf = true := by
  induction l generalizing m with
  | nil => exact h
  | cons a l ih => exact ih (Mem.wf_write _ _ _ h)

@[simp] theorem MemoryWf.loseLines (w : MemoryWf s) {slot} : MemoryWf (s.loseLines slot) := ⟨Mem.wf_writes w.1, w.2⟩

@[simp] theorem MemoryWf.clearKey (w : MemoryWf s) {id slot} : MemoryWf (s.clearKey id slot) := (MemoryWf.loseLines w.same).reportKey

@[simp] theorem MemoryWf.endHostLaunches (w : MemoryWf s) {id} : MemoryWf (s.endHostLaunches id) := by
  have wt {ks} : MemoryWf (State.terminate { s with serial := s.serial + 1 } ks) := MemoryWf.terminate w.same
  exact (wt.foldl fun _ _ wt => wt.failLaunch).foldl fun _ _ wt => wt.foldl fun _ _ wu => wu.modDie.complete

theorem nextWf_execCtxClose (w : MemoryWf s) {id} : NextWf (execCtxClose id s) := by
  refine nextWf_adminCommand w (MemoryWf.same ?_)
  exact (w.endHostLaunches.foldl fun _ _ wt => wt.clearKey).foldl fun _ _ wt => wt.modDie

@[simp] theorem MemoryWf.dropGraph (w : MemoryWf s) {gid} : MemoryWf (State.dropGraph s gid) := w

theorem nextWf_execUpload (w : MemoryWf s) {id g} : NextWf (execUpload id g s) :=
  nextWf_adminCommand w (w.dropGraph.foldl fun _ _ wt => wt.modDie)

theorem nextWf_execFree (w : MemoryWf s) {gid} : NextWf (execFree gid s) := nextWf_adminCommand w w.dropGraph

theorem nextWf_execKeyLoad (w : MemoryWf s) {id slot wrapped} : NextWf (execKeyLoad id slot wrapped s) := by
  unfold execKeyLoad
  split
  · exact nextWf_adminCommand w w
  · exact nextWf_adminCommand w (MemoryWf.ite w w.loseLines).same.reportKey

theorem nextWf_execKeyClear (w : MemoryWf s) {id slot} : NextWf (execKeyClear id slot s) := nextWf_adminCommand w w.clearKey

theorem nextWf_execResetDie (w : MemoryWf s) {die} : NextWf (execResetDie die s) := nextWf_adminCommand w w.resetDie

@[simp] theorem MemoryWf.freePage (w : MemoryWf s) {pa} : MemoryWf (State.freePage s pa) := by simp +contextual [State.freePage, w]

theorem nextWf_execRetirePage (w : MemoryWf s) {pa} : NextWf (execRetirePage pa s) := nextWf_adminCommand w w.freePage.same.report

theorem nextWf_execFwStage (w : MemoryWf s) {image dies} : NextWf (execFwStage image dies s) := nextWf_adminCommand w w.same

@[simp] theorem MemoryWf.switchFirmware (w : MemoryWf s) {dies} : MemoryWf (s.switchFirmware dies) :=
  .ite w (MemoryWf.report (MemoryWf.ite (MemoryWf.foldl w.same fun _ _ wt => wt.modDie) w.same))

theorem nextWf_execFwSwitch (w : MemoryWf s) : NextWf (execFwSwitch s) := nextWf_adminCommand w w.switchFirmware.switchFirmware

theorem nextWf_execAttest (w : MemoryWf s) {nonce dst} : NextWf (execAttest nonce dst s) := nextWf_adminCommand w w.hostWrite

theorem nextWf_execLogRead (w : MemoryWf s) {a b dst} : NextWf (execLogRead a b dst s) := nextWf_adminCommand w w.hostWrite

theorem nextWf_execJournalClear (w : MemoryWf s) {step} : NextWf (execJournalClear step s) := nextWf_adminCommand w w.same

theorem nextWf_execHandlerLoad (w : MemoryWf s) {die image} : NextWf (execHandlerLoad die image s) := nextWf_adminCommand w w.modDie

@[simp] theorem MemoryWf.appendLog (w : MemoryWf s) {r} : MemoryWf (State.appendLog s r) := w

theorem nextWf_execErrorLogAppend (w : MemoryWf s) : NextWf (execErrorLogAppend s) := by
  unfold execErrorLogAppend
  rw [nextWf_next]
  split
  · exact w
  · exact .ite w.same (.ite (MemoryWf.appendLog w.same) (MemoryWf.appendLog w.same).same)

theorem nextWf_execTimeLogEntry (w : MemoryWf s) {die} : NextWf (execTimeLogEntry die s) := by
  unfold execTimeLogEntry
  split <;> simp [w]

@[simp] theorem MemoryWf.askRetire (w : MemoryWf s) {pa} : MemoryWf (State.askRetire s pa) := w

@[simp] theorem MemoryWf.countError (w : MemoryWf s) {pa corrected} : MemoryWf (State.countError s pa corrected) := by
  unfold State.countError
  repeat' split
  all_goals simp [w]

@[simp] theorem MemoryWf.damage (w : MemoryWf s) {unit loc} : MemoryWf (State.damage s unit loc) := by
  unfold State.damage
  split <;> simp [w]

theorem nextWf_execMemoryError (w : MemoryWf s) {die unit loc corrected} : NextWf (execMemoryError die unit loc corrected s) := by
  refine MemoryWf.ite w ?_
  have wt : MemoryWf (if unit = 3 then (s.report die (if corrected then 1 else 2) (if corrected then 0 else causeEccUe)
      (unit * 2 ^ 28 + loc % 2 ^ 28)).countError loc corrected
      else s.report die (if corrected then 1 else 2) (if corrected then 0 else causeEccUe) (unit * 2 ^ 28 + loc % 2 ^ 28)) :=
    .ite w.report.countError w.report
  exact .ite wt (.ite wt.resetDie wt.damage)

theorem nextWf_execLlcSliceRetire (w : MemoryWf s) {die slice} : NextWf (execLlcSliceRetire die slice s) := by
  unfold execLlcSliceRetire
  split <;> simp [w]

/-! ### Machine/Service -/

theorem nextWf_runSlot (w : MemoryWf s) {ex : Exec} (hex : ∀ i t, MemoryWf t → NextWf (ex i t)) : NextWf (s.runSlot ex) := by
  unfold State.runSlot
  split
  · exact w
  · split
    · exact w.takeTrap
    · split
      · exact w.takeTrap
      · exact hex _ s w

@[simp] theorem MemoryWf.plan (w : MemoryWf s) {ex k c} : MemoryWf (State.plan ex s k c) := by
  unfold State.plan
  dsimp only
  repeat' split
  all_goals simp [w]

@[simp] theorem MemoryWf.nextOr (w : MemoryWf s) {o} (h : NextWf o) : MemoryWf (nextOr s o) := by
  cases o with
  | next t => exact h
  | fault _ => exact w
  | refused _ => exact w

@[simp] theorem MemoryWf.boundary (w : MemoryWf s) {ex k c} : MemoryWf (s.boundary ex k c) := by
  unfold State.boundary
  split
  · exact w.setCtx.boundaryTrap
  · refine .ite w.finishCtx ?_
    split
    · exact w
    · exact w.nextOr (nextWf_execAsyncCauseOffer w)
    · exact w.setCtx
    · exact w.nextOr (nextWf_execGateLift w)
    · exact w.nextOr (nextWf_execQueueDeadlock w)
    · exact w.nextOr (nextWf_execDeliveryVisible w)
    · exact w.nextOr (nextWf_execDeliveryVisible w)
    · exact w.nextOr (nextWf_execJoinRendezvous w)
    · exact w.plan

@[simp] theorem MemoryWf.tick (w : MemoryWf s) : MemoryWf s.tick := MemoryWf.same (w.foldl fun _ _ wt => wt.refreshHolds)

end Sys2Proof.Safety
end

section
/-! Every step keeps memory canonical (O3): the words. -/

namespace Sys2Proof.Safety

open Sys2Proof.Machine

variable {s : State}

/-! ### The bodies of words -/

theorem nextWf_word (w : MemoryWf s) {i h u body} (hb : ∀ a b l t, MemoryWf t → BodyWf (body a b l t)) : NextWf (word i h u body s) :=
  w.examine hb

theorem BodyWf.ite {p : Prop} [Decidable p] {b d : Body} (hb : BodyWf b) (hd : BodyWf d) : BodyWf (if p then b else d) := by
  split
  · exact hb
  · exact hd

theorem BodyWf.withCtx (w : MemoryWf s) {b} (hb : ∀ c, BodyWf (b c)) : BodyWf (withCtx s b) := by
  unfold Machine.withCtx
  split
  · exact w
  · exact hb _

theorem BodyWf.gateWord {g b} (hb : BodyWf (b s)) : BodyWf (s.gateWord g b) := by
  unfold State.gateWord
  dsimp only
  split
  · exact hb
  · refine .ite trivial ?_
    split
    · trivial
    · exact hb

theorem BodyWf.outsideHandler {b} (hb : BodyWf b) : BodyWf (outsideHandler s b) := .ite trivial hb

theorem BodyWf.insideHandler {b} (hb : BodyWf b) : BodyWf (insideHandler s b) := .ite hb trivial

theorem BodyWf.landingBody (w : MemoryWf s) {b} (hb : ∀ c, BodyWf (b c)) : BodyWf (landingBody s b) :=
  .withCtx w fun c => .ite trivial (hb c)

theorem BodyWf.loopBody (w : MemoryWf s) {lc count off} : BodyWf (loopBody lc count off s) :=
  .ite (.ite w.modCl w.modCl) trivial

theorem BodyWf.uninitBody (w : MemoryWf s) {u go} (hgo : ∀ t, MemoryWf t → BodyWf (go t)) : BodyWf (uninitBody u go s) := by
  refine .withCtx w fun c => ?_
  split
  · exact hgo s w
  · exact .ite trivial (hgo _ w.setCtx)

theorem BodyWf.blockBody (w : MemoryWf s) {a go} (hgo : ∀ c, BodyWf (go c)) : BodyWf (blockBody a go s) := by
  refine .withCtx w fun c => ?_
  split
  · trivial
  · exact hgo c

theorem BodyWf.readBlock (w : MemoryWf s) {a go} (hgo : ∀ l t, MemoryWf t → BodyWf (go l t)) : BodyWf (readBlock a go s) :=
  .withCtx w fun _ => .ite trivial (.uninitBody w (hgo _))

theorem BodyWf.elemsBody (w : MemoryWf s) {es go} (hgo : ∀ c t, MemoryWf t → BodyWf (go c t)) : BodyWf (elemsBody es go s) := by
  refine .withCtx w fun c => ?_
  split
  · exact hgo c s w
  · exact .ite trivial (hgo c _ w.setCtx)

theorem BodyWf.arrayBody (w : MemoryWf s) {go} (hgo : ∀ c, BodyWf (go c s)) : BodyWf (arrayBody go s) :=
  .withCtx w fun c => .ite (hgo c) trivial

theorem BodyWf.halfBody (w : MemoryWf s) {half n a go} (hgo : ∀ l t, MemoryWf t → BodyWf (go l t)) : BodyWf (halfBody half n a go s) := by
  refine .arrayBody w fun c => .ite trivial (.ite trivial (.ite trivial (.ite trivial ?_)))
  dsimp only
  split
  · trivial
  · exact hgo _ s w
  · exact .ite trivial (hgo _ _ w.setCtx)

theorem BodyWf.loadBody (w : MemoryWf s) {sp n align lat ord sc set base a b} : BodyWf (loadBody sp n align lat ord sc set base a b s) := by
  refine .withCtx w fun c => ?_
  dsimp only
  split
  · trivial
  · split
    · exact w.setCtx.addLanding
    · exact .ite trivial w.addLanding.sendLoads

theorem BodyWf.storeBody (w : MemoryWf s) {sp addr align bytes ord sc uninit} : BodyWf (storeBody sp addr align bytes ord sc uninit s) := by
  refine .withCtx w fun c => ?_
  split
  · trivial
  · refine .ite trivial (.ite trivial ?_)
    dsimp only
    split
    · exact w.setCtx
    · exact .ite (.gateWord w.setCtx.sendStores) w.setCtx.sendStores

theorem BodyWf.barBody (w : MemoryWf s) {act bad land a} : BodyWf (barBody act bad land a s) := by
  refine .withCtx w fun c => .ite trivial (.ite trivial (.ite trivial (.ite trivial ?_)))
  cases land with
  | none => exact .ite (.gateWord w.send) w.send
  | some d => exact .ite (.gateWord w.addLanding.send) w.addLanding.send

theorem BodyWf.atomicBody (w : MemoryWf s) {f n deliver act a b} : BodyWf (atomicBody f n deliver act a b s) := by
  refine .withCtx w fun c => .ite trivial (.ite trivial (.ite trivial ?_))
  exact .ite (.gateWord (.ite w.addLanding.send w.send)) (.ite w.addLanding.send w.send)

theorem BodyWf.windowBody (w : MemoryWf s) {a go} (hgo : ∀ c sp addr, BodyWf (go c sp addr s)) : BodyWf (windowBody a go s) :=
  .withCtx w fun c => .ite trivial (.ite trivial (hgo c _ _))

theorem BodyWf.pushBody (w : MemoryWf s) {off patch rec bad go} (hgo : ∀ x r t, MemoryWf t → MemoryWf (go x r t)) :
    BodyWf (pushBody off patch rec bad go s) := by
  refine .withCtx w fun c => .ite trivial (.ite trivial (.ite trivial ?_))
  exact .ite trivial (.ite trivial (.ite trivial (hgo _ _ _ w.setCtx)))

theorem BodyWf.areaBody (w : MemoryWf s) {load go a b} (hgo : ∀ n m, MemoryWf (go n m s)) : BodyWf (areaBody load go a b s) := by
  refine .insideHandler (.withCtx w fun c => ?_)
  split
  · trivial
  · exact .ite trivial (hgo _ _).holdTransfer

theorem BodyWf.regBody (w : MemoryWf s) {f go} (hgo : ∀ c v t, MemoryWf t → BodyWf (go c v t)) : BodyWf (regBody f s go) :=
  .withCtx w fun c => hgo c _ _ w.deliver

theorem BodyWf.semBody (w : MemoryWf s) {a b} (hb : ∀ c n, BodyWf (b c n)) : BodyWf (semBody s a b) := by
  refine .withCtx w fun c => ?_
  split
  · trivial
  · exact hb c _

theorem BodyWf.replicaBody (w : MemoryWf s) {b} (hb : ∀ c, BodyWf (b c s)) : BodyWf (replicaBody s b) :=
  .withCtx w fun c => .ite trivial (.gateWord (hb c))

theorem BodyWf.startRcmp (w : MemoryWf s) {c f step} : BodyWf (s.startRcmp c f step) := by
  unfold State.startRcmp
  dsimp only
  split
  · trivial
  · split
    · exact w.landWord.same
    · exact w.landWord.same

/-! ### Words of every cluster, and of C -/

theorem nextWf_execNop (w : MemoryWf s) {h} : NextWf (execNop h s) := nextWf_word w fun _ _ _ _ wt => wt

theorem nextWf_execBr (w : MemoryWf s) {h f} : NextWf (execBr h f s) := nextWf_word w fun _ _ _ _ wt => wt

theorem nextWf_execJal (w : MemoryWf s) {h f} : NextWf (execJal h f s) := nextWf_word w fun _ _ _ _ wt => wt.deliver.modCl

theorem nextWf_execJr (w : MemoryWf s) {h f} : NextWf (execJr h f s) := nextWf_word w fun _ _ _ _ wt => .ite wt trivial

theorem nextWf_execRet (w : MemoryWf s) {h} : NextWf (execRet h s) := by
  refine nextWf_word w fun _ _ _ _ wt => ?_
  split
  · trivial
  · exact wt.modCl

theorem nextWf_execLoop (w : MemoryWf s) {h f} : NextWf (execLoop h f s) := nextWf_word w fun _ _ _ _ wt => .loopBody wt

theorem nextWf_execLoopi (w : MemoryWf s) {h f} : NextWf (execLoopi h f s) := nextWf_word w fun _ _ _ _ wt => .loopBody wt

theorem nextWf_execLend (w : MemoryWf s) {h f} : NextWf (execLend h f s) := nextWf_word w fun _ _ _ _ wt => wt.modCl

theorem nextWf_execQcnt (w : MemoryWf s) {h f} : NextWf (execQcnt h f s) := nextWf_word w fun _ _ _ _ wt => wt.deliver

theorem nextWf_execJoin (w : MemoryWf s) {h} : NextWf (execJoin h s) := nextWf_word w fun _ _ _ _ wt => .outsideHandler wt.modCl

theorem nextWf_execHalt (w : MemoryWf s) {h} : NextWf (execHalt h s) := nextWf_word w fun _ _ _ _ wt => .outsideHandler wt.modCl

theorem nextWf_execTrap (w : MemoryWf s) {h f} : NextWf (execTrap h f s) := nextWf_word w fun _ _ _ _ wt => .outsideHandler wt.modCtx

theorem nextWf_execFork (w : MemoryWf s) {h f} : NextWf (execFork h f s) := by
  refine nextWf_word w fun _ _ _ _ wt => .outsideHandler ?_
  split
  · exact wt
  · exact .ite wt.setCtx trivial

theorem nextWf_execEret (w : MemoryWf s) {h} : NextWf (execEret h s) := nextWf_word w fun _ _ _ _ wt => .insideHandler wt.eret

theorem nextWf_execYield (w : MemoryWf s) {h} : NextWf (execYield h s) := nextWf_word w fun _ _ _ _ wt => .outsideHandler wt.modCtx

theorem nextWf_execExit (w : MemoryWf s) {h} : NextWf (execExit h s) := nextWf_word w fun _ _ _ _ wt => .outsideHandler wt.modCtx

theorem nextWf_execRR (w : MemoryWf s) {i h f u lat fn} : NextWf (execRR i h f u lat fn s) := nextWf_word w fun _ _ _ _ wt => wt.deliver

theorem nextWf_execRI (w : MemoryWf s) {i h f u lat fn} : NextWf (execRI i h f u lat fn s) := nextWf_word w fun _ _ _ _ wt => wt.deliver

theorem nextWf_execR1 (w : MemoryWf s) {i h f fn} : NextWf (execR1 i h f fn s) := nextWf_word w fun _ _ _ _ wt => wt.deliver

theorem nextWf_execSel (w : MemoryWf s) {h f} : NextWf (execSel h f s) := nextWf_word w fun _ _ _ _ wt => wt.deliver

theorem nextWf_execLi (w : MemoryWf s) {h f} : NextWf (execLi h f s) := nextWf_word w fun _ _ _ _ wt => wt.deliver

theorem nextWf_execPL (w : MemoryWf s) {i h f fn} : NextWf (execPL i h f fn s) := nextWf_word w fun _ _ _ _ wt => wt.deliverPreds

theorem nextWf_execPrd (w : MemoryWf s) {h f} : NextWf (execPrd h f s) := nextWf_word w fun _ _ _ _ wt => wt.deliver

theorem nextWf_execPwr (w : MemoryWf s) {h f} : NextWf (execPwr h f s) := nextWf_word w fun _ _ _ _ wt => wt.deliverPreds

theorem nextWf_execDivide (w : MemoryWf s) {i h f fn} : NextWf (execDivide i h f fn s) :=
  nextWf_word w fun _ _ _ _ wt => .ite trivial wt.deliver

/-! ### Words of memory, of V and of M -/

theorem nextWf_execLoad (w : MemoryWf s) {i sp h f} : NextWf (execLoad i sp h f s) := nextWf_word w fun _ _ _ _ wt => .loadBody wt

theorem nextWf_execLoadV (w : MemoryWf s) {i sp h f} : NextWf (execLoadV i sp h f s) := nextWf_word w fun _ _ _ _ wt => .loadBody wt

theorem nextWf_execStore (w : MemoryWf s) {i sp h f} : NextWf (execStore i sp h f s) := nextWf_word w fun _ _ _ _ wt => .storeBody wt

theorem nextWf_execStoreV (w : MemoryWf s) {i sp h f} : NextWf (execStoreV i sp h f s) :=
  nextWf_word w fun _ _ _ _ wt => .withCtx wt fun _ => .storeBody wt

theorem nextWf_execDrain (w : MemoryWf s) {h f} : NextWf (execDrain h f s) := nextWf_word w fun _ _ _ _ wt => wt.addHold

theorem nextWf_execFence (w : MemoryWf s) {h f} : NextWf (execFence h f s) :=
  nextWf_word w fun _ _ _ _ wt => .withCtx wt fun _ => wt.setCtx

theorem nextWf_execSalloc (w : MemoryWf s) {h f} : NextWf (execSalloc h f s) :=
  nextWf_word w fun _ _ _ _ wt =>
    .withCtx wt fun _ => .ite trivial (.ite trivial (.ite wt (.ite trivial (.ite trivial wt.setCtx))))

theorem nextWf_execPfm (w : MemoryWf s) {h f} : NextWf (execPfm h f s) :=
  nextWf_word w fun _ _ _ _ wt => .withCtx wt fun _ => MemoryWf.ite wt wt.prefill

theorem nextWf_execMqcnt (w : MemoryWf s) {h f} : NextWf (execMqcnt h f s) :=
  nextWf_word w fun _ _ _ _ wt => .withCtx wt fun _ => wt.deliver

theorem nextWf_execLanes (w : MemoryWf s) {i h reads w32 vd lat fn} : NextWf (execLanes i h reads w32 vd lat fn s) :=
  nextWf_word w fun _ _ _ _ wt => .elemsBody wt fun _ _ wu => wu.deliverElems

theorem nextWf_execToScalar (w : MemoryWf s) {i h f lat fn} : NextWf (execToScalar i h f lat fn s) :=
  nextWf_word w fun _ _ _ _ wt => .elemsBody wt fun _ _ wu => wu.deliver

theorem nextWf_execVpopc (w : MemoryWf s) {h f} : NextWf (execVpopc h f s) := nextWf_execToScalar w

theorem nextWf_execVrmax (w : MemoryWf s) {h f} : NextWf (execVrmax h f s) := nextWf_execToScalar w

theorem nextWf_execVrmin (w : MemoryWf s) {h f} : NextWf (execVrmin h f s) := nextWf_execToScalar w

theorem nextWf_execVrsum (w : MemoryWf s) {h f} : NextWf (execVrsum h f s) := nextWf_execToScalar w

theorem nextWf_execVrargmax (w : MemoryWf s) {h f} : NextWf (execVrargmax h f s) := nextWf_execToScalar w

theorem nextWf_execVpack (w : MemoryWf s) {h f} : NextWf (execVpack h f s) :=
  nextWf_word w fun _ _ _ _ wt => .elemsBody wt fun _ _ wu => wu.deliverElems.deliverElems

theorem nextWf_execVunpack (w : MemoryWf s) {h f} : NextWf (execVunpack h f s) :=
  nextWf_word w fun _ _ _ _ wt => .elemsBody wt fun _ _ wu => wu.deliverElems

theorem nextWf_execVperm (w : MemoryWf s) {h f} : NextWf (execVperm h f s) :=
  nextWf_word w fun _ _ _ _ wt => .elemsBody wt fun _ _ wu => wu.deliverElems

theorem nextWf_execVrot (w : MemoryWf s) {h f} : NextWf (execVrot h f s) :=
  nextWf_word w fun _ _ _ _ wt => .elemsBody wt fun _ _ wu => wu.deliverElems

theorem nextWf_execVbcast (w : MemoryWf s) {h f} : NextWf (execVbcast h f s) :=
  nextWf_word w fun _ _ _ _ wt => .elemsBody wt fun _ _ wu => wu.deliverElems

theorem nextWf_execVins (w : MemoryWf s) {h f} : NextWf (execVins h f s) := nextWf_word w fun _ _ _ _ wt => wt.deliverElems

theorem nextWf_execVext (w : MemoryWf s) {h f} : NextWf (execVext h f s) :=
  nextWf_word w fun _ _ _ _ wt => .elemsBody wt fun _ _ wu => wu.deliver

theorem nextWf_execMbeat (w : MemoryWf s) {h f} : NextWf (execMbeat h f s) :=
  nextWf_word w fun _ _ _ _ wt => .halfBody wt fun _ _ wu => wu.modArray.drainIf

theorem nextWf_execMshift (w : MemoryWf s) {h f} : NextWf (execMshift h f s) :=
  nextWf_word w fun _ _ _ _ wt => .arrayBody wt fun _ => wt.modArray.drainIf

theorem nextWf_execMdrain (w : MemoryWf s) {h f} : NextWf (execMdrain h f s) :=
  nextWf_word w fun _ _ _ _ wt => .arrayBody wt fun _ => wt.drainRow

theorem nextWf_execMdrainc (w : MemoryWf s) {h f} : NextWf (execMdrainc h f s) :=
  nextWf_word w fun _ _ _ _ wt => .arrayBody wt fun _ => wt.drainRow.modArray

theorem nextWf_execMwload (w : MemoryWf s) {h f} : NextWf (execMwload h f s) :=
  nextWf_word w fun _ _ _ _ wt => .halfBody wt fun _ _ wu => wu.modArray

theorem nextWf_execMbscale (w : MemoryWf s) {h f} : NextWf (execMbscale h f s) :=
  nextWf_word w fun _ _ _ _ wt => .halfBody wt fun _ _ wu => wu.modArray

theorem nextWf_execMcfg (w : MemoryWf s) {h f} : NextWf (execMcfg h f s) :=
  nextWf_word w fun _ _ _ _ wt => .arrayBody wt fun _ => wt.modArray

theorem nextWf_execMseed (w : MemoryWf s) {h f} : NextWf (execMseed h f s) :=
  nextWf_word w fun _ _ _ _ wt => .arrayBody wt fun _ => wt.modArray

theorem nextWf_execMclr (w : MemoryWf s) {h f} : NextWf (execMclr h f s) :=
  nextWf_word w fun _ _ _ _ wt => .arrayBody wt fun _ => wt.modArray

theorem nextWf_execMexp (w : MemoryWf s) {h f} : NextWf (execMexp h f s) :=
  nextWf_word w fun _ _ _ _ wt => .arrayBody wt fun _ => wt.deliver

theorem nextWf_execMexpw (w : MemoryWf s) {h f} : NextWf (execMexpw h f s) :=
  nextWf_word w fun _ _ _ _ wt => .arrayBody wt fun _ => wt.deliver.modArray

theorem nextWf_execMsat (w : MemoryWf s) {h f} : NextWf (execMsat h f s) :=
  nextWf_word w fun _ _ _ _ wt => .arrayBody wt fun _ => wt.deliver.modArray

theorem nextWf_execMstat (w : MemoryWf s) {h f} : NextWf (execMstat h f s) :=
  nextWf_word w fun _ _ _ _ wt => .arrayBody wt fun _ => wt.deliver

theorem nextWf_execMwait (w : MemoryWf s) {h} : NextWf (execMwait h s) := nextWf_word w fun _ _ _ _ wt => .arrayBody wt fun _ => wt

/-! ### Words of X -/

theorem nextWf_execBarInit (w : MemoryWf s) {h f} : NextWf (execBarInit h f s) := nextWf_word w fun _ _ _ _ wt => .barBody wt

theorem nextWf_execBarArr (w : MemoryWf s) {h f} : NextWf (execBarArr h f s) := nextWf_word w fun _ _ _ _ wt => .barBody wt

theorem nextWf_execBarExp (w : MemoryWf s) {h f} : NextWf (execBarExp h f s) := nextWf_word w fun _ _ _ _ wt => .barBody wt

theorem nextWf_execBarCred (w : MemoryWf s) {h f} : NextWf (execBarCred h f s) := nextWf_word w fun _ _ _ _ wt => .barBody wt

theorem nextWf_execBarWait (w : MemoryWf s) {h f} : NextWf (execBarWait h f s) := nextWf_word w fun _ _ _ _ wt => .barBody wt

theorem nextWf_execBarTest (w : MemoryWf s) {h f} : NextWf (execBarTest h f s) := nextWf_word w fun _ _ _ _ wt => .barBody wt

theorem nextWf_execBarBrk (w : MemoryWf s) {h f} : NextWf (execBarBrk h f s) := nextWf_word w fun _ _ _ _ wt => .barBody wt

theorem nextWf_execMcast (w : MemoryWf s) {h f} : NextWf (execMcast h f s) := by
  refine nextWf_word w fun _ _ _ _ wt => .withCtx wt fun _ => ?_
  refine .ite trivial (.ite trivial (.ite trivial (.ite trivial (.ite trivial ?_))))
  split
  · exact .ite trivial wt.setCtx.mcastSend
  · exact wt.setCtx.mcastSend

theorem nextWf_execAmo (w : MemoryWf s) {h f} : NextWf (execAmo h f s) := nextWf_word w fun _ _ _ _ wt => .atomicBody wt

theorem nextWf_execAmocas (w : MemoryWf s) {h f} : NextWf (execAmocas h f s) := nextWf_word w fun _ _ _ _ wt => .atomicBody wt

theorem nextWf_execAred (w : MemoryWf s) {h f} : NextWf (execAred h f s) := nextWf_word w fun _ _ _ _ wt => .atomicBody wt

theorem nextWf_execAmof (w : MemoryWf s) {h f} : NextWf (execAmof h f s) := nextWf_word w fun _ _ _ _ wt => .atomicBody wt

theorem nextWf_execAredf (w : MemoryWf s) {h f} : NextWf (execAredf h f s) := nextWf_word w fun _ _ _ _ wt => .atomicBody wt

theorem nextWf_execAmotOpen (w : MemoryWf s) {h f} : NextWf (execAmotOpen h f s) :=
  nextWf_word w fun _ _ _ _ wt => .ite trivial (.windowBody wt fun _ _ _ => .gateWord wt.send)

theorem nextWf_execAmotSkip (w : MemoryWf s) {h f} : NextWf (execAmotSkip h f s) :=
  nextWf_word w fun _ _ _ _ wt => .ite trivial (.windowBody wt fun _ _ _ => wt.send)

theorem nextWf_execDrainT (w : MemoryWf s) {h f} : NextWf (execDrainT h f s) := by
  refine nextWf_word w fun _ _ _ _ wt => .windowBody wt fun _ _ _ => .ite wt.trapAfter ?_
  split
  · exact wt.trapAfter
  · exact wt.addHold

theorem nextWf_execCpy (w : MemoryWf s) {h f} : NextWf (execCpy h f s) :=
  nextWf_word w fun _ _ _ _ wt => .pushBody wt fun _ _ _ wu => wu.pushCmd

theorem nextWf_execEcmd (w : MemoryWf s) {h f} : NextWf (execEcmd h f s) :=
  nextWf_word w fun _ _ _ _ wt => .pushBody wt fun _ _ _ wu => wu.pushCmd

theorem nextWf_execQfence (w : MemoryWf s) {h f} : NextWf (execQfence h f s) :=
  nextWf_word w fun _ _ _ _ wt => wt.foldl fun _ _ wu => wu.pushCmd

/-! ### Words of registers, save areas, the scheduler, the package and the fabric -/

theorem nextWf_execCtxsv (w : MemoryWf s) {h f} : NextWf (execCtxsv h f s) :=
  nextWf_word w fun _ _ _ _ wt => .areaBody wt fun _ _ => wt.saveParts

theorem nextWf_execCtxld (w : MemoryWf s) {h f} : NextWf (execCtxld h f s) :=
  nextWf_word w fun _ _ _ _ wt => .areaBody wt fun _ _ => wt.loadParts

theorem nextWf_execCrr (w : MemoryWf s) {h f} : NextWf (execCrr h f s) :=
  nextWf_word w fun _ _ _ _ wt => .ite (.regBody wt fun _ _ _ wu => wu) trivial

theorem nextWf_execCrrp (w : MemoryWf s) {h f} : NextWf (execCrrp h f s) :=
  nextWf_word w fun _ _ _ _ wt => .regBody wt fun _ _ _ wu => wu

theorem nextWf_execCrw (w : MemoryWf s) {h f} : NextWf (execCrw h f s) :=
  nextWf_word w fun _ _ _ _ wt => .regBody wt fun _ _ _ wu => .ite trivial wu.modCtx

theorem nextWf_execLaunch (w : MemoryWf s) {h f} : NextWf (execLaunch h f s) :=
  nextWf_word w fun _ _ _ _ wt => .ite trivial (.landingBody wt fun _ => .gateWord wt.launchChild)

theorem nextWf_execWchild (w : MemoryWf s) {h f} : NextWf (execWchild h f s) :=
  nextWf_word w fun _ _ _ _ wt => .ite trivial (.landingBody wt fun _ => wt.waitChild)

theorem nextWf_execSemSig (w : MemoryWf s) {h f} : NextWf (execSemSig h f s) := by
  refine nextWf_word w fun _ _ _ _ wt => .ite trivial (.semBody wt fun c n => .gateWord ?_)
  dsimp only
  split
  · trivial
  · exact MemoryWf.ite wt.modCtx.same wt.semSignal

theorem nextWf_execSemWait (w : MemoryWf s) {h f} : NextWf (execSemWait h f s) :=
  nextWf_word w fun _ _ _ _ wt => .semBody wt fun _ _ => .landingBody wt fun _ => wt.landSem.semWait

theorem nextWf_execSemInit (w : MemoryWf s) {h f} : NextWf (execSemInit h f s) :=
  nextWf_word w fun _ _ _ _ wt => .ite trivial (.withCtx wt fun _ => wt.releaseWaits)

theorem nextWf_execSemRd (w : MemoryWf s) {h f} : NextWf (execSemRd h f s) :=
  nextWf_word w fun _ _ _ _ wt => .semBody wt fun _ _ => .landingBody wt fun _ => wt.landSem

theorem nextWf_execDgstRd (w : MemoryWf s) {h f} : NextWf (execDgstRd h f s) :=
  nextWf_word w fun _ _ _ _ wt => .ite trivial (.withCtx wt fun _ => .gateWord wt.deliver)

theorem nextWf_execDgstClr (w : MemoryWf s) {h} : NextWf (execDgstClr h s) :=
  nextWf_word w fun _ _ _ _ wt => .withCtx wt fun _ => .gateWord wt.modCtx

theorem nextWf_execMbxSend (w : MemoryWf s) {h f} : NextWf (execMbxSend h f s) :=
  nextWf_word w fun _ _ _ _ wt =>
    .ite trivial (.blockBody wt fun _ => .ite trivial (.readBlock wt fun _ _ wu => .gateWord wu.send))

theorem nextWf_execMbxRecv (w : MemoryWf s) {h f} : NextWf (execMbxRecv h f s) := by
  refine nextWf_word w fun _ _ _ _ wt => .ite trivial (.blockBody wt fun _ => ?_)
  split
  · trivial
  · exact MemoryWf.deliver wt.modCore.modCtx.same

theorem nextWf_execMbxCnt (w : MemoryWf s) {h f} : NextWf (execMbxCnt h f s) :=
  nextWf_word w fun _ _ _ _ wt => .ite trivial (.withCtx wt fun _ => wt.deliver)

theorem nextWf_execPropPush (w : MemoryWf s) {h f} : NextWf (execPropPush h f s) :=
  nextWf_word w fun _ _ _ _ wt =>
    .blockBody wt fun _ => .readBlock wt fun _ _ wu => .ite trivial (.gateWord (MemoryWf.ite wu.deferNotice wu.same))

theorem nextWf_execPropPop (w : MemoryWf s) {h f} : NextWf (execPropPop h f s) := by
  refine nextWf_word w fun _ _ _ _ wt => .blockBody wt fun _ => .landingBody wt fun _ => ?_
  split
  · exact wt.landWord
  · exact MemoryWf.landWord wt.same

theorem nextWf_execHznRd (w : MemoryWf s) {h f} : NextWf (execHznRd h f s) :=
  nextWf_word w fun _ _ _ _ wt => .ite trivial (.landingBody wt fun _ => wt.landWord)

theorem nextWf_execHznWr (w : MemoryWf s) {h f} : NextWf (execHznWr h f s) :=
  nextWf_word w fun _ _ _ _ wt =>
    .ite trivial (.gateWord (MemoryWf.ite wt.deferNotice (MemoryWf.ite wt.writeHorizon wt.setSeq)))

theorem nextWf_execDeskew (w : MemoryWf s) {h f} : NextWf (execDeskew h f s) :=
  nextWf_word w fun _ _ _ _ wt => MemoryWf.addHold wt.addLanding.same

theorem nextWf_execZlat (w : MemoryWf s) {h f} : NextWf (execZlat h f s) := nextWf_word w fun _ _ _ _ wt => .ite trivial wt.deliver

theorem nextWf_execLnkSt (w : MemoryWf s) {h f} : NextWf (execLnkSt h f s) := nextWf_word w fun _ _ _ _ wt => .ite trivial wt.deliver

theorem nextWf_execLnkRate (w : MemoryWf s) {h f} : NextWf (execLnkRate h f s) :=
  nextWf_word w fun _ _ _ _ wt => .ite trivial (.ite trivial (.ite wt wt.askRetrain.addHold))

theorem nextWf_execPseq (w : MemoryWf s) {h f} : NextWf (execPseq h f s) := nextWf_word w fun _ _ _ _ wt => .ite trivial wt.deliver

theorem nextWf_execPflush (w : MemoryWf s) {h f} : NextWf (execPflush h f s) := nextWf_word w fun _ _ _ _ wt => .ite trivial wt.addHold

theorem nextWf_execRdig (w : MemoryWf s) {h f} : NextWf (execRdig h f s) :=
  nextWf_word w fun _ _ _ _ wt => .ite trivial (.replicaBody wt fun _ => wt.deliver)

theorem nextWf_execRcmp (w : MemoryWf s) {h f} : NextWf (execRcmp h f s) :=
  nextWf_word w fun _ _ _ _ wt =>
    .ite trivial (.withCtx wt fun _ => .ite trivial (.landingBody wt fun _ => .gateWord (.startRcmp wt)))

end Sys2Proof.Safety
end

section
/-! Every step keeps memory canonical (O3): the step. -/

namespace Sys2Proof.Safety

open Sys2Proof.Machine

variable {s : State}

/-! ### Every instruction, every event that comes about by itself, and the step -/

theorem nextWf_exec {i : Instr} (w : MemoryWf s) : NextWf (exec i s) := by
  cases i with
  | nop => exact nextWf_execNop w
  | add | sub | andW | orW | xorW | andn | shl | shr | sra | rot | cmp | mul | mulh | mulhu => exact nextWf_execRR w
  | sel => exact nextWf_execSel w
  | mov | clz | popc => exact nextWf_execR1 w
  | addi | andi | ori | xori | shli | shri | srai | roti | cmpi | lih | ext | muli => exact nextWf_execRI w
  | li => exact nextWf_execLi w
  | pand | por | pxor => exact nextWf_execPL w
  | prd => exact nextWf_execPrd w
  | pwr => exact nextWf_execPwr w
  | br => exact nextWf_execBr w
  | jal => exact nextWf_execJal w
  | jr => exact nextWf_execJr w
  | ret => exact nextWf_execRet w
  | loop => exact nextWf_execLoop w
  | loopi => exact nextWf_execLoopi w
  | lend => exact nextWf_execLend w
  | qcnt => exact nextWf_execQcnt w
  | crr => exact nextWf_execCrr w
  | join => exact nextWf_execJoin w
  | trap => exact nextWf_execTrap w
  | halt => exact nextWf_execHalt w
  | div | divu | rem | remu => exact nextWf_execDivide w
  | fork => exact nextWf_execFork w
  | crw => exact nextWf_execCrw w
  | crrp => exact nextWf_execCrrp w
  | eret => exact nextWf_execEret w
  | ctxsv => exact nextWf_execCtxsv w
  | ctxld => exact nextWf_execCtxld w
  | yield => exact nextWf_execYield w
  | exit => exact nextWf_execExit w
  | launch => exact nextWf_execLaunch w
  | wchild => exact nextWf_execWchild w
  | semSig => exact nextWf_execSemSig w
  | semWait => exact nextWf_execSemWait w
  | semInit => exact nextWf_execSemInit w
  | semRd => exact nextWf_execSemRd w
  | dgstRd => exact nextWf_execDgstRd w
  | dgstClr => exact nextWf_execDgstClr w
  | mbxSend => exact nextWf_execMbxSend w
  | mbxRecv => exact nextWf_execMbxRecv w
  | mbxCnt => exact nextWf_execMbxCnt w
  | deskew => exact nextWf_execDeskew w
  | zlat => exact nextWf_execZlat w
  | propPush => exact nextWf_execPropPush w
  | propPop => exact nextWf_execPropPop w
  | hznRd => exact nextWf_execHznRd w
  | hznWr => exact nextWf_execHznWr w
  | lnkSt => exact nextWf_execLnkSt w
  | lnkRate => exact nextWf_execLnkRate w
  | vadd | vsub | vmul | vfma | vfms | vfnma | vmax | vmin | vabs | vneg | vdiv | vsqrt | vexp2 | vexp | vscale | viadd | visub | vimul
  | vimax | vimin | vand | vor | vxor | vshl | vshr | vsra | vcmp | vicmp | vsel | viota | vcvt | vmov | vclr => exact nextWf_execLanes w
  | vpopc => exact nextWf_execVpopc w
  | vpack => exact nextWf_execVpack w
  | vunpack => exact nextWf_execVunpack w
  | vperm => exact nextWf_execVperm w
  | vrot => exact nextWf_execVrot w
  | vbcast => exact nextWf_execVbcast w
  | vins => exact nextWf_execVins w
  | vext => exact nextWf_execVext w
  | vrmax => exact nextWf_execVrmax w
  | vrmin => exact nextWf_execVrmin w
  | vrsum => exact nextWf_execVrsum w
  | vrargmax => exact nextWf_execVrargmax w
  | mbeat => exact nextWf_execMbeat w
  | mshift => exact nextWf_execMshift w
  | mdrain => exact nextWf_execMdrain w
  | mdrainc => exact nextWf_execMdrainc w
  | mwload => exact nextWf_execMwload w
  | mbscale => exact nextWf_execMbscale w
  | mcfg => exact nextWf_execMcfg w
  | mseed => exact nextWf_execMseed w
  | mclr => exact nextWf_execMclr w
  | mexp => exact nextWf_execMexp w
  | mexpw => exact nextWf_execMexpw w
  | msat => exact nextWf_execMsat w
  | mstat => exact nextWf_execMstat w
  | mwait => exact nextWf_execMwait w
  | ldl | ldc | ldd | ldm | ldn | ldh => exact nextWf_execLoad w
  | stl | stc | std | stm | stn | sth => exact nextWf_execStore w
  | ldlV | ldcV | lddV | ldmV | ldnV | ldhV => exact nextWf_execLoadV w
  | stlV | stcV | stdV | stmV | stnV | sthV => exact nextWf_execStoreV w
  | drain => exact nextWf_execDrain w
  | fence => exact nextWf_execFence w
  | cpy => exact nextWf_execCpy w
  | ecmd => exact nextWf_execEcmd w
  | qfence => exact nextWf_execQfence w
  | salloc => exact nextWf_execSalloc w
  | pfm => exact nextWf_execPfm w
  | mqcnt => exact nextWf_execMqcnt w
  | barInit => exact nextWf_execBarInit w
  | barArr => exact nextWf_execBarArr w
  | barExp => exact nextWf_execBarExp w
  | barCred => exact nextWf_execBarCred w
  | barWait => exact nextWf_execBarWait w
  | barTest => exact nextWf_execBarTest w
  | barBrk => exact nextWf_execBarBrk w
  | mcast => exact nextWf_execMcast w
  | amo => exact nextWf_execAmo w
  | amocas => exact nextWf_execAmocas w
  | ared => exact nextWf_execAred w
  | amof => exact nextWf_execAmof w
  | aredf => exact nextWf_execAredf w
  | amotOpen => exact nextWf_execAmotOpen w
  | amotSkip => exact nextWf_execAmotSkip w
  | drainT => exact nextWf_execDrainT w
  | pseq => exact nextWf_execPseq w
  | pflush => exact nextWf_execPflush w
  | rdig => exact nextWf_execRdig w
  | rcmp => exact nextWf_execRcmp w
  | deliveryVisible => exact nextWf_execDeliveryVisible w
  | landingDataArrival => exact nextWf_execLandingDataArrival w
  | queueDeadlock => exact nextWf_execQueueDeadlock w
  | joinRendezvous => exact nextWf_execJoinRendezvous w
  | taskComplete => exact nextWf_execTaskComplete w
  | gateLift => exact nextWf_execGateLift w
  | deferredStoreFault => exact nextWf_execDeferredStoreFault w
  | asyncCauseOffer => exact nextWf_execAsyncCauseOffer w
  | homeAccessApply => exact nextWf_execHomeAccessApply w
  | egressBufferDrain => exact nextWf_execEgressBufferDrain w
  | flushMarkerGather => exact nextWf_execFlushMarkerGather w
  | flushCompletion => exact nextWf_execFlushCompletion w
  | moverCommandStart => exact nextWf_execMoverCommandStart w
  | copy => exact nextWf_execCopy w
  | gather => exact nextWf_execGather w
  | i2c => exact nextWf_execI2c w
  | fill => exact nextWf_execFill w
  | qfenceCommand => exact nextWf_execQfenceCommand w
  | mcastCommand => exact nextWf_execMcastCommand w
  | commandComplete => exact nextWf_execCommandComplete w
  | barrierEventApply => exact nextWf_execBarrierEventApply w
  | engineCredit => exact nextWf_execEngineCredit w
  | routerMerge => exact nextWf_execRouterMerge w
  | atomicHomeApply => exact nextWf_execAtomicHomeApply w
  | ticketRequestArrival => exact nextWf_execTicketRequestArrival w
  | retryResend => exact nextWf_execRetryResend w
  | gapTimerExpiry => exact nextWf_execGapTimerExpiry w
  | preemptionRequest => exact nextWf_execPreemptionRequest w
  | contextSave => exact nextWf_execContextSave w
  | contextResume => exact nextWf_execContextResume w
  | doorbell => exact nextWf_execDoorbell w
  | launchAdmit => exact nextWf_execLaunchAdmit w
  | schedulingStep => exact nextWf_execSchedulingStep w
  | instanceStart => exact nextWf_execInstanceStart w
  | instanceEnd => exact nextWf_execInstanceEnd w
  | gangResume => exact nextWf_execGangResume w
  | turnChange => exact nextWf_execTurnChange w
  | powerThrottle => exact nextWf_execPowerThrottle w
  | twinRunEnd => exact nextWf_execTwinRunEnd w
  | containmentOffer => exact nextWf_execContainmentOffer w
  | xinvWrite => exact nextWf_execXinvWrite w
  | escWrite => exact nextWf_execEscWrite w
  | decodeRegionEnable => exact nextWf_execDecodeRegionEnable w
  | decodeRegionDisable => exact nextWf_execDecodeRegionDisable w
  | decodeFill => exact nextWf_execDecodeFill w
  | heddleWrite => exact nextWf_execHeddleWrite w
  | savepoolWrite => exact nextWf_execSavepoolWrite w
  | hsliceWrite => exact nextWf_execHsliceWrite w
  | atpoolWrite => exact nextWf_execAtpoolWrite w
  | lnkCtlWrite => exact nextWf_execLnkCtlWrite w
  | fabNodeWrite => exact nextWf_execFabNodeWrite w
  | peerEntWrite => exact nextWf_execPeerEntWrite w
  | replCtlWrite => exact nextWf_execReplCtlWrite w
  | registerWrite => exact nextWf_execRegisterWrite w
  | deskewEpoch => exact nextWf_execDeskewEpoch w
  | flitReplay => exact nextWf_execFlitReplay w
  | laneFail => exact nextWf_execLaneFail w
  | retrain => exact nextWf_execRetrain w
  | replayWindowStepDown => exact nextWf_execReplayWindowStepDown w
  | dieReset => exact nextWf_execDieReset w
  | quiesce => exact nextWf_execQuiesce w
  | dieRejoin => exact nextWf_execDieRejoin w
  | completionRecord => exact nextWf_execCompletionRecord w
  | cmplHeadWrite => exact nextWf_execCmplHeadWrite w
  | flushReadComplete => exact nextWf_execFlushReadComplete w
  | ctxOpen => exact nextWf_execCtxOpen w
  | ctxClose => exact nextWf_execCtxClose w
  | upload => exact nextWf_execUpload w
  | free => exact nextWf_execFree w
  | keyLoad => exact nextWf_execKeyLoad w
  | keyClear => exact nextWf_execKeyClear w
  | resetDie => exact nextWf_execResetDie w
  | retirePage => exact nextWf_execRetirePage w
  | fwStage => exact nextWf_execFwStage w
  | fwSwitch => exact nextWf_execFwSwitch w
  | attest => exact nextWf_execAttest w
  | logRead => exact nextWf_execLogRead w
  | journalClear => exact nextWf_execJournalClear w
  | handlerLoad => exact nextWf_execHandlerLoad w
  | packagePowerUp => exact nextWf_execPackagePowerUp w
  | errorLogAppend => exact nextWf_execErrorLogAppend w
  | timeLogEntry => exact nextWf_execTimeLogEntry w
  | memoryError => exact nextWf_execMemoryError w
  | lauter => exact nextWf_execLauter w
  | lauterMaskPoll => exact nextWf_execLauterMaskPoll w
  | lauterForward => exact nextWf_execLauterForward w
  | mailboxPlace => exact nextWf_execMailboxPlace w
  | kvopRegister => exact nextWf_execKvopRegister w
  | kvopOpen => exact nextWf_execKvopOpen w
  | kvopSeal => exact nextWf_execKvopSeal w
  | kvopFork => exact nextWf_execKvopFork w
  | kvopRelease => exact nextWf_execKvopRelease w
  | kvopResolve => exact nextWf_execKvopResolve w
  | kvopTrunc => exact nextWf_execKvopTrunc w
  | kvopTagrd => exact nextWf_execKvopTagrd w
  | kvopDone => exact nextWf_execKvopDone w
  | kvopRebuild => exact nextWf_execKvopRebuild w
  | kvFaultReport => exact nextWf_execKvFaultReport w
  | rebuildInject => exact nextWf_execRebuildInject w
  | coll => exact nextWf_execColl w
  | peerRequestApply => exact nextWf_execPeerRequestApply w
  | fabricFlushMarker => exact nextWf_execFabricFlushMarker w
  | nodeUnreachable => exact nextWf_execNodeUnreachable w
  | replicaPairArrival => exact nextWf_execReplicaPairArrival w
  | llcSliceRetire => exact nextWf_execLlcSliceRetire w
  | hostAccessTimeout => exact nextWf_execHostAccessTimeout w

/-- An event that keeps memory canonical. -/
def KeepsWf (e : Event) : Prop := ∀ s, MemoryWf s → NextWf (e s)

theorem keepsWf_packet {id p} : ∀ e, Packet.event id p = some e → KeepsWf e := by
  intro e h s w
  unfold Packet.event at h
  split at h
  · cases h
    exact nextWf_execLandingDataArrival w
  · cases h
    exact nextWf_execRetryResend w
  · cases h
    exact nextWf_execEgressBufferDrain w
  · cases h
  · cases h
    cases p.act with
    | load | store | line => exact nextWf_execHomeAccessApply w
    | amo | cas => exact nextWf_execAtomicHomeApply w
    | ticket | winOpen | winSkip => exact nextWf_execTicketRequestArrival w
    | mail => exact nextWf_execMailboxPlace w
    | _ => exact nextWf_execBarrierEventApply w

theorem keepsWf_kvEvent {id op} : KeepsWf (kvEvent id op) := by
  intro s w
  unfold kvEvent
  split
  · exact nextWf_execKvopRegister w
  · exact nextWf_execKvopOpen w
  · exact nextWf_execKvopSeal w
  · exact nextWf_execKvopFork w
  · exact nextWf_execKvopRelease w
  · exact nextWf_execKvopResolve w
  · exact nextWf_execKvopTrunc w
  · exact nextWf_execKvopTagrd w
  · exact nextWf_execKvopDone w
  · exact nextWf_execKvopRebuild w

theorem KeepsWf.ite {p : Prop} [Decidable p] {d e : Event} (hd : KeepsWf d) (he : KeepsWf e) : KeepsWf (if p then d else e) := by
  split
  · exact hd
  · exact he

theorem keepsWf_cmdEvent {id} {c : Cmd} : KeepsWf (c.event id) := by
  unfold Cmd.event
  split
  · refine .ite (fun _ w => nextWf_execMoverCommandStart w) ?_
    split
    · exact fun _ w => nextWf_execCopy w
    · exact fun _ w => nextWf_execMcastCommand w
    · exact fun _ w => nextWf_execGather w
    · exact fun _ w => nextWf_execI2c w
    · exact fun _ w => nextWf_execFill w
    · exact fun _ w => nextWf_execQfenceCommand w
  · exact .ite (fun _ w => nextWf_execQfenceCommand w) (fun _ w => nextWf_execColl w)
  · exact .ite (fun _ w => nextWf_execLauterForward w) (.ite (fun _ w => nextWf_execLauterMaskPoll w) (fun _ w => nextWf_execLauter w))
  · exact keepsWf_kvEvent

/-- Events each of which keeps memory canonical. -/
def AllKeepWf (l : List Event) : Prop := ∀ e ∈ l, KeepsWf e

theorem AllKeepWf.nil : AllKeepWf [] := by simp [AllKeepWf]

theorem AllKeepWf.one {e : Event} (h : KeepsWf e) : AllKeepWf [e] := by simpa [AllKeepWf] using h

theorem AllKeepWf.append {l m : List Event} (hl : AllKeepWf l) (hm : AllKeepWf m) : AllKeepWf (l ++ m) :=
  fun e h => (List.mem_append.mp h).elim (hl e) (hm e)

theorem AllKeepWf.cons {e : Event} {l : List Event} (h : KeepsWf e) (hl : AllKeepWf l) : AllKeepWf (e :: l) :=
  AllKeepWf.append (.one h) hl

theorem AllKeepWf.ite {p : Prop} [Decidable p] {l m : List Event} (hl : AllKeepWf l) (hm : AllKeepWf m) :
    AllKeepWf (if p then l else m) := by
  split
  · exact hl
  · exact hm

theorem AllKeepWf.map {α : Type} {f : α → Event} {l : List α} (h : ∀ a, KeepsWf (f a)) : AllKeepWf (l.map f) := by
  intro e he
  obtain ⟨a, -, rfl⟩ := List.mem_map.mp he
  exact h a

theorem AllKeepWf.flatMap {α : Type} {f : α → List Event} {l : List α} (h : ∀ a, AllKeepWf (f a)) : AllKeepWf (l.flatMap f) := by
  intro e he
  obtain ⟨a, -, ha⟩ := List.mem_flatMap.mp he
  exact h a e ha

theorem AllKeepWf.filterMap {α : Type} {f : α → Option Event} {l : List α} (h : ∀ a e, f a = some e → KeepsWf e) :
    AllKeepWf (l.filterMap f) := by
  intro e he
  obtain ⟨a, -, ha⟩ := List.mem_filterMap.mp he
  exact h a e ha

theorem allKeepWf_cmd {id} {c : Cmd} : AllKeepWf (c.events id) :=
  .append (.ite .nil (.one fun _ w => nextWf_execEngineCredit w)) (.one (.ite (fun _ w => nextWf_execCommandComplete w) keepsWf_cmdEvent))

theorem allKeepWf_ctx {k} {c : Ctx} : AllKeepWf (c.events k) := by
  refine .append (.append ?_ (.filterMap fun h e he => ?_)) ?_
  · split
    · exact .one fun _ w => nextWf_execFlushMarkerGather w
    · exact .ite (.append (.map fun _ _ w => nextWf_execFlushMarkerGather w) (.one fun _ w => nextWf_execFlushCompletion w))
        (.one fun _ w => nextWf_execFlushMarkerGather w)
  · split at he
    · cases he
      exact fun _ w => nextWf_execRegisterWrite w
    · cases he
  · split
    · exact .one fun _ w => nextWf_execInstanceStart w
    · exact .one fun _ w => nextWf_execContextSave w
    · exact .one fun _ w => nextWf_execContextResume w
    · exact .one fun _ w => nextWf_execTaskComplete w
    · exact .one fun _ w => nextWf_execInstanceEnd w
    · exact .nil

theorem allKeepWf_die {die} : AllKeepWf (s.dieEvents die) := by
  have isolated := AllKeepWf.one (e := execDieReset die resetIsolated) fun _ w => nextWf_execDieReset w
  have resetting {l r} : AllKeepWf (List.map (execQuiesce die) l ++ [execDieRejoin r]) :=
    .append (.map fun _ _ w => nextWf_execQuiesce w) (.one fun _ w => nextWf_execDieRejoin w)
  refine .append (.append (.append (.append (.append (.ite isolated .nil) (.ite resetting .nil)) (.map fun _ _ w => ?_)) (.one ?_))
    (.map fun _ _ w => ?_)) (.cons ?_ (.cons ?_ (.one ?_)))
  · exact nextWf_execLaunchAdmit w
  · exact fun _ w => nextWf_execSchedulingStep w
  · exact nextWf_execTurnChange w
  · exact fun _ w => nextWf_execTimeLogEntry w
  · exact fun _ w => nextWf_execCompletionRecord w
  · exact fun _ w => nextWf_execFlushReadComplete w

theorem allKeepWf_other : AllKeepWf s.otherEvents := by
  unfold State.otherEvents
  simp only [List.append_assoc]
  refine .append (.flatMap fun _ => .map fun _ _ w => nextWf_execGapTimerExpiry w) ?_
  refine .append (.flatMap fun _ => .map fun _ _ w => nextWf_execGapTimerExpiry w) ?_
  refine .append (.map fun _ _ w => nextWf_execTwinRunEnd w) (.append (.map fun _ _ w => nextWf_execKvFaultReport w) ?_)
  refine .append (.filterMap fun a e h => ?rebuilds) (.append (.flatMap fun l => ?links) ?_)
  case rebuilds =>
    split at h
    · cases h
      exact fun _ w => nextWf_execRebuildInject w
    · cases h
  case links => exact .append (.map fun _ _ w => nextWf_execRetrain w) (.ite (.one fun _ w => nextWf_execReplayWindowStepDown w) .nil)
  refine .append (.ite .nil (.one fun _ w => nextWf_execDeskewEpoch w)) (.append (.ite .nil (.one fun _ w => nextWf_execContainmentOffer w)) ?_)
  refine .append (.ite .nil (.one fun _ w => nextWf_execErrorLogAppend w)) (.cons ?_ (.one ?_))
  · exact fun _ w => nextWf_execCompletionRecord w
  · exact fun _ w => nextWf_execFlushReadComplete w

theorem allKeepWf_candidates : AllKeepWf s.candidateEvents := by
  have net := AllKeepWf.filterMap (f := fun e : Nat × Packet => e.2.event e.1) (l := s.net.items) fun _ => keepsWf_packet
  exact .append (.append (.append (.append net (.flatMap fun _ => allKeepWf_cmd)) (.flatMap fun _ => allKeepWf_ctx))
    (.flatMap fun _ => allKeepWf_die)) allKeepWf_other

theorem MemoryWf.service (w : MemoryWf s) : ∀ t, s.service = some t → MemoryWf t := by
  intro t h
  obtain ⟨e, he, ht⟩ := List.exists_of_findSome?_eq_some h
  have wf : NextWf (e s) := allKeepWf_candidates e he s w
  split at ht
  · next u hu =>
    rw [hu] at wf
    split at ht
    · cases ht
    · cases ht
      exact wf
  · cases ht

theorem nextWf_onNext {o : Host.Outcome State Fault Refusal} {f : State → State} (h : NextWf o) (hf : ∀ t, MemoryWf t → MemoryWf (f t)) :
    NextWf (onNext o f) := by
  cases o with
  | next t => exact hf t h
  | fault _ => trivial
  | refused _ => trivial

theorem nextWf_stepSlot (w : MemoryWf s) {k cl rest} : NextWf (stepSlot s k cl rest) := by
  refine nextWf_onNext (nextWf_runSlot w.same fun _ _ => nextWf_exec) fun t wt => .ite wt.endCycle wt

theorem nextWf_step (w : MemoryWf s) : NextWf (step s) := by
  unfold step
  split
  · exact nextWf_stepSlot w
  · split
    · exact w.boundary
    · split
      · next a _ _ =>
        cases a with
        | event i => exact nextWf_exec w.same
        | cycle => exact MemoryWf.tick w.same
      · exact w.tick.getD w.service

/-- Settles O3, from a lemma for each function of the model: from canonical memories it leads to canonical memories. -/
theorem memoryWfKept : Obligations.MemoryWfKept := by
  unfold Obligations.MemoryWfKept
  intro s t w h
  have := nextWf_step w
  rwa [h] at this

end Sys2Proof.Safety
end

section
/-! Scalars from lanes, and the loads and stores of every space (O19, O21). -/

namespace Sys2Proof.Accesses

open Sys2Proof.Machine Sys2Proof.Safety Sys2Proof.Effects Sys2Proof.Common Sys2Proof.Branches Sys2Proof.Areas Sys2Proof.Faults

/-! ### Words that form scalars from lanes (R190, R192, R197, R198) -/

section Scalars
variable {s : State} {c : Ctx} {i : Instr} {h : Hdr} {u : Uses} {k : Cluster} {q : Bool} {e : Doing × List Nat}

/-- The files of a cluster are those before the word. -/
@[simp] theorem file_cl_issueOn {j : Cluster} {f n : Nat} : ((c.issueOn k u q).cl j).file f n = (c.cl j).file f n := by
  by_cases hj : j = k
  · subst hj
    rw [Ctx.cl_issueOn]
    rfl
  · rw [Ctx.cl_issueOn_ne c k j u q hj]

@[simp] theorem lane_issueOn {w32 : Bool} {f : BitVec 15} {n : Nat} : (c.issueOn k u q).lane w32 f n = c.lane w32 f n := by
  simp only [Ctx.lane, file_cl_issueOn, Ctx.issueOn_mrf]

@[simp] theorem lanes_issueOn {w32 : Bool} {f : BitVec 15} : (c.issueOn k u q).lanes w32 f = c.lanes w32 f :=
  List.map_congr_left fun _ _ => lane_issueOn

/-- A change of the context of an issuing word. -/
theorem onCtx_issuing {f : Ctx → Ctx} :
    onCtx s f (issuing s c h u) = (issuing s c h u).setCtx s.focus.1 (f (c.issueOn s.focus.2 u (Pends c s.focus.2 h u))) := by
  rw [onCtx, State.modCtx, issuing_ctx?]

/-- A word that reads elements in valid rows, or under UMODE 1, takes effect on the state in which an invalid row is counted (R144, R150). -/
theorem elemsBody_issuing {es : List Nat} {go : Ctx → State → Body} (hread : c.uninitElem es = none ∨ c.umode ≠ 0) :
    elemsBody es go (issuing s c h u) =
      go (c.issueOn s.focus.2 u (Pends c s.focus.2 h u)) (noteElems s c es (issuing s c h u)) := by
  rw [elemsBody, withCtx_issuing, uninitElem_issueOn, umode_issueOn, noteElems]
  cases hrow : c.uninitElem es with
  | none => rfl
  | some w =>
    have humode : c.umode ≠ 0 := hread.resolve_left (by simp [hrow])
    simp only [if_neg humode, onCtx_issuing]
    rfl

theorem exec_of_scalarWord (hrow : scalarWord s c i = some e) (p : Issues s c i e.1.h e.1.u)
    (hread : c.uninitElem e.2 = none ∨ c.umode ≠ 0) :
    exec i s = .next (retired s (e.1.after (noteElems s c e.2 (issuing s c e.1.h e.1.u)))) := by
  cases i
  case vpopc h f | vrmax h f | vrmin h f | vrsum h f | vrargmax h f =>
    obtain rfl := Option.some.inj hrow
    refine exec_of_ok rfl p (clear_of_no_mem rfl) ?_
    rw [elemsBody_issuing hread, lanes_issueOn]
  case vext h f =>
    obtain rfl := Option.some.inj hrow
    refine exec_of_ok rfl p (clear_of_no_mem rfl) ?_
    rw [elemsBody_issuing hread, lane_issueOn]
    rfl
  all_goals cases hrow

theorem exec_of_packWord (hrow : packWord c i = some e) (p : Issues s c i e.1.h e.1.u) (hread : c.uninitElem e.2 = none ∨ c.umode ≠ 0) :
    exec i s = .next (retired s (e.1.after (noteElems s c e.2 (issuing s c e.1.h e.1.u)))) := by
  cases i
  case vpack h f =>
    obtain rfl := Option.some.inj hrow
    refine exec_of_ok rfl p (clear_of_no_mem rfl) ?_
    rw [elemsBody_issuing hread, lanes_issueOn]
  all_goals cases hrow
end Scalars

/-- Settles O19: by the words of `scalarWord` and `vpack`, which read the lanes as they were before the word. -/
theorem scalarsFromLanes : Obligations.ScalarsFromLanes := by
  unfold Obligations.ScalarsFromLanes
  rintro i s c d es (hrow | hrow) p hread
  · exact exec_of_scalarWord hrow p hread
  · exact exec_of_packWord hrow p hread

/-! ### The context of a word, changed more than once -/

section Twice
variable {α : Type}

theorem dropKey_of_absent {k : Nat} {l : List (Nat × α)} (h : FMap.lookup k l = none) : FMap.dropKey k l = l := by
  induction l with
  | nil => rfl
  | cons e l ih =>
    obtain ⟨j, v⟩ := e
    by_cases hj : j = k
    · rw [FMap.lookup, if_pos hj] at h
      cases h
    · rw [FMap.lookup, if_neg hj] at h
      rw [FMap.dropKey, if_neg hj, ih h]

theorem dropKey_putKey {k : Nat} {v : α} {l : List (Nat × α)} : FMap.dropKey k (FMap.putKey k v l) = FMap.dropKey k l := by
  induction l with
  | nil => simp [FMap.putKey, FMap.dropKey]
  | cons e l ih =>
    obtain ⟨j, w⟩ := e
    by_cases hj : k < j
    · rw [FMap.putKey, if_pos hj, FMap.dropKey, if_pos rfl]
    · rw [FMap.putKey, if_neg hj, FMap.dropKey, FMap.dropKey, ih]

/-- A second value at a key replaces the first. -/
theorem insert_insert {m : FMap α} {k : Nat} {v w : α} : (m.insert k v).insert k w = m.insert k w := by
  rw [FMap.insert, FMap.insert, FMap.insert, dropKey_putKey, dropKey_of_absent (FMap.lookup_dropKey_self m.items k)]

variable {s : State} {c d e : Ctx} {h : Hdr} {u : Uses} {k : Nat}

theorem setCtx_setCtx : (s.setCtx k d).setCtx k e = s.setCtx k e := by
  rw [State.setCtx, State.setCtx, State.setCtx, insert_insert]

theorem issuing_setCtx_self : (issuing s c h u).setCtx s.focus.1 (c.issueOn s.focus.2 u (Pends c s.focus.2 h u)) = issuing s c h u := setCtx_setCtx

theorem onCtx_setCtx {f : Ctx → Ctx} {t : State} : onCtx s f (t.setCtx s.focus.1 d) = t.setCtx s.focus.1 (f d) := by
  rw [onCtx, State.modCtx, State.ctx?_setCtx_self]
  exact setCtx_setCtx
end Twice

/-! ### Loads (R226, R228 to R230) -/

section Loads
variable {s : State} {c : Ctx} {i : Instr} {h : Hdr} {u : Uses} {d : Doing} {sp : Space} {n align lat ord sc : Nat}
  {set : List Byte → Landing → Landing} {base : Landing → Landing} {x y : Word}

@[simp] theorem addLanding_focus {f : Landing → Landing} : (s.addLanding f lat).focus = s.focus := by
  unfold State.addLanding
  split <;> rfl

/-- A load of LSP whose checks hold takes its port and its bytes, and lands after `lat` cycles. -/
theorem loadBody_lsp (hcheck : s.checkAccess c .lsp (loadAddr .lsp x y) n align = none) :
    loadBody .lsp n align lat ord sc set base x y (issuing s c h u) =
      .ok ((onCtx s (fun c => c.usePort (loadAddr .lsp x y).toNat) (issuing s c h u)).addLanding
        (fun l => lspLanding s c (set ((s.core c.core).getBytes (loadAddr .lsp x y).toNat n) (base l)) (loadAddr .lsp x y).toNat n) lat) := by
  unfold loadBody
  rw [withCtx_issuing]
  dsimp only
  rw [checkAccess_issuing, hcheck, onCtx_issuing]
  simp only [lspLanding, core_issueOn, issuing_core]
  rfl

/-- A load of another space whose checks hold allots a landing and sends its requests. -/
theorem loadBody_remote (hsp : sp ≠ .lsp) (hcheck : s.checkAccess c sp (loadAddr sp x y) n align = none) (hroom : c.mayAllot sp = true) :
    loadBody sp n align lat ord sc set base x y (issuing s c h u) =
      .ok (((issuing s c h u).addLanding (fun l =>
        { base l with
          lbuf := true
          missing := (if n ≤ 64 then [(0, n)] else [(0, 64), (64, 64), (128, 64), (192, 64)]).length
          acquire := ord == 1
          peer := sp == .peer }) lat).sendLoads
        sp (loadAddr sp x y).toNat ord sc s.serial (if n ≤ 64 then [(0, n)] else [(0, 64), (64, 64), (128, 64), (192, 64)])) := by
  unfold loadBody
  rw [withCtx_issuing]
  dsimp only
  rw [checkAccess_issuing, hcheck, mayAllot_issueOn, hroom]
  cases sp
  case lsp => exact absurd rfl hsp
  all_goals rfl

/-- The checks that a listed load passes. -/
theorem loadGood_iff {a : Word} : loadGood s c sp a n align = true ↔ s.checkAccess c sp a n align = none ∧ (sp ≠ .lsp → c.mayAllot sp = true) := by
  simp [loadGood, imp_iff_not_or]

theorem exec_of_load {f : FmtLD} (hexec : exec i s = execLoad i sp h f s) (hrow : doLoad s c sp h f = some d) (p : Issues s c i d.h d.u)
    (hclear : Clear c d.u) : exec i s = .next (retired s (d.after (issuing s c d.h d.u))) := by
  simp only [doLoad, Option.ite_none_left_eq_some, Bool.not_eq_true', Bool.not_eq_false, loadGood_iff] at hrow
  obtain ⟨⟨hcheck, hroom⟩, hrow⟩ := hrow
  rw [← loadLat_of_present p.present] at hrow
  obtain rfl := Option.some.inj hrow
  refine exec_of_ok hexec p hclear ?_
  by_cases hsp : sp = .lsp
  · subst hsp
    exact loadBody_lsp hcheck
  · have hsize : 2 ^ f.sz.toNat ≤ 64 := (Nat.pow_le_pow_right (by decide) (Nat.le_of_lt_succ f.sz.isLt)).trans (by decide)
    refine (loadBody_remote hsp hcheck (hroom hsp)).trans ?_
    rw [if_pos hsize]
    simp only [beq_eq_false_iff_ne.mpr hsp, Bool.false_eq_true, if_false, State.sendLoads, addLanding_focus]
    rfl

theorem exec_of_loadV {f : FmtLDV} (hexec : exec i s = execLoadV i sp h f s) (hrow : doLoadV s c sp h f = some d) (p : Issues s c i d.h d.u)
    (hclear : Clear c d.u) : exec i s = .next (retired s (d.after (issuing s c d.h d.u))) := by
  simp only [doLoadV, Option.ite_none_left_eq_some, Bool.not_eq_true', Bool.not_eq_false, loadGood_iff] at hrow
  obtain ⟨⟨hcheck, hroom⟩, hrow⟩ := hrow
  rw [← loadLat_of_present p.present] at hrow
  obtain rfl := Option.some.inj hrow
  refine exec_of_ok hexec p hclear ?_
  by_cases hsp : sp = .lsp
  · subst hsp
    exact loadBody_lsp hcheck
  · refine (loadBody_remote hsp hcheck (hroom hsp)).trans ?_
    simp only [beq_eq_false_iff_ne.mpr hsp, Bool.false_eq_true, if_false]
    rfl
end Loads

/-! ### Gates that are open (R232, R237) -/

section Gates
variable {s : State} {c d : Ctx} {h : Hdr} {u : Uses} {g : Gate} {k : Cluster} {q : Bool}

theorem isNone_takeDeferred {f : Deferred → Bool} : (c.takeDeferred f).isNone = (c.deferred.filter f).isEmpty := by
  unfold Ctx.takeDeferred
  split <;> simp [*]

theorem gateOpen_issuing : gateOpen (issuing s c h u) (c.issueOn k u q) g = gateOpen s c g := by
  simp only [gateOpen, isNone_takeDeferred, State.gateMet, State.passedOn, Ctx.flushedBefore, issuing_focus, issuing_net, issuing_cmds,
    Ctx.issueOn_learnt, Ctx.issueOn_heard, Ctx.issueOn_flushBits, Ctx.issueOn_flushing, Ctx.issueOn_peerNodes, Ctx.issueOn_took,
    Ctx.issueOn_deferred]
  rfl

/-- A word whose gate is open takes effect. -/
theorem gateWord_of_open {b : State → Body} (hc : s.ctx? s.focus.1 = some c) (hopen : gateOpen s c g = true) : s.gateWord g b = b s := by
  obtain ⟨hmet, hclean⟩ := Bool.and_eq_true_iff.mp hopen
  rw [State.gateWord, hc]
  simp only [hmet, Option.isNone_iff_eq_none.mp hclean]
  rfl
end Gates

/-! ### Stores (R227 to R229, R237, R272) -/

section Stores
variable {s : State} {c : Ctx} {i : Instr} {h : Hdr} {u : Uses} {d : Doing} {sp : Space} {a : Word} {align ord sc : Nat}
  {bytes : List Byte} {es : List Nat}

/-- The context of an issuing word in which an invalid row that it reads is counted (R144, R150). -/
def noted (s : State) (c : Ctx) (h : Hdr) (u : Uses) (es : List Nat) : Ctx :=
  match c.uninitElem es with
  | none => c.issueOn s.focus.2 u (Pends c s.focus.2 h u)
  | some w => (c.issueOn s.focus.2 u (Pends c s.focus.2 h u)).recordUninit w

theorem noteElems_issuing : noteElems s c es (issuing s c h u) = (issuing s c h u).setCtx s.focus.1 (noted s c h u es) := by
  unfold noteElems noted
  cases c.uninitElem es with
  | none => exact issuing_setCtx_self.symm
  | some w => exact onCtx_issuing

theorem gateOpen_noted {g : Gate} : gateOpen ((issuing s c h u).setCtx s.focus.1 (noted s c h u es)) (noted s c h u es) g = gateOpen s c g := by
  rw [← gateOpen_issuing (s := s) (h := h) (u := u) (k := s.focus.2) (q := Pends c s.focus.2 h u)]
  simp only [gateOpen, isNone_takeDeferred]
  unfold noted
  cases c.uninitElem es <;> rfl

/-- An element in an invalid row is no fault under UMODE 1. -/
theorem uninit_passes (hread : c.uninitElem es = none ∨ c.umode ≠ 0) : ((c.uninitElem es).isSome && decide (c.umode = 0)) = false := by
  rcases hread with hrow | humode
  · simp [hrow]
  · simp [humode]

/-- A store of LSP whose checks hold is staged. -/
theorem storeBody_lsp (hcheck : s.checkAccess c .lsp a bytes.length align = none) (hclobber : s.clobbers c .lsp a bytes.length = false)
    (hread : c.uninitElem es = none ∨ c.umode ≠ 0) :
    storeBody .lsp a align bytes ord sc (c.uninitElem es) (issuing s c h u) =
      .ok (onCtx s (fun c => { (c.usePort a.toNat).setCl s.focus.2
            { c.cl s.focus.2 with lastAccess := max (c.cl s.focus.2).lastAccess c.time } with
          staged := c.staged ++ [.store a.toNat bytes] }) (noteElems s c es (issuing s c h u))) := by
  rw [noteElems_issuing, onCtx_setCtx, storeBody, withCtx_issuing, checkAccess_issuing, hcheck]
  have hfree := (clobbers_storing (h := h) (u := u) (cl := s.focus.2) (q := Pends c s.focus.2 h u)).trans hclobber
  simp only [storing, beq_self_eq_true, if_true] at hfree ⊢
  rw [if_neg (by simp [hfree]), umode_usePort, umode_issueOn, uninit_passes hread, if_neg (by decide)]
  unfold noted
  cases c.uninitElem es <;> rfl

/-- A store of another space whose checks hold, and whose gate is met if it is a release, sends its chunks. -/
theorem storeBody_remote (hsp : sp ≠ .lsp) (hcheck : s.checkAccess c sp a bytes.length align = none)
    (hclobber : s.clobbers c sp a bytes.length = false) (hread : c.uninitElem es = none ∨ c.umode ≠ 0)
    (hgate : ord = 2 → gateOpen s c (s.releaseGate sc) = true) :
    storeBody sp a align bytes ord sc (c.uninitElem es) (issuing s c h u) =
      .ok ((noteElems s c es (issuing s c h u)).sendStores sp a.toNat ord sc (pieces 64 4 bytes)) := by
  have sends : (if ord = 2 then ((issuing s c h u).setCtx s.focus.1 (noted s c h u es)).gateWord (s.releaseGate sc) fun t =>
        .ok (t.sendStores sp a.toNat ord sc (pieces 64 4 bytes))
      else .ok (((issuing s c h u).setCtx s.focus.1 (noted s c h u es)).sendStores sp a.toNat ord sc (pieces 64 4 bytes))) =
      Body.ok (((issuing s c h u).setCtx s.focus.1 (noted s c h u es)).sendStores sp a.toNat ord sc (pieces 64 4 bytes)) := by
    split
    · next hord => exact gateWord_of_open (State.ctx?_setCtx_self ..) (gateOpen_noted.trans (hgate hord))
    · rfl
  rw [noteElems_issuing, ← sends, storeBody, withCtx_issuing, checkAccess_issuing, hcheck]
  simp only [beq_eq_false_iff_ne.mpr hsp, Bool.false_eq_true, if_false, clobbers_issuing, hclobber, umode_issueOn, uninit_passes hread]
  unfold noted
  cases sp
  case lsp => exact absurd rfl hsp
  all_goals cases c.uninitElem es <;> rfl

theorem exec_of_doStore {body : Word → Word → List Word → State → Body} (hexec : exec i s = word i h u body s)
    (hrow : doStore s c sp h u a align bytes es ord sc = some d) (p : Issues s c i d.h d.u) (hclear : Clear c d.u)
    (hbody : body (c.value s.focus.2 u.sa) (c.value s.focus.2 u.sb) (c.dataOf u.data) (issuing s c h u) =
      storeBody sp a align bytes ord sc (c.uninitElem es) (issuing s c h u)) :
    exec i s = .next (retired s (d.after (issuing s c d.h d.u))) := by
  simp only [doStore, Option.ite_none_left_eq_some] at hrow
  obtain ⟨hpass, hrow⟩ := hrow
  obtain rfl := Option.some.inj hrow
  have hpass : s.checkAccess c sp a bytes.length align = none ∧ s.clobbers c sp a bytes.length = false ∧
      (c.uninitElem es = none ∨ c.umode ≠ 0) ∧ (sp ≠ .lsp → ord = 2 → gateOpen s c (s.releaseGate sc) = true) := by
    simpa [and_assoc, Option.isSome_iff_ne_none, ← or_iff_not_imp_left] using hpass
  obtain ⟨hcheck, hclobber, hread, hgate⟩ := hpass
  refine exec_of_ok hexec p hclear (hbody.trans ?_)
  by_cases hsp : sp = .lsp
  · subst hsp
    exact storeBody_lsp hcheck hclobber hread
  · refine (storeBody_remote hsp hcheck hclobber hread (hgate hsp)).trans ?_
    simp only [beq_eq_false_iff_ne.mpr hsp, Bool.false_eq_true, if_false]

theorem exec_of_store {f : FmtST} (hexec : exec i s = execStore i sp h f s) (hrow : doST s c sp h f = some d) (p : Issues s c i d.h d.u)
    (hclear : Clear c d.u) : exec i s = .next (retired s (d.after (issuing s c d.h d.u))) :=
  exec_of_doStore hexec hrow p hclear rfl

theorem exec_of_storeV {f : FmtSTV} (hexec : exec i s = execStoreV i sp h f s) (hrow : doSTV s c sp h f = some d) (p : Issues s c i d.h d.u)
    (hclear : Clear c d.u) : exec i s = .next (retired s (d.after (issuing s c d.h d.u))) := by
  refine exec_of_doStore hexec hrow p hclear ?_
  rw [withCtx_issuing, uninitElem_issueOn, Ctx.operandBytes, lanes_issueOn]
  rfl
end Stores

/-- Settles O21: by the space and the format of each word, each body the effect of its row. -/
theorem memoryWords : Obligations.MemoryWords := by
  unfold Obligations.MemoryWords
  intro i s c d hrow p hclear
  cases i
  case ldl h f | ldc h f | ldd h f | ldm h f | ldn h f | ldh h f => exact exec_of_load rfl hrow p hclear
  case ldlV h f | ldcV h f | lddV h f | ldmV h f | ldnV h f | ldhV h f => exact exec_of_loadV rfl hrow p hclear
  case stl h f | stc h f | std h f | stm h f | stn h f | sth h f => exact exec_of_store rfl hrow p hclear
  case stlV h f | stcV h f | stdV h f | stmV h f | stnV h f | sthV h f => exact exec_of_storeV rfl hrow p hclear
  all_goals cases hrow

end Sys2Proof.Accesses
end

section
/-! The commands of the management processor (O47). -/

namespace Sys2Proof.Admin

open Sys2Proof.Machine Sys2Proof.Safety Sys2Proof.Effects

variable {s : State} {id : Nat}

/-- A command with the next HSEQ, to an MP that is up, is refused or has the effect of its row, and is answered (R382, R385). -/
theorem adminCommand_of_answers {ok refused : Bool} {t u v : State} (hrow : answers s ok t = some v) (hrefused : refused = !ok)
    (heffect : ok = true → u = t) : s.adminCommand refused u = .next v := by
  simp only [answers, onlyIf, Option.ite_none_right_eq_some, Bool.and_eq_true, beq_iff_eq, bne_iff_ne] at hrow
  obtain ⟨⟨hseq, hup⟩, hv⟩ := hrow
  obtain rfl := Option.some.inj hv
  rw [State.adminCommand, if_neg (by simp [hseq, hup]), hrefused]
  cases ok with
  | false => rfl
  | true =>
    rw [heffect rfl]
    rfl

/-- A command that carries what cannot be unwrapped is refused. -/
theorem adminCommand_of_refused {v : State} (hrow : answers s false s = some v) : s.adminCommand true s = .next v :=
  adminCommand_of_answers hrow rfl fun _ => rfl

theorem policy_even : ∀ {policy : BitVec 2}, (policy == 0 || policy == 2) = !(policy == 1 || policy == 3) := by decide

theorem exec_of_ctxOpen {policy : BitVec 2} {xroot : Word} {kek : List Byte} {t : State}
    (hrow : adminEvent s (.ctxOpen id policy xroot kek) = some t) : exec (.ctxOpen id policy xroot kek) s = .next t := by
  simp only [adminEvent] at hrow
  change execCtxOpen id policy xroot kek s = .next t
  unfold execCtxOpen
  cases hk : Config.oaepDecrypt s.fw.identity.enc kek with
  | none =>
    rw [hk] at hrow
    exact adminCommand_of_refused hrow
  | some k =>
    rw [hk] at hrow
    refine adminCommand_of_answers hrow ?_ fun _ => rfl
    rw [policy_even]
    exact Bool.eq_iff_iff.mpr (by simp [or_assoc])

/-- A key slot of no host context, or of this one. -/
theorem foreign_eq {slot : Nat} : ((s.keys.find? slot).map fun k => k.owner != id).getD false =
    !((s.keys.find? slot).map fun k => k.owner == id).getD true := by
  cases s.keys.find? slot <;> rfl

theorem unowned_eq {slot : Nat} : ((s.keys.find? slot).map fun k => k.owner != id).getD true =
    !((s.keys.find? slot).map fun k => k.owner == id).getD false := by
  cases s.keys.find? slot <;> rfl

theorem sameKey_eq {slot : Nat} {key : List Byte} :
    ((s.keys.find? slot).all fun k => k.key == key) = ((s.keys.find? slot).map fun k => k.key == key).getD true := by
  cases s.keys.find? slot <;> rfl

theorem exec_of_keyLoad {slot : Nat} {wrapped : List Byte} {t : State} (hrow : adminEvent s (.keyLoad id slot wrapped) = some t) :
    exec (.keyLoad id slot wrapped) s = .next t := by
  simp only [adminEvent] at hrow
  change execKeyLoad id slot wrapped s = .next t
  unfold execKeyLoad
  cases hk : (s.hostCtxs.find? id).bind fun h => unwrapKey h.kek wrapped with
  | none =>
    rw [hk] at hrow
    exact adminCommand_of_refused hrow
  | some key =>
    rw [hk] at hrow
    refine adminCommand_of_answers hrow ?_ fun _ => ?_
    · rw [foreign_eq]
      exact Bool.eq_iff_iff.mpr (by simp [or_assoc])
    · rw [sameKey_eq]
      rfl

theorem exec_of_keyClear {slot : Nat} {t : State} (hrow : adminEvent s (.keyClear id slot) = some t) :
    exec (.keyClear id slot) s = .next t :=
  adminCommand_of_answers hrow (by rw [unowned_eq, bne, Bool.not_and, Bool.not_not]) fun _ => rfl

/-- The firmware of the MP and that of the dies are switched one after the other, each where an image is staged (R387). -/
theorem exec_of_fwSwitch {t : State} (hrow : adminEvent s .fwSwitch = some t) : exec .fwSwitch s = .next t := by
  refine adminCommand_of_answers hrow (Bool.eq_iff_iff.mpr (by simp)) fun _ => ?_
  cases hmp : s.fw.mp.staged with
  | false =>
    rw [show s.switchFirmware false = s from if_pos (by simp [hmp])]
    cases hdies : s.fw.dies.staged with
    | false => exact if_pos (by simp [hdies])
    | true => exact if_neg (by simp [hdies])
  | true =>
    rw [show s.switchFirmware false = _ from if_neg (by simp [hmp])]
    cases hdies : s.fw.dies.staged with
    | false => exact if_pos (by simpa using hdies)
    | true => exact if_neg (by simpa using hdies)

/-- Settles O47: by the events of `adminEvent`. -/
theorem adminEvents : Obligations.AdminEvents := by
  unfold Obligations.AdminEvents
  intro e s t hrow
  cases e
  case ctxOpen id policy xroot kek => exact exec_of_ctxOpen hrow
  case keyLoad id slot wrapped => exact exec_of_keyLoad hrow
  case keyClear id slot => exact exec_of_keyClear hrow
  case fwSwitch => exact exec_of_fwSwitch hrow
  case ctxClose id => exact adminCommand_of_answers hrow (Bool.eq_iff_iff.mpr (by simp)) fun _ => rfl
  case upload id g => exact adminCommand_of_answers hrow (Bool.eq_iff_iff.mpr (by simp [or_assoc])) fun _ => rfl
  case free gid =>
    refine adminCommand_of_answers hrow ?_ fun _ => rfl
    exact Bool.eq_iff_iff.mpr (by simp [range, or_iff_not_imp_left])
  case resetDie die => exact adminCommand_of_answers hrow (Bool.eq_iff_iff.mpr (by simp)) fun _ => rfl
  case retirePage pa => exact adminCommand_of_answers hrow rfl fun _ => rfl
  case fwStage image dies => exact adminCommand_of_answers hrow rfl fun _ => rfl
  case attest nonce dst => exact adminCommand_of_answers hrow (Bool.eq_iff_iff.mpr (by simp)) fun _ => rfl
  case logRead a b dst => exact adminCommand_of_answers hrow (Bool.eq_iff_iff.mpr (by simp)) fun _ => rfl
  case journalClear step => exact adminCommand_of_answers hrow (Bool.eq_iff_iff.mpr (by simp)) fun _ => rfl
  case handlerLoad die image => exact adminCommand_of_answers hrow (Bool.eq_iff_iff.mpr (by simp)) fun _ => rfl
  all_goals cases hrow

end Sys2Proof.Admin
end

section
/-! What the words of V and M leave unchanged (O51). -/

namespace Sys2Proof.Lanes

open Sys2Proof.Machine Sys2Proof.Safety Sys2Proof.Effects Sys2Proof.Common Sys2Proof.Branches Sys2Proof.Areas Sys2Proof.Faults
  Sys2Proof.Accesses

/-! ### The context of a word of V or M as it takes effect -/

section Working
variable {s t t' : State} {c d e : Ctx} {h : Hdr} {u : Uses} {es : List Nat} {k : Cluster} {q : Bool} {l : Landing}

/-- Of a context, what a word of a cluster that reaches no memory changes before it retires: run states and last accesses, the queues that it
pops or delivers to, counts that are no register, the array, and landings that it has scheduled. -/
structure Working (k : Cluster) (u : Uses) (es : List Nat) (c d : Ctx) : Prop where
  rest : d = { c with
    cls := d.cls, queues := d.queues, freed := d.freed, landings := d.landings, ctr := d.ctr, issuedPcs := d.issuedPcs, array := d.array }
  clusters : ∀ j, ∃ r b i n, d.cl j = { c.cl j with run := r, qblk := b, qdir := i, lastAccess := n }
  counts : d.ctr.freeze = c.ctr.freeze ∧ d.ctr.late = c.ctr.late ∧ d.ctr.retry = c.ctr.retry
  landings : ∃ l, d.landings = c.landings ++ l ∧ ∀ x ∈ l, scheduledBy k u es x
  queues : ∀ n, (∀ i ∈ u.pops k, inQueue k i ≠ n) → (∀ e ∈ u.outs, outQueue k e ≠ n) → d.queue n = c.queue n

theorem queue_foldl_pop {n : Nat} {l : List Nat} (hn : ∀ i ∈ l, inQueue k i ≠ n) :
    (l.foldl (fun c i => c.pop (inQueue k i)) c).queue n = c.queue n := by
  induction l generalizing c with
  | nil => rfl
  | cons i l ih =>
    rw [List.foldl_cons, ih fun j hj => hn j (List.mem_cons_of_mem _ hj)]
    exact FMap.getD_insert_ne _ _ _ _ _ (hn i List.mem_cons_self).symm

theorem queue_issueOn {n : Nat} (hn : ∀ i ∈ u.pops k, inQueue k i ≠ n) : (c.issueOn k u q).queue n = c.queue n := by
  unfold Ctx.issueOn
  dsimp only
  split <;> exact queue_foldl_pop hn

theorem working_issueOn : Working k u es c (c.issueOn k u q) where
  rest := Ctx.issueOn_keeps (fun d : Ctx => { d with
      cls := (c.issueOn k u q).cls, queues := (c.issueOn k u q).queues, freed := (c.issueOn k u q).freed
      landings := (c.issueOn k u q).landings, ctr := (c.issueOn k u q).ctr, issuedPcs := (c.issueOn k u q).issuedPcs
      array := (c.issueOn k u q).array })
    (fun _ _ => rfl) (fun _ _ _ => rfl) (fun _ _ => rfl) (fun _ _ => rfl) c k u q
  clusters j := by
    by_cases hj : j = k
    · subst hj
      exact ⟨_, _, _, _, Ctx.cl_issueOn ..⟩
    · exact ⟨_, _, _, _, Ctx.cl_issueOn_ne _ _ _ _ _ hj⟩
  counts := by
    obtain ⟨v, hv⟩ := ctr_issueOn (c := c) (k := k) (u := u) (q := q)
    simp [hv]
  landings := ⟨[], by simp⟩
  queues n hpops _ := queue_issueOn hpops

theorem Working.recordUninit {w : Word} (hd : Working k u es c d) : Working k u es c (d.recordUninit w) where
  rest := congrArg (fun x : Ctx => { x with ctr := (d.recordUninit w).ctr }) hd.rest
  clusters := hd.clusters
  counts := hd.counts
  landings := hd.landings
  queues := hd.queues

theorem Working.setArray {m : MatrixArray} (hd : Working k u es c d) : Working k u es c { d with array := m } where
  rest := congrArg (fun x : Ctx => { x with array := m }) hd.rest
  clusters := hd.clusters
  counts := hd.counts
  landings := hd.landings
  queues := hd.queues

theorem mem_outs {a : BitVec 6} (ha : a = u.d1 ∨ a = u.d2) (h7 : a.toNat / 8 = 7) (h63 : a ≠ 63) : a.toNat % 8 ∈ u.outs := by
  have hone : a.toNat % 8 ∈ if a.toNat / 8 = 7 && a != 63 then [a.toNat % 8] else [] := by
    rw [if_pos (by simpa [h7] using h63)]
    exact List.mem_cons_self
  rcases ha with rfl | rfl
  · exact List.mem_append_left _ hone
  · exact List.mem_append_right _ hone

/-- A landing that the word schedules. -/
theorem Working.schedule {cls : Quad ClusterState} {qs : FMap (List QEntry)} (hd : Working k u es c d) (hl : scheduledBy k u es l)
    (hcls : ∀ j, ∃ n, cls.get j = { d.cl j with lastAccess := n })
    (hqs : ∀ n, (∀ a ∈ [l.d1, l.d2], a.toNat / 8 = 7 → a ≠ 63 → n ≠ outQueue l.cl (a.toNat % 8)) → qs.getD n [] = d.queue n) :
    Working k u es c { d with cls := cls, queues := qs, landings := d.landings ++ [l] } where
  rest := congrArg (fun x : Ctx => { x with cls := cls, queues := qs, landings := d.landings ++ [l] }) hd.rest
  clusters j := by
    obtain ⟨r, b, i, n, hj⟩ := hd.clusters j
    obtain ⟨m, hm⟩ := hcls j
    exact ⟨r, b, i, m, by rw [hj] at hm; exact hm⟩
  counts := hd.counts
  landings := by
    obtain ⟨l', happ, hsched⟩ := hd.landings
    refine ⟨l' ++ [l], by rw [happ, List.append_assoc], fun x hx => ?_⟩
    rcases List.mem_append.mp hx with hx | hx
    · exact hsched x hx
    · rwa [List.mem_singleton.mp hx]
  queues n hpops houts := by
    obtain ⟨hcl, hd1, hd2, -, -⟩ := hl
    refine (hqs n fun a ha h7 h63 => ?_).trans (hd.queues n hpops houts)
    have ha : a = u.d1 ∨ a = u.d2 := by simpa [hd1, hd2] using ha
    rw [hcl]
    exact (houts _ (mem_outs ha h7 h63)).symm

theorem advance_ret {x : ClusterState} : x.advance.ret = x.ret := by
  unfold ClusterState.advance
  grind

/-- The counters of a cluster whose word retires, but for the counts of loops that end at it (R87). -/
theorem loopsKept_advance {x : ClusterState} (hx : d.cl k = x.advance) {r b i n}
    (hk : x = { c.cl k with run := r, qblk := b, qdir := i, lastAccess := n }) : LoopsKept k c d := by
  unfold LoopsKept
  rw [hx, hk]
  unfold ClusterState.advance
  grind

theorem commit_cl_self : (d.commit k none).cl k = (d.cl k).advance := commit_none_cl ..

theorem commit_cl_ne {j : Cluster} (hj : j ≠ k) : (d.commit k none).cl j = d.cl j := Ctx.cl_setCl_ne _ _ _ _ hj

theorem Working.registersKept (hd : Working k u es c d) : RegistersKept [k] c (d.commit k none) where
  files j f e := by
    obtain ⟨r, b, i, n, hj⟩ := hd.clusters j
    by_cases hk : j = k
    · subst hk
      rw [commit_cl_self, advance_file, hj]
      rfl
    · rw [commit_cl_ne hk, hj]
      rfl
  preds j m := by
    obtain ⟨r, b, i, n, hj⟩ := hd.clusters j
    by_cases hk : j = k
    · subst hk
      rw [commit_cl_self, advance_pred, hj]
      rfl
    · rw [commit_cl_ne hk, hj]
      rfl
  loops j hj := by
    obtain ⟨r, b, i, n, hcl⟩ := hd.clusters j
    rw [commit_cl_ne (List.ne_of_not_mem_cons hj), hcl]
    exact ⟨rfl, rfl, rfl⟩
  pcs j hj := by
    obtain ⟨r, b, i, n, hcl⟩ := hd.clusters j
    rw [commit_cl_ne (List.ne_of_not_mem_cons hj), hcl]
  mrf := congrArg (·.mrf) hd.rest
  who := congrArg (·.who) hd.rest
  control := congrArg (·.coreCtl) hd.rest
  traps := ⟨congrArg (·.cause) hd.rest, congrArg (·.epc) hd.rest, congrArg (·.inHandler) hd.rest⟩
  entries := ⟨congrArg (·.entry) hd.rest, congrArg (·.code) hd.rest⟩
  areas := ⟨congrArg (·.ctxArea) hd.rest, congrArg (·.traceBase) hd.rest, congrArg (·.xroot) hd.rest, congrArg (·.rgn) hd.rest⟩
  counts := hd.counts
  time := ⟨congrArg (·.time) hd.rest, congrArg (·.coreTime) hd.rest⟩

theorem Working.loopsKept (hd : Working k u es c d) : LoopsKept k c (d.commit k none) := by
  obtain ⟨r, b, i, n, hcl⟩ := hd.clusters k
  exact loopsKept_advance commit_cl_self hcl
end Working

/-! ### The state in which a word of V or M takes effect -/

section States
variable {s t t' : State} {c d e : Ctx} {h : Hdr} {u : Uses} {es : List Nat} {l : Landing}

/-- A state in which a word has changed its own context alone, as far as `Working` lets it. -/
structure WorkingAt (s : State) (c : Ctx) (u : Uses) (es : List Nat) (t : State) (d : Ctx) : Prop where
  present : t.ctx? s.focus.1 = some d
  working : Working s.focus.2 u es c d
  others : ∀ j, j ≠ s.focus.1 → t.ctx? j = s.ctx? j
  rest : t = { s with ctxs := t.ctxs, serial := t.serial }

theorem WorkingAt.focus (ht : WorkingAt s c u es t d) : t.focus = s.focus := (congrArg State.focus ht.rest :)

theorem workingAt_issuing : WorkingAt s c u es (issuing s c h u) (c.issueOn s.focus.2 u (Pends c s.focus.2 h u)) where
  present := issuing_ctx? ..
  working := working_issueOn
  others _ hj := State.ctx?_setCtx_ne _ _ _ _ hj
  rest := rfl

theorem WorkingAt.setCtx {k : Nat} {n : Nat} (ht : WorkingAt s c u es t d) (hk : k = s.focus.1) (he : Working s.focus.2 u es c e) :
    WorkingAt s c u es { t.setCtx k e with serial := n } e where
  present := by
    rw [hk]
    exact State.ctx?_setCtx_self t s.focus.1 e
  working := he
  others j hj := (State.ctx?_setCtx_ne t k j e (by rwa [hk])).trans (ht.others j hj)
  rest := congrArg (fun x : State => { x with ctxs := (t.setCtx k e).ctxs, serial := n }) ht.rest

theorem WorkingAt.schedules (ht : WorkingAt s c u es t d) (hsched : t.Schedules t' d l) (hl : scheduledBy s.focus.2 u es l) :
    ∃ e, WorkingAt s c u es t' e ∧ e.array = d.array := by
  obtain ⟨cls, qs, rfl, hcls, hqs⟩ := hsched
  exact ⟨_, ht.setCtx (congrArg Prod.fst ht.focus) (ht.working.schedule hl hcls hqs), rfl⟩

theorem WorkingAt.deliverElems {o : BitVec 15} {els : List Nat} {vs : List (BitVec 16)} {lat : Nat} (ht : WorkingAt s c u es t d)
    (hsub : ∀ x ∈ els, x ∈ es) (hcodes : u.d1 = 63 ∧ u.d2 = 63 ∧ u.pmask = 0) :
    ∃ e, WorkingAt s c u es (t.deliverElems o els vs lat) e ∧ e.array = d.array := by
  obtain ⟨h1, h2, hmask⟩ := hcodes
  refine ht.schedules (t.deliverElems_spec d o els vs lat (by rw [ht.focus, ht.present])) ⟨?_, h1.symm, h2.symm, ?_, hsub⟩
  · exact congrArg Prod.snd ht.focus
  · rw [hmask]
    rfl

theorem WorkingAt.deliver {v : Word} {lat : Nat} (ht : WorkingAt s c u es t d) (hmask : u.pmask = 0) :
    ∃ e, WorkingAt s c u es (t.deliver u.d1 u.d2 v lat) e := by
  rcases t.deliver2_spec d u.d1 u.d2 v v lat (by rw [ht.focus, ht.present]) with ⟨-, -, hsame⟩ | hsched
  · exact ⟨d, by rwa [State.deliver, hsame]⟩
  · obtain ⟨e, he, -⟩ := ht.schedules (u := u) hsched ⟨congrArg Prod.snd ht.focus, rfl, rfl, by rw [hmask]; rfl, fun x hx => by cases hx⟩
    exact ⟨e, he⟩

theorem WorkingAt.modArray {f : MatrixArray → MatrixArray} (ht : WorkingAt s c u es t d) :
    WorkingAt s c u es (t.modArray f) { d with array := f d.array } := by
  have hfocus : t.focus.1 = s.focus.1 := congrArg Prod.fst ht.focus
  rw [State.modArray, State.modCtx, hfocus, ht.present]
  exact ht.setCtx rfl ht.working.setArray

theorem modArray_of_workingAt {f : MatrixArray → MatrixArray} (ht : ∃ d, WorkingAt s c u es t d) : ∃ d, WorkingAt s c u es (t.modArray f) d := by
  obtain ⟨d, hd⟩ := ht
  exact ⟨_, hd.modArray⟩

theorem WorkingAt.drainRow {dacc : BitVec 8} {dt : BitVec 15} {df : BitVec 2} (ht : WorkingAt s c u es t d)
    (hsub : ∀ x ∈ drainElemsOf dt df, x ∈ es) (hcodes : u.d1 = 63 ∧ u.d2 = 63 ∧ u.pmask = 0) :
    ∃ e, WorkingAt s c u es (t.drainRow dacc dt df) e := by
  rw [State.drainRow, congrArg Prod.fst ht.focus, ht.present]
  obtain ⟨e, he, -⟩ := ht.deliverElems hsub hcodes
  exact ⟨e, he⟩

theorem workingAt_noteElems {els : List Nat} : ∃ d, WorkingAt s c u es (noteElems s c els (issuing s c h u)) d ∧ d.array = c.array := by
  have hstart : WorkingAt s c u es (issuing s c h u) _ := workingAt_issuing
  rw [noteElems]
  split
  · exact ⟨_, hstart, Ctx.issueOn_array ..⟩
  · rw [onCtx_issuing]
    exact ⟨_, hstart.setCtx rfl hstart.working.recordUninit, Ctx.issueOn_array ..⟩

/-- A word that has so changed its context, and retires, is quiet. -/
theorem WorkingAt.quiet (ht : WorkingAt s c u es t d) : Quiet s (retired s t) c (d.commit s.focus.2 none) u es [s.focus.2] := by
  have hretired : retired s t = t.setCtx s.focus.1 (d.commit s.focus.2 none) := by rw [retired, State.modCtx, ht.present]
  rw [hretired]
  exact {
    after := State.ctx?_setCtx_self ..
    registers := ht.working.registersKept
    landings := ht.working.landings
    queues := ht.working.queues
    others := fun j hj => (State.ctx?_setCtx_ne t s.focus.1 j _ hj).trans (ht.others j hj)
    rest := congrArg (fun x : State => { x with ctxs := (t.setCtx s.focus.1 (d.commit s.focus.2 none)).ctxs, serial := t.serial }) ht.rest }
end States

/-! ### The words of V (R173 to R198) -/

section Vector
variable {s t : State} {c : Ctx} {i : Instr} {w : LaneWord}

/-- What a lane word comes to: its lanes land later, in the elements of its row. -/
theorem exec_of_laneWord (hrow : laneWord s c i = some w) (p : Issues s c i w.h w.u) (hread : c.uninitElem w.u.elems = none ∨ c.umode ≠ 0) :
    ∃ o vs lat, exec i s = .next (retired s ((noteElems s c w.u.elems (issuing s c w.h w.u)).deliverElems o w.elems vs lat)) := by
  cases i
  case vadd h f | vsub h f | vmul h f | vfma h f | vfms h f | vfnma h f | vmax h f | vmin h f | vabs h f | vneg h f | vdiv h f |
      vsqrt h f | vexp2 h f | vexp h f | vscale h f | viadd h f | visub h f | vimul h f | vimax h f | vimin h f | vand h f | vor h f |
      vxor h f | vshl h f | vshr h f | vsra h f | viota h f | vcmp h f | vicmp h f | vsel h f | vcvt h f | vunpack h f | vmov h f |
      vclr h f | vbcast h f =>
    obtain rfl := Option.some.inj hrow
    exact ⟨_, _, _, exec_of_ok rfl p (clear_of_no_mem rfl) (elemsBody_issuing hread)⟩
  case vrot h f =>
    obtain rfl := Option.some.inj hrow
    have hes := elems_usesLanes_single (e := (wide f.ty, f.va))
    exact ⟨_, _, _, exec_of_ok rfl p (clear_of_no_mem rfl)
      ((congrArg (elemsBody · _ _) hes.symm).trans (elemsBody_issuing hread))⟩
  case vperm h f =>
    rw [laneWord, ← permElems_of_present p.present] at hrow
    obtain rfl := Option.some.inj hrow
    exact ⟨_, _, _, exec_of_ok rfl p (clear_of_no_mem rfl) (elemsBody_issuing hread)⟩
  case vins h f =>
    obtain rfl := Option.some.inj hrow
    exact ⟨_, _, _, exec_of_ok rfl p (clear_of_no_mem rfl) rfl⟩
  all_goals cases hrow

/-- A lane word delivers to no file and to no predicate. -/
theorem laneWord_codes (hrow : laneWord s c i = some w) : w.u.d1 = 63 ∧ w.u.d2 = 63 ∧ w.u.pmask = 0 := by
  cases i
  case vadd h f | vsub h f | vmul h f | vfma h f | vfms h f | vfnma h f | vmax h f | vmin h f | vabs h f | vneg h f | vdiv h f |
      vsqrt h f | vexp2 h f | vexp h f | vscale h f | viadd h f | visub h f | vimul h f | vimax h f | vimin h f | vand h f | vor h f |
      vxor h f | vshl h f | vshr h f | vsra h f | viota h f | vcmp h f | vicmp h f | vsel h f | vcvt h f | vunpack h f | vmov h f |
      vclr h f | vbcast h f | vrot h f | vperm h f | vins h f =>
    obtain rfl := Option.some.inj hrow
    exact ⟨rfl, rfl, rfl⟩
  all_goals cases hrow

theorem quiet_of_laneWord (hrow : laneWord s c i = some w) (p : Issues s c i w.h w.u) (hread : c.uninitElem w.u.elems = none ∨ c.umode ≠ 0)
    (hnext : exec i s = .next t) :
    ∃ c', Quiet s t c c' w.u w.elems [s.focus.2] ∧ c'.array = c.array ∧ LoopsKept s.focus.2 c c' := by
  obtain ⟨o, vs, lat, hexec⟩ := exec_of_laneWord hrow p hread
  obtain rfl := Host.Outcome.next.inj (hexec.symm.trans hnext)
  obtain ⟨d, hd, hsame⟩ := workingAt_noteElems (s := s) (c := c) (h := w.h) (u := w.u) (es := w.elems) (els := w.u.elems)
  obtain ⟨e, he, harray⟩ := hd.deliverElems (o := o) (vs := vs) (lat := lat) (fun _ hx => hx) (laneWord_codes hrow)
  exact ⟨_, he.quiet, harray.trans hsame, he.working.loopsKept⟩
end Vector

/-! ### The words of M (R199 to R224) -/

section Matrix
variable {s t : State} {c : Ctx} {i : Instr} {h : Hdr} {u : Uses} {es : List Nat} {d : Doing}

/-- A word whose body goes on from the state in which it takes effect, and only with changes of `Working`, is quiet. -/
theorem quiet_of_ok {body : Word → Word → List Word → State → Body} (hexec : exec i s = word i h u body s) (p : Issues s c i h u)
    (hclear : Clear c u) (hnext : exec i s = .next t) {v : State}
    (hbody : body (c.value s.focus.2 u.sa) (c.value s.focus.2 u.sb) (c.dataOf u.data) (issuing s c h u) = .ok v)
    (hv : ∃ e, WorkingAt s c u es v e) :
    ∃ c', Quiet s t c c' u es [s.focus.2] ∧ LoopsKept s.focus.2 c c' := by
  obtain ⟨e, he⟩ := hv
  obtain rfl := Host.Outcome.next.inj ((exec_of_ok hexec p hclear hbody).symm.trans hnext)
  exact ⟨_, he.quiet, he.working.loopsKept⟩

/-- A word of M on a task with the array takes effect (R224). -/
theorem arrayBody_issuing (hau : c.who.au = true) {go : Ctx → State → Body} :
    arrayBody go (issuing s c h u) = go (c.issueOn s.focus.2 u (Pends c s.focus.2 h u)) (issuing s c h u) := by
  rw [arrayBody, withCtx_issuing, Ctx.issueOn_who, if_pos hau]

/-- A word whose reads of a half pass takes effect on a state that has changed its context alone (R211). -/
theorem halfBody_of_reads {half n : Nat} {a : Word} (hreads : halfReads s c half n a = true) {go : List Byte → State → Body} :
    ∃ l v e, halfBody half n a go (issuing s c h u) = go l v ∧ WorkingAt s c u es v e := by
  simp only [halfReads, Bool.and_eq_true, beq_iff_eq, Option.isNone_iff_eq_none, Bool.not_eq_true', Bool.or_eq_true, bne_iff_ne] at hreads
  obtain ⟨⟨⟨⟨⟨⟨⟨hau, hhigh⟩, halign⟩, howns⟩, hthere⟩, hport⟩, hgood⟩, hvalid⟩ := hreads
  have hstart : WorkingAt s c u es (issuing s c h u) _ := workingAt_issuing
  rw [halfBody, arrayBody_issuing hau]
  simp only [owns_issueOn, Ctx.issueOn_who, Ctx.issueOn_xPort, core_issueOn, issuing_core, umode_issueOn]
  rw [if_neg (by simp [hhigh]), if_neg (by simp [halign]), if_neg (by rw [howns, hthere]; decide), if_neg (by rw [hport]; decide), hgood]
  cases hline : (s.core c.core).invalidLine (half * 2 ^ 22 + bits a 0 22) n with
  | none => exact ⟨_, _, _, rfl, hstart⟩
  | some l =>
    have humode : c.umode ≠ 0 := hvalid.resolve_left (by rw [hline]; exact Option.some_ne_none l)
    simp only [if_neg humode]
    exact ⟨_, _, _, rfl, hstart.setCtx rfl hstart.working.recordUninit⟩

theorem WorkingAt.drainIf {f : FmtMB} {v : State} {e : Ctx} (hv : WorkingAt s c u es v e)
    (hsub : f.dr = 1 → ∀ x ∈ drainElemsOf f.dt f.df, x ∈ es) (hcodes : u.d1 = 63 ∧ u.d2 = 63 ∧ u.pmask = 0) :
    ∃ e, WorkingAt s c u es (v.drainIf f) e := by
  unfold State.drainIf
  split
  · next hdr => exact hv.drainRow (hsub hdr) hcodes
  · exact ⟨e, hv⟩

/-- A word of M that drains where its DR says so drains to the elements of its row. -/
theorem drained_of_dr {f : FmtMB} (hdr : f.dr = 1) : ∀ x ∈ drainElemsOf f.dt f.df, x ∈ if f.dr = 1 then drainElemsOf f.dt f.df else [] := by
  rw [if_pos hdr]
  exact fun _ hx => hx

theorem quiet_of_matrixWord (hrow : matrixWord s c i = some d) (p : Issues s c i d.h d.u) (hclear : Clear c d.u)
    (hnext : exec i s = .next t) : ∃ c', Quiet s t c c' d.u (drained i) [s.focus.2] ∧ LoopsKept s.focus.2 c c' := by
  have hau : c.who.au = true := by
    by_contra hno
    rw [matrixWord, if_pos (by simpa using hno)] at hrow
    cases hrow
  rw [matrixWord, if_neg (by simp [hau])] at hrow
  cases i
  case mbeat h f =>
    obtain ⟨hreads, hrow⟩ := Option.ite_none_right_eq_some.mp hrow
    obtain rfl := Option.some.inj hrow
    obtain ⟨l, v, e, hbody, hv⟩ := halfBody_of_reads hreads
    exact quiet_of_ok rfl p hclear hnext ((congrArg (halfBody _ · _ _ _) recordBytes_issuing).trans hbody)
      (hv.modArray.drainIf drained_of_dr ⟨rfl, rfl, rfl⟩)
  case mshift h f =>
    obtain rfl := Option.some.inj hrow
    exact quiet_of_ok rfl p hclear hnext (arrayBody_issuing hau) (workingAt_issuing.modArray.drainIf drained_of_dr ⟨rfl, rfl, rfl⟩)
  case mdrain h f =>
    obtain rfl := Option.some.inj hrow
    exact quiet_of_ok rfl p hclear hnext (arrayBody_issuing hau) (workingAt_issuing.drainRow (fun _ hx => hx) ⟨rfl, rfl, rfl⟩)
  case mdrainc h f =>
    obtain rfl := Option.some.inj hrow
    exact quiet_of_ok rfl p hclear hnext (arrayBody_issuing hau)
      (modArray_of_workingAt (workingAt_issuing.drainRow (fun _ hx => hx) ⟨rfl, rfl, rfl⟩))
  case mwload h f | mbscale h f =>
    obtain ⟨hreads, hrow⟩ := Option.ite_none_right_eq_some.mp hrow
    obtain rfl := Option.some.inj hrow
    obtain ⟨l, v, e, hbody, hv⟩ := halfBody_of_reads hreads
    exact quiet_of_ok rfl p hclear hnext hbody ⟨_, hv.modArray⟩
  case mcfg h f | mseed h f | mclr h f =>
    obtain rfl := Option.some.inj hrow
    exact quiet_of_ok rfl p hclear hnext (arrayBody_issuing hau) ⟨_, workingAt_issuing.modArray⟩
  case mexp h f | mstat h f =>
    obtain rfl := Option.some.inj hrow
    exact quiet_of_ok rfl p hclear hnext (arrayBody_issuing hau) (workingAt_issuing.deliver rfl)
  case mexpw h f | msat h f =>
    obtain rfl := Option.some.inj hrow
    exact quiet_of_ok rfl p hclear hnext (arrayBody_issuing hau) (modArray_of_workingAt (workingAt_issuing.deliver rfl))
  case mwait h =>
    rw [← drainElems_of_present p.present] at hrow
    obtain rfl := Option.some.inj hrow
    exact quiet_of_ok rfl p hclear hnext (arrayBody_issuing hau) ⟨_, workingAt_issuing⟩
  all_goals cases hrow
end Matrix

/-- Settles O51: a word of V or M takes effect on its own context, whose registers a later landing writes. -/
theorem laneFrame : Obligations.LaneFrame := by
  unfold Obligations.LaneFrame
  exact ⟨fun _ _ _ _ _ hrow p hread hnext => quiet_of_laneWord hrow p hread hnext,
    fun _ _ _ _ _ hrow p hclear hnext => quiet_of_matrixWord hrow p hclear hnext⟩

end Sys2Proof.Lanes
end

section
/-! A store at its home (O56). -/

namespace Sys2Proof.Homes

open Sys2Proof.Machine Sys2Proof.Safety Sys2Proof.Effects Sys2Proof.Areas Sys2Proof.Core

/-! ### Where bytes are (R155, R294) -/

section Places
variable {s t : State} {c : Ctx} {sp : Space} {addr : Nat} {h g : HomeOf} {b : Byte}

/-- A home that names its byte in one way: the address of a byte of another package lies in its 48 bits. -/
def Placed (h : HomeOf) : Prop := ∀ n va, h = .peer n va → va < 2 ^ 48

theorem placed_of_home {write : Bool} (hh : s.home c sp addr write = .ok h) : Placed h := by
  rintro n va rfl
  cases sp <;> simp only [State.home, State.reachScratch] at hh
  case peer =>
    cases hh
    exact Nat.mod_lt _ (by decide)
  all_goals
    repeat' split at hh
    all_goals cases hh

theorem placed_of_homes {write : Bool} {n : Nat} {l : List HomeOf} (hl : s.homes c sp write addr n = .ok l) : ∀ h ∈ l, Placed h := by
  induction n generalizing addr l with
  | zero =>
    cases hl
    simp
  | succ n ih =>
    unfold State.homes at hl
    split at hl
    · cases hl
    · next h hh =>
      split at hl
      · cases hl
      · next l' hl' =>
        cases hl
        exact List.forall_mem_cons.mpr ⟨placed_of_home hh, ih hl'⟩

theorem length_homes {write : Bool} {n : Nat} {l : List HomeOf} (hl : s.homes c sp write addr n = .ok l) : l.length = n := by
  induction n generalizing addr l with
  | zero =>
    cases hl
    rfl
  | succ n ih =>
    unfold State.homes at hl
    split at hl
    · cases hl
    · split at hl
      · cases hl
      · next l' hl' =>
        cases hl
        rw [List.length_cons, ih hl']

theorem rawByte_congr (hm : t.memories = s.memories) (hc : t.cores = s.cores) : rawByte t h = rawByte s h := by
  obtain ⟨hhbm, hhost, hpeer⟩ : t.hbm = s.hbm ∧ t.hostMem = s.hostMem ∧ t.peerMem = s.peerMem := by
    simpa [State.memories] using hm
  cases h <;> simp only [rawByte, State.core, hhbm, hhost, hpeer, hc]

@[simp] theorem dropDecoded_cores {pa : Nat} : (s.dropDecoded pa).cores = s.cores := by
  unfold State.dropDecoded
  induction (s.die (pa / 2 ^ 40)).regions.items generalizing s with
  | nil => rfl
  | cons e l ih =>
    rw [List.foldl_cons, ih]
    split <;> rfl

@[simp] theorem rawByte_dropDecoded {pa : Nat} : rawByte (s.dropDecoded pa) h = rawByte s h :=
  rawByte_congr (s.memories_dropDecoded pa) dropDecoded_cores

theorem rawByte_poke_self : rawByte (s.poke h b) h = b := by
  cases h with
  | scratch k o =>
    simp only [rawByte, State.poke, State.modCore, State.core_setCore_self]
    exact get_put_self
  | mem pa => exact Mem.read_write_self _ _ _
  | host a => exact Mem.read_write_self _ _ _
  | peer n va => exact Mem.read_write_self _ _ _

theorem rawByte_poke_scratch_ne {k o : Nat} (hne : g ≠ .scratch k o) : rawByte (s.poke (.scratch k o) b) g = rawByte s g := by
  cases g with
  | scratch j a =>
    by_cases hj : j = k
    · subst hj
      simp only [rawByte, State.poke, State.modCore, State.core_setCore_self]
      exact get_put_of_ne _ fun ha => hne (by rw [ha])
    · exact congrArg (CoreState.get · a) (State.core_setCore_ne _ _ _ _ hj)
  | mem pa => rfl
  | host a => rfl
  | peer n va => rfl

/-- A byte written at its home leaves the byte of every other home. -/
theorem rawByte_poke_ne (hne : g ≠ h) (hg : Placed g) (hh : Placed h) : rawByte (s.poke h b) g = rawByte s g := by
  cases h with
  | scratch k o => exact rawByte_poke_scratch_ne hne
  | mem pa =>
    cases g with
    | mem a => exact Mem.read_write_ne _ _ _ _ fun ha => hne (by rw [ha])
    | scratch k o => exact rawByte_dropDecoded (h := .scratch k o)
    | host a => exact rawByte_dropDecoded (h := .host a)
    | peer n va => exact rawByte_dropDecoded (h := .peer n va)
  | host a =>
    cases g with
    | host a' => exact Mem.read_write_ne _ _ _ _ fun ha => hne (by rw [ha])
    | scratch k o => rfl
    | mem pa => rfl
    | peer n va => rfl
  | peer n va =>
    cases g with
    | peer n' va' =>
      refine Mem.read_write_ne _ _ _ _ fun ha => hne ?_
      have hva := hh n va rfl
      have hva' := hg n' va' rfl
      obtain ⟨rfl, rfl⟩ : n' = n ∧ va' = va := by omega
      rfl
    | scratch k o => rfl
    | mem pa => rfl
    | host a => rfl

/-- Bytes written at homes leave the byte of every other home. -/
theorem rawByte_pokes_outside {l : List (HomeOf × Byte)} (hg : Placed g) (hl : ∀ e ∈ l, Placed e.1 ∧ g ≠ e.1) :
    rawByte (s.pokes (l.map (·.1)) (l.map (·.2))) g = rawByte s g := by
  induction l generalizing s with
  | nil => rfl
  | cons e l ih =>
    obtain ⟨hplaced, hne⟩ := hl e List.mem_cons_self
    exact (ih fun x hx => hl x (List.mem_cons_of_mem _ hx)).trans (rawByte_poke_ne hne hg hplaced)

/-- The last of the bytes that are written at a home stays there. -/
theorem rawByte_pokes_last {l m : List (HomeOf × Byte)} (hg : Placed g) (hm : ∀ e ∈ m, Placed e.1 ∧ g ≠ e.1) :
    rawByte (s.pokes ((l ++ (g, b) :: m).map (·.1)) ((l ++ (g, b) :: m).map (·.2))) g = b := by
  induction l generalizing s with
  | nil => exact (rawByte_pokes_outside hg hm).trans rawByte_poke_self
  | cons e l ih => exact ih
end Places

/-! ### The bytes of a store (R227, R272) -/

section Stores
variable {s : State} {c : Ctx} {addr : Nat} {l : List HomeOf} {bytes : List Byte} {g : HomeOf} {x : Byte}

theorem rawByte_cleanse : rawByte (s.cleanse l) g = rawByte s g := by
  unfold State.cleanse
  split
  · next k o _ =>
    cases g with
    | scratch j a =>
      simp only [rawByte, State.modCore]
      by_cases hj : j = k
      · subst hj
        rw [State.core_setCore_self]
        rfl
      · rw [State.core_setCore_ne _ _ _ _ hj]
    | mem pa => rfl
    | host a => rfl
    | peer n va => rfl
  · rfl

/-- The homes and bytes of a store that are written: those outside tagged granules. -/
def writes (s : State) (l : List HomeOf) (bytes : List Byte) : List (HomeOf × Byte) := (List.zip l bytes).filter fun e => !s.taggedAt e.1

theorem writes_eq : writes s l bytes =
    ((List.zip l (List.zip (range addr bytes.length) bytes)).filter fun e => !s.taggedAt e.1).map fun e => (e.1, e.2.2) := by
  have hbytes : (List.zip (range addr bytes.length) bytes).map Prod.snd = bytes :=
    List.map_snd_zip (by rw [range_eq_range', List.length_range'])
  rw [writes]
  conv_lhs => rw [← hbytes, List.zip_map_right, List.filter_map]
  rfl

theorem rawByte_setBytes :
    rawByte (s.setBytes c addr l bytes) g = rawByte (s.pokes ((writes s l bytes).map (·.1)) ((writes s l bytes).map (·.2))) g := by
  rw [writes_eq (addr := addr), List.map_map, List.map_map]
  exact (rawByte_congr rfl rfl).trans rawByte_cleanse

theorem mem_writes {e : HomeOf × Byte} (he : e ∈ writes s l bytes) : e.1 ∈ l ∧ s.taggedAt e.1 = false := by
  obtain ⟨hzip, htag⟩ := List.mem_filter.mp he
  exact ⟨(List.of_mem_zip hzip).1, by simpa using htag⟩

/-- The last byte of a store at a home, if its granule is not tagged, is the last one written there. -/
theorem writes_split {n : Nat} (hg : l[n]? = some g) (hx : bytes[n]? = some x) (hlast : ∀ m, n < m → l[m]? ≠ some g)
    (hfree : s.taggedAt g = false) : ∃ a z, writes s l bytes = a ++ (g, x) :: z ∧ ∀ e ∈ z, g ≠ e.1 := by
  have hzip : (List.zip l bytes)[n]? = some (g, x) := List.getElem?_zip_eq_some.mpr ⟨hg, hx⟩
  obtain ⟨hlen, hat⟩ := List.getElem?_eq_some_iff.mp hzip
  refine ⟨((List.zip l bytes).take n).filter fun e => !s.taggedAt e.1, ((List.zip l bytes).drop (n + 1)).filter fun e => !s.taggedAt e.1,
    ?_, fun e he hsame => ?_⟩
  · rw [writes]
    conv_lhs => rw [← List.take_append_drop n (List.zip l bytes), List.drop_eq_getElem_cons hlen, hat]
    rw [List.filter_append, List.filter_cons_of_pos (by simp [hfree])]
  · obtain ⟨j, hj⟩ := List.mem_iff_getElem?.mp (List.mem_filter.mp he).1
    rw [List.getElem?_drop] at hj
    exact hlast (n + 1 + j) (by omega) (by rw [(List.getElem?_zip_eq_some.mp hj).1, hsame])

/-- What a store leaves at a home: the last byte that it puts there, unless it is in a tagged granule; and every other byte as it was. -/
theorem rawByte_setBytes_last {n : Nat} (hplaced : ∀ h ∈ l, Placed h) (hg : l[n]? = some g) (hx : bytes[n]? = some x)
    (hlast : ∀ m, n < m → l[m]? ≠ some g) : rawByte (s.setBytes c addr l bytes) g = if s.taggedAt g = true then rawByte s g else x := by
  have hgplaced : Placed g := hplaced g (List.mem_of_getElem? hg)
  rw [rawByte_setBytes]
  cases htag : s.taggedAt g with
  | true =>
    refine rawByte_pokes_outside hgplaced fun e he => ?_
    obtain ⟨hmem, hfree⟩ := mem_writes he
    refine ⟨hplaced _ hmem, fun hsame => ?_⟩
    rw [hsame, hfree] at htag
    cases htag
  | false =>
    obtain ⟨a, z, hsplit, hz⟩ := writes_split hg hx hlast htag
    have hmem : ∀ e ∈ z, Placed e.1 := fun e he => hplaced _ (mem_writes (s := s) (bytes := bytes) (by rw [hsplit]; simp [he])).1
    rw [hsplit]
    exact rawByte_pokes_last hgplaced fun e he => ⟨hmem e he, hz e he⟩

theorem rawByte_setBytes_outside (hplaced : ∀ h ∈ l, Placed h) (hg : Placed g) (hout : g ∉ l) :
    rawByte (s.setBytes c addr l bytes) g = rawByte s g := by
  rw [rawByte_setBytes]
  refine rawByte_pokes_outside hg fun e he => ?_
  obtain ⟨hmem, -⟩ := mem_writes he
  exact ⟨hplaced _ hmem, fun hsame => hout (hsame ▸ hmem)⟩
end Stores

/-! ### What else an access does at its home -/

section Accesses
variable {s : State} {c : Ctx} {p : Packet} {id : Nat} {h : HomeOf} {l : List HomeOf} {bytes : List Byte}

@[simp] theorem rawByte_modCtx {k : Nat} {f : Ctx → Ctx} : rawByte (s.modCtx k f) h = rawByte s h :=
  rawByte_congr (s.memories_modCtx k f) (s.modCtx_cores k f)

@[simp] theorem rawByte_failPacket {cause : Cause} {a : Nat} : rawByte (s.failPacket id p cause a) h = rawByte s h := by
  unfold State.failPacket
  dsimp only
  split
  · exact rawByte_congr rfl rfl
  · exact rawByte_modCtx.trans (rawByte_congr rfl rfl)

@[simp] theorem rawByte_acked : rawByte (s.acked p) h = rawByte s h := by
  unfold State.acked
  split
  · exact rawByte_congr rfl rfl
  · rfl

@[simp] theorem rawByte_fold {k : Nat} {records : List (List Byte)} : rawByte (s.fold k records) h = rawByte s h := by
  unfold State.fold
  dsimp only
  split
  · rfl
  · split
    · exact rawByte_congr rfl rfl
    · exact rawByte_congr rfl rfl

@[simp] theorem rawByte_foldWrite {k addr : Nat} {sp : Space} {bs : List (Option Byte)} :
    rawByte (s.foldWrite k c sp addr bs) h = rawByte s h := by
  unfold State.foldWrite
  split
  case h_4 => rfl
  all_goals exact rawByte_fold

theorem rawByte_applyStore (hl : s.homes c p.space true p.addr bytes.length = .ok l) :
    rawByte (s.applyStore id p c bytes) h = rawByte (s.setBytes c p.addr l bytes) h := by
  simp only [State.applyStore, State.writeAt, hl]
  split
  · exact (rawByte_congr rfl rfl).trans rawByte_foldWrite
  · exact rawByte_failPacket.trans rawByte_foldWrite

/-- A store that its home may apply. -/
theorem exec_of_store (hp : s.packet? id = some p) (hc : s.ctx? p.ctx = some c) (hact : p.act = .store bytes) (hgo : s.enabled id p = true) :
    exec (.homeAccessApply id) s = .next (if (p.space == .host || p.space == .peer) && s.mismatched c then
        s.failPacket id p causeDigestMismatch p.addr else (s.atHome id p c (s.applyStore id p c bytes)).acked p) := by
  refine congrArg Host.Outcome.next ?_
  simp only [hp, hc, hgo, if_true, State.applyAccess, hact]
end Accesses

/-- Settles O56: by where `pokes` writes the bytes of a store; nothing else that an access does at its home writes memory. -/
theorem homeStores : Obligations.HomeStores := by
  unfold Obligations.HomeStores
  intro s id p c b hp hc hact hgo
  have hexec := exec_of_store hp hc hact hgo
  refine ⟨fun hsp hrefuse hrepl => ⟨_, hexec, fun h => ?_⟩, fun hmay hhome l hl => ⟨_, hexec, ?_⟩⟩
  · rw [if_pos (by simpa [State.mismatched, hrefuse, hrepl] using hsp)]
    exact rawByte_failPacket
  have happlied (h : HomeOf) : rawByte (if (p.space == .host || p.space == .peer) && s.mismatched c then
      s.failPacket id p causeDigestMismatch p.addr else (s.atHome id p c (s.applyStore id p c b)).acked p) h =
      rawByte (s.setBytes c p.addr l b) h := by
    have hfine : ((p.space == .host || p.space == .peer) && s.mismatched c) = false := by
      cases hspace : (p.space == .host || p.space == .peer) with
      | false => rfl
      | true => rcases hmay (by simpa using hspace) with hnot | hnot <;> simp [State.mismatched, hnot]
    rw [hfine, if_neg (by decide), rawByte_acked, State.atHome, hhome, if_neg (by decide)]
    exact rawByte_applyStore hl
  have hplaced := placed_of_homes hl
  exact ⟨fun h hout hh => (happlied h).trans (rawByte_setBytes_outside hplaced hh hout),
    fun n h x hh hx hlast => (happlied h).trans (rawByte_setBytes_last hplaced hh hx hlast)⟩

end Sys2Proof.Homes
end

section
/-! V's lane words (O18). -/

namespace Sys2Proof.LaneWords

open Sys2Proof.Machine Sys2Proof.Safety Sys2Proof.Effects Sys2Proof.Common Sys2Proof.Faults Sys2Proof.Accesses

/-! ### Lane functions of an issuing word's context -/

section Reads
variable {c : Ctx} {k : Cluster} {u : Uses} {q : Bool}

/-- `lane_issueOn`, where a lane function is mapped over lane numbers. -/
theorem laneFn_issueOn {w32 : Bool} {f : BitVec 15} : (c.issueOn k u q).lane w32 f = c.lane w32 f := funext fun _ => lane_issueOn

theorem picks_issueOn {w32 : Bool} {f : BitVec 15} : (c.issueOn k u q).picks w32 f = c.picks w32 f := by
  rw [Ctx.picks, lanes_issueOn, Ctx.picks]
end Reads

/-! ### Words on whole operands (R175) -/

/-- The word's lanes land in its elements after its latency, and an invalid row that it reads is counted (R144, R175). -/
def SchedulesLanes (i : Instr) (s : State) (c : Ctx) (w : LaneWord) : Prop :=
  exec i s = .next (retired s ((noteElems s c w.u.elems (issuing s c w.h w.u)).deliverElems w.operand w.elems w.vals w.lat))

section Whole
variable {s : State} {c : Ctx} {i : Instr} {h : Hdr} {f : FmtV3} {lat : Nat} {w : LaneWord}
  (p : Issues s c i w.h w.u) (hread : c.uninitElem w.u.elems = none ∨ c.umode ≠ 0)
include p hread

/-- A word whose lanes are a function of the context that its own issue does not change. -/
theorem schedulesLanes_of_lanes {reads : List (Bool × BitVec 15)} {w32 : Bool} {vd : BitVec 15} {fn : Ctx → List Nat}
    (hexec : exec i s = execLanes i h reads w32 vd lat fn s) (hrow : lanes h reads w32 vd lat (fn c) = some w)
    (hkeep : ∀ k u q, fn (c.issueOn k u q) = fn c) : SchedulesLanes i s c w := by
  obtain rfl := Option.some.inj hrow
  refine exec_of_ok hexec p (clear_of_no_mem rfl) ?_
  rw [elemsBody_issuing hread, hkeep]

theorem schedulesLanes_of_v1 {fn : Nat → Nat} (hexec : exec i s = execV1 i h f lat fn s) (hrow : v1 c h f lat fn = some w) :
    SchedulesLanes i s c w :=
  schedulesLanes_of_lanes p hread hexec hrow fun _ _ _ => by rw [lanes_issueOn]

theorem schedulesLanes_of_v2 {fn : Nat → Nat → Nat} (hexec : exec i s = execV2 i h f lat fn s) (hrow : v2 c h f lat fn = some w) :
    SchedulesLanes i s c w :=
  schedulesLanes_of_lanes p hread hexec hrow fun _ _ _ => by simp only [Ctx.zip2, lanes_issueOn]

theorem schedulesLanes_of_v3 {fn : Nat → Nat → Nat → Nat} (hexec : exec i s = execV3 i h f lat fn s)
    (hrow : v3 c h f lat fn = some w) : SchedulesLanes i s c w :=
  schedulesLanes_of_lanes p hread hexec hrow fun _ _ _ => by simp only [lanes_issueOn]
end Whole

/-- Settles O18: the words on whole operands by how many they read; the others each select lanes that the word's own issue leaves alone. -/
theorem laneWords : Obligations.LaneWords := by
  unfold Obligations.LaneWords
  intro i s c w hrow p hread
  cases i
  case vadd h f | vsub h f | vmul h f | vmax h f | vmin h f | vdiv h f | vscale h f | viadd h f | visub h f | vimul h f | vimax h f |
      vimin h f | vand h f | vor h f | vxor h f | vshl h f | vshr h f | vsra h f | vcmp h f | vicmp h f =>
    exact schedulesLanes_of_v2 p hread rfl hrow
  case vabs h f | vneg h f | vsqrt h f | vexp2 h f | vexp h f | vmov h f => exact schedulesLanes_of_v1 p hread rfl hrow
  case vfma h f | vfms h f | vfnma h f | vsel h f => exact schedulesLanes_of_v3 p hread rfl hrow
  case viota h f | vcvt h f => exact schedulesLanes_of_lanes p hread rfl hrow fun _ _ _ => by rw [lanes_issueOn]
  case vclr h f => exact schedulesLanes_of_lanes p hread rfl hrow fun _ _ _ => rfl
  case vunpack h f =>
    obtain rfl := Option.some.inj hrow
    refine exec_of_ok rfl p (clear_of_no_mem rfl) ?_
    simp only [elemsBody_issuing hread, laneFn_issueOn]
  case vperm h f =>
    rw [laneWord, ← permElems_of_present p.present] at hrow
    obtain rfl := Option.some.inj hrow
    refine exec_of_ok rfl p (clear_of_no_mem rfl) ?_
    rw [elemsBody_issuing hread, picks_issueOn, laneFn_issueOn]
  case vrot h f =>
    obtain rfl := Option.some.inj hrow
    refine exec_of_ok rfl p (clear_of_no_mem rfl) ?_
    rw [← elems_usesLanes_single (e := (wide f.ty, f.va)), elemsBody_issuing hread, laneFn_issueOn]
    rfl
  case vbcast h f =>
    obtain rfl := Option.some.inj hrow
    refine exec_of_ok rfl p (clear_of_no_mem rfl) ?_
    rw [elemsBody_issuing hread, lane_issueOn]
    rfl
  case vins h f =>
    obtain rfl := Option.some.inj hrow
    exact exec_of_ok rfl p (clear_of_no_mem rfl) rfl
  all_goals cases hrow

end Sys2Proof.LaneWords
end

section
/-! M's words (O20). -/

namespace Sys2Proof.MatrixWords

open Sys2Proof.Machine Sys2Proof.Safety Sys2Proof.Effects Sys2Proof.Common Sys2Proof.Branches Sys2Proof.Faults Sys2Proof.Accesses
  Sys2Proof.Lanes

/-! ### Reads of a half (R211) -/

section Halves
variable {s t : State} {c : Ctx} {h : Hdr} {u : Uses} {half n : Nat} {a : Word}

/-- What `noteHalf` comes to. It is unfolded without its arguments, and its match is split as it stands: the kernel unfolds a match before it
compares what the match is on, and to reduce this one it would have to compute the line at `half * 2 ^ 22`. -/
theorem noteHalf_eq_elim : noteHalf s c half n a t =
    ((s.core c.core).invalidLine (half * 2 ^ 22 + bits a 0 22) n).elim t fun l =>
      onCtx s (fun c => c.recordUninit (uninitWord 0 (l * 64))) t := by
  generalize hnote : noteHalf = note
  delta noteHalf at hnote
  subst hnote
  beta_reduce
  split
  · next hline => rw [hline, Option.elim_none]
  · next hline => rw [hline, Option.elim_some]

/-- A word whose reads of a half pass goes on with its bytes, an invalid line among them counted (R211, R150). -/
theorem halfBody_eq_of_reads (hreads : halfReads s c half n a = true) {go : List Byte → State → Body} :
    halfBody half n a go (issuing s c h u) = go (halfBytes s c half n a) (noteHalf s c half n a (issuing s c h u)) := by
  simp only [halfReads, Bool.and_eq_true, beq_iff_eq, Option.isNone_iff_eq_none, Bool.not_eq_true', Bool.or_eq_true, bne_iff_ne] at hreads
  obtain ⟨⟨⟨⟨⟨⟨⟨hau, hhigh⟩, halign⟩, howns⟩, hthere⟩, hport⟩, hgood⟩, hvalid⟩ := hreads
  rw [halfBody, arrayBody_issuing hau]
  simp only [owns_issueOn, Ctx.issueOn_who, Ctx.issueOn_xPort, core_issueOn, issuing_core, umode_issueOn]
  rw [if_neg (by simp [hhigh]), if_neg (by simp [halign]), if_neg (by rw [howns, hthere]; decide), if_neg (by rw [hport]; decide), hgood,
    noteHalf_eq_elim]
  cases hline : (s.core c.core).invalidLine (half * 2 ^ 22 + bits a 0 22) n with
  | none => rfl
  | some l =>
    have humode : c.umode ≠ 0 := hvalid.resolve_left (by rw [hline]; exact Option.some_ne_none l)
    rw [Option.elim_some, onCtx_issuing]
    exact if_neg humode
end Halves

/-! ### The array of the context in focus -/

/-- The context of the word in focus of `s` is present in `t`, which has the same focus, and its array is `m`. -/
structure ArrayAt (s t : State) (m : MatrixArray) : Prop where
  focus : t.focus = s.focus
  present : ∃ d, t.ctx? s.focus.1 = some d ∧ d.array = m

section Arrays
variable {s t : State} {c : Ctx} {h : Hdr} {u : Uses} {m : MatrixArray} {f : MatrixArray → MatrixArray} {dacc : BitVec 8}
  {dt : BitVec 15} {df : BitVec 2} {half n : Nat} {a : Word}

theorem drainTo_focus : (drainTo dacc dt df m t).focus = t.focus := by
  unfold drainTo State.deliverElems
  split <;> rfl

theorem modArray_eq_onArray (ht : t.focus = s.focus) : t.modArray f = onArray s f t := by
  rw [State.modArray, ht, onArray, onCtx]

theorem arrayAt_issuing : ArrayAt s (issuing s c h u) c.array where
  focus := issuing_focus ..
  present := ⟨_, issuing_ctx? .., Ctx.issueOn_array ..⟩

/-- A change of the context that takes its array to another. -/
theorem ArrayAt.onCtx {g : Ctx → Ctx} (ht : ArrayAt s t m) (hg : ∀ d, (g d).array = f d.array) : ArrayAt s (onCtx s g t) (f m) where
  focus := (State.modCtx_focus ..).trans ht.focus
  present := by
    obtain ⟨d, hd, rfl⟩ := ht.present
    exact ⟨g d, by rw [Safety.onCtx, State.ctx?_modCtx_self, hd, Option.map_some], hg d⟩

/-- A word that counts an invalid line leaves the array as it was. -/
theorem ArrayAt.noteHalf (ht : ArrayAt s t m) : ArrayAt s (noteHalf s c half n a t) m := by
  rw [noteHalf_eq_elim]
  cases (s.core c.core).invalidLine (half * 2 ^ 22 + bits a 0 22) n with
  | none => exact ht
  | some l => exact ht.onCtx (f := id) fun _ => rfl

/-- A change of the array may name the array that it is given. -/
theorem ArrayAt.onArray_eq (ht : ArrayAt s t m) : onArray s f t = onArray s (fun _ => f m) t := by
  obtain ⟨d, hd, rfl⟩ := ht.present
  simp only [onArray, Safety.onCtx, State.modCtx_of_ctx? _ _ _ _ hd]

/-- A drain takes the row of the array as it stands (R209). -/
theorem ArrayAt.drainRow_eq (ht : ArrayAt s t m) : t.drainRow dacc dt df = drainTo dacc dt df m t := by
  obtain ⟨d, hd, rfl⟩ := ht.present
  rw [State.drainRow, ht.focus, hd, drainTo]

/-- An advance word changes the array, then drains from the changed array where its DR says so (R210). -/
theorem ArrayAt.advance_eq {g : FmtMB} (ht : ArrayAt s t m) :
    (t.modArray f).drainIf g =
      if g.dr = 1 then drainTo g.dacc g.dt g.df (f m) (onArray s (fun _ => f m) t) else onArray s (fun _ => f m) t := by
  have hchanged : ArrayAt s (onArray s f t) (f m) := ht.onCtx fun _ => rfl
  rw [State.drainIf, modArray_eq_onArray ht.focus, hchanged.drainRow_eq, ht.onArray_eq]
end Arrays

/-- Settles O20: each body is that of a task with the array, and works on the array that the issue of its word has left alone. -/
theorem matrixWords : Obligations.MatrixWords := by
  unfold Obligations.MatrixWords
  intro i s c d hrow p hclear
  obtain ⟨hau, hrow⟩ := Option.ite_none_left_eq_some.mp hrow
  have hau : c.who.au = true := by simpa using hau
  cases i
  case mbeat h f =>
    obtain ⟨hreads, hrow⟩ := Option.ite_none_right_eq_some.mp hrow
    obtain rfl := Option.some.inj hrow
    refine exec_of_ok rfl p hclear ((congrArg (halfBody _ · _ _ _) recordBytes_issuing).trans ?_)
    exact (halfBody_eq_of_reads hreads).trans (congrArg Body.ok arrayAt_issuing.noteHalf.advance_eq)
  case mshift h f =>
    obtain rfl := Option.some.inj hrow
    exact exec_of_ok rfl p hclear ((arrayBody_issuing hau).trans (congrArg Body.ok arrayAt_issuing.advance_eq))
  case mdrain h f =>
    obtain rfl := Option.some.inj hrow
    exact exec_of_ok rfl p hclear ((arrayBody_issuing hau).trans (congrArg Body.ok arrayAt_issuing.drainRow_eq))
  case mdrainc h f =>
    obtain rfl := Option.some.inj hrow
    refine exec_of_ok rfl p hclear ((arrayBody_issuing hau).trans (congrArg Body.ok ?_))
    rw [arrayAt_issuing.drainRow_eq]
    exact modArray_eq_onArray drainTo_focus
  case mwload h f | mbscale h f =>
    obtain ⟨hreads, hrow⟩ := Option.ite_none_right_eq_some.mp hrow
    obtain rfl := Option.some.inj hrow
    exact exec_of_ok rfl p hclear
      ((halfBody_eq_of_reads hreads).trans (congrArg Body.ok (modArray_eq_onArray arrayAt_issuing.noteHalf.focus)))
  case mcfg h f | mseed h f | mclr h f =>
    obtain rfl := Option.some.inj hrow
    exact exec_of_ok rfl p hclear (arrayBody_issuing hau)
  case mexp h f | mstat h f =>
    obtain rfl := Option.some.inj hrow
    refine exec_of_ok rfl p hclear ((arrayBody_issuing hau).trans ?_)
    rw [Ctx.issueOn_array]
  case mexpw h f | msat h f =>
    obtain rfl := Option.some.inj hrow
    refine exec_of_ok rfl p hclear ((arrayBody_issuing hau).trans (congrArg Body.ok ?_))
    rw [Ctx.issueOn_array]
    exact modArray_eq_onArray (deliver_focus ..)
  case mwait h =>
    rw [← drainElems_of_present p.present] at hrow
    obtain rfl := Option.some.inj hrow
    exact exec_of_ok rfl p hclear (arrayBody_issuing hau)
  all_goals cases hrow

end Sys2Proof.MatrixWords
end
